-- ==== Sys2Proof/Word.lean ====
section
/-! DEFINITION. The word types of the Narsisa N8 and their plainest arithmetic (01 R6, R8: bit ranges, wrapping). -/

namespace Sys2Proof

/-- A scalar register, an address or a control register (03 R56, R75). -/
abbrev Word := BitVec 64

/-- One byte of memory. -/
abbrev Byte := BitVec 8

/-- An operand-file register, a latch or a pane row (03 R56). -/
abbrev Row := BitVec 1024

/-- A lane mask (03 R56). -/
abbrev Mask := BitVec 128

/-- A 384-bit bundle (02 R34). -/
abbrev Bundle := BitVec 384

end Sys2Proof
end

