-- ==== Sys2Proof/Syntax.lean ====
section
/-! DEFINITION. The instructions and machine events of the opcode table (spec/opcode_table.json), one constructor
a row. The first 186 constructors are the instructions that a bundle's slots hold, with their predicate and their
fields; the others are the events of the machine's own units and of its surroundings, with the choices that the
specification leaves to them. Keys: a die is 8 * module + DIEID, a core 128 * die + COREID, a context
4 * core + CTXID, a quad 32 * die + QUADID. -/

namespace Sys2Proof

/-- A scalar register field (05 R104). -/
abbrev SReg := Fin 64
/-- A predicate field (05 R104). -/
abbrev PReg := Fin 8
/-- A lane-mask field (05 R104, R110). -/
abbrev KReg := Fin 8
/-- An operand-file register field (05 R104). -/
abbrev OReg := Fin 16
/-- A pane number as encoded (03 R62). -/
abbrev PaneNo := Fin 128

/-- Access width (05 R106). -/
inductive VWidth where | w256 | w512 | w1024
  deriving DecidableEq, Repr, Inhabited

/-- Vector type columns (05 Table 5.3). -/
inductive VType where | f32 | bf16 | f16 | i32 | i16 | i8 | ui8
  deriving DecidableEq, Repr, Inhabited

/-- Pane direction (03 Table 3.4). -/
inductive Dir where | row | col | dia
  deriving DecidableEq, Repr, Inhabited

/-- A vector operand (03 Table 3.4). -/
inductive Opnd where
  | main (dir : Dir) (pane : PaneNo) (idx : Fin 64)
  | opr (o : OReg)
  | lat (l : Bool)
  | imm (v : BitVec 15)
  deriving DecidableEq, Repr, Inhabited

/-- What every vector slot carries beside its operands: whether it is V1, the width and the lane mask (02 R36). -/
structure VHdr where
  v1 : Bool
  width : VWidth
  mask : KReg
  deriving DecidableEq, Repr, Inhabited

/-- The conversion control word (05 Table 5.6): RSEL, SRC, DST. -/
structure CvtCtl where
  rsel : BitVec 3
  src : BitVec 6
  dst : BitVec 6
  deriving DecidableEq, Repr, Inhabited

/-- Scopes (01 R16, 05 R106). -/
inductive Scope where | lane | core | quad | die | module | pod
  deriving DecidableEq, Repr, Inhabited

/-- Orderings (05 R106). -/
inductive MemOrd where | relaxed | acquire | release | acqRel
  deriving DecidableEq, Repr, Inhabited

/-- Conditions (05 R106). -/
inductive Cond where | eq | ne | lt | ge | ltu | geu
  deriving DecidableEq, Repr, Inhabited

/-- Atomicity flags (05 R106). -/
inductive Atomicity where | none | w8 | w16
  deriving DecidableEq, Repr, Inhabited

/-- Element sizes of oget and oput (07 Table 7.5). -/
inductive ESize where | e8 | e16 | e32 | e64
  deriving DecidableEq, Repr, Inhabited

/-- The fields that every ember command shares: name, priority, token destination, block address (05 Table 5.7). -/
structure EcHdr where
  name : BitVec 16
  prio : Fin 4
  d : SReg
  a : SReg
  deriving DecidableEq, Repr, Inhabited

/-- A register or row that carries its own error protection (20 Table 20.1). -/
inductive RegId where
  | s (n : Fin 64) | p (n : Fin 8) | k (n : Fin 8) | o (n : Fin 16) | lat (l : Bool)
  | row (pane row : Nat) | csr (n : Nat)
  deriving DecidableEq, Repr, Inhabited

/-- Where an uncorrectable error strikes (20 Table 20.1); recordWrite is one that the write of a unit of a vat's completion record is to
meet (16 R347). -/
inductive UeSite where
  | unit (loc : Nat)
  | reg (cx : Nat) (r : RegId)
  | landing (cx idx : Nat)
  | acc (quad : Nat) (bank : Bool) (unit : Nat)
  | park (quad slot unit : Nat)
  | dict (quad entry : Nat)
  | emberField (core slot : Nat)
  | emberOwner (core slot : Nat)
  | engineQueue (core slot : Nat)
  | flueEntry (vat : Nat)
  | recordWrite (vat unit : Nat)
  | semaphore (die sem : Nat)
  | quadUnit (quad : Nat)
  | coreUnit (core : Nat)
  | dieUnit (die : Nat)
  deriving DecidableEq, Repr, Inhabited

/-- How much of its step an engine's event makes, beside the number of what makes it (14 R308; log entry 15): the whole step at one instant; some of the bytes that the
step, or the u-th one after it, reads, read ahead, or of a collective, with u not 0, units of its block written before the rest of it is
read; the step with its writes put off; some of the writes of the i-th step that put them
off; some of the bytes that it read, read only now. -/
inductive Part where
  | whole | read (u sel : Nat) | defer | late (i sel : Nat) | again (i sel : Nat)
  deriving DecidableEq, Repr, Inhabited

/-- The instructions and events of the opcode table. -/
inductive Instr where
  /-- VADD: 08 R169, R170. -/
  | vadd (h : VHdr) (ty : VType) (d : Opnd) (a : Opnd) (b : Opnd)
  /-- VSUB: 08 R169, R170. -/
  | vsub (h : VHdr) (ty : VType) (d : Opnd) (a : Opnd) (b : Opnd)
  /-- VMUL: 08 R169, R170. -/
  | vmul (h : VHdr) (ty : VType) (d : Opnd) (a : Opnd) (b : Opnd)
  /-- VFMA: 08 R169, R170. -/
  | vfma (h : VHdr) (ty : VType) (d : Opnd) (a : Opnd) (b : Opnd)
  /-- VADDS: 08 R170. -/
  | vadds (h : VHdr) (ty : VType) (d : Opnd) (a : Opnd) (b : Opnd)
  /-- VSUBS: 08 R170. -/
  | vsubs (h : VHdr) (ty : VType) (d : Opnd) (a : Opnd) (b : Opnd)
  /-- VMIN: 08 R171. -/
  | vmin (h : VHdr) (ty : VType) (d : Opnd) (a : Opnd) (b : Opnd)
  /-- VMAX: 08 R171. -/
  | vmax (h : VHdr) (ty : VType) (d : Opnd) (a : Opnd) (b : Opnd)
  /-- VABS: 08 R170, R171. -/
  | vabs (h : VHdr) (ty : VType) (d : Opnd) (a : Opnd)
  /-- VCMPEQ: 08 R172. -/
  | vcmpeq (h : VHdr) (ty : VType) (d : KReg) (a : Opnd) (b : Opnd)
  /-- VCMPLT: 08 R172. -/
  | vcmplt (h : VHdr) (ty : VType) (d : KReg) (a : Opnd) (b : Opnd)
  /-- VCMPLE: 08 R172. -/
  | vcmple (h : VHdr) (ty : VType) (d : KReg) (a : Opnd) (b : Opnd)
  /-- KAND: 08 R174. -/
  | kand (v1 : Bool) (d : KReg) (a : KReg) (b : KReg)
  /-- KOR: 08 R174. -/
  | kor (v1 : Bool) (d : KReg) (a : KReg) (b : KReg)
  /-- KXOR: 08 R174. -/
  | kxor (v1 : Bool) (d : KReg) (a : KReg) (b : KReg)
  /-- KANDN: 08 R174. -/
  | kandn (v1 : Bool) (d : KReg) (a : KReg) (b : KReg)
  /-- VSHL: 08 R175. -/
  | vshl (h : VHdr) (ty : VType) (d : Opnd) (a : Opnd) (b : Opnd)
  /-- VSHR: 08 R175. -/
  | vshr (h : VHdr) (ty : VType) (d : Opnd) (a : Opnd) (b : Opnd)
  /-- VSAR: 08 R175. -/
  | vsar (h : VHdr) (ty : VType) (d : Opnd) (a : Opnd) (b : Opnd)
  /-- VAND: 08 R175. -/
  | vand (h : VHdr) (ty : VType) (d : Opnd) (a : Opnd) (b : Opnd)
  /-- VOR: 08 R175. -/
  | vor (h : VHdr) (ty : VType) (d : Opnd) (a : Opnd) (b : Opnd)
  /-- VXOR: 08 R175. -/
  | vxor (h : VHdr) (ty : VType) (d : Opnd) (a : Opnd) (b : Opnd)
  /-- VMOV: 08 R175. -/
  | vmov (h : VHdr) (ty : VType) (d : Opnd) (a : Opnd)
  /-- VBFLY: 08 R176. -/
  | vbfly (h : VHdr) (ty : VType) (d : Opnd) (a : Opnd) (m : BitVec 15)
  /-- VROT: 08 R176. -/
  | vrot (h : VHdr) (ty : VType) (d : Opnd) (a : Opnd) (m : BitVec 15)
  /-- VBCAST: 08 R176. -/
  | vbcast (h : VHdr) (ty : VType) (d : Opnd) (a : Opnd) (m : BitVec 15)
  /-- VPERM: 08 R176. -/
  | vperm (h : VHdr) (d : Opnd) (a : Opnd) (b : Opnd)
  /-- VREDSUM: 08 R178. -/
  | vredsum (h : VHdr) (ty : VType) (d : Opnd) (a : Opnd)
  /-- VREDMAX: 08 R178. -/
  | vredmax (h : VHdr) (ty : VType) (d : Opnd) (a : Opnd)
  /-- VREDMIN: 08 R178. -/
  | vredmin (h : VHdr) (ty : VType) (d : Opnd) (a : Opnd)
  /-- VREDMASK: 08 R180, R181. -/
  | vredmask (h : VHdr) (d : Opnd) (a : Opnd) (b : Opnd)
  /-- VCVT: 08 R182, R183. -/
  | vcvt (h : VHdr) (d : Opnd) (a : Opnd) (c : CvtCtl)
  /-- VMXQ: 08 R185. -/
  | vmxq (h : VHdr) (d : OReg) (a : Opnd) (c : CvtCtl)
  /-- VMXDQ: 08 R186. -/
  | vmxdq (h : VHdr) (d : Opnd) (a : OReg) (c : CvtCtl)
  /-- VRAND: 08 R187. -/
  | vrand (h : VHdr) (d : Opnd) (a : Opnd) (b : Opnd)
  /-- PANE_PARK: 08 R189. -/
  | panePark (v1 : Bool) (pane : PaneNo) (tag : Fin 32)
  /-- PANE_UNPARK: 08 R190. -/
  | paneUnpark (v1 : Bool) (pane : PaneNo) (tag : Fin 32)
  /-- VEXP2: 09 R196. -/
  | vexp2 (h : VHdr) (ty : VType) (d : Opnd) (a : Opnd)
  /-- VLOG2: 09 R196. -/
  | vlog2 (h : VHdr) (ty : VType) (d : Opnd) (a : Opnd)
  /-- VRCP: 09 R196. -/
  | vrcp (h : VHdr) (ty : VType) (d : Opnd) (a : Opnd)
  /-- VRSQRT: 09 R196. -/
  | vrsqrt (h : VHdr) (ty : VType) (d : Opnd) (a : Opnd)
  /-- VSQRT: 09 R196. -/
  | vsqrt (h : VHdr) (ty : VType) (d : Opnd) (a : Opnd)
  /-- VTANH: 09 R196. -/
  | vtanh (h : VHdr) (ty : VType) (d : Opnd) (a : Opnd)
  /-- VSIGMOID: 09 R196. -/
  | vsigmoid (h : VHdr) (ty : VType) (d : Opnd) (a : Opnd)
  /-- VSIN2PI: 09 R196. -/
  | vsin2pi (h : VHdr) (ty : VType) (d : Opnd) (a : Opnd)
  /-- VCOS2PI: 09 R196. -/
  | vcos2pi (h : VHdr) (ty : VType) (d : Opnd) (a : Opnd)
  /-- ADD: 07 R139. -/
  | add (p : PReg) (d : SReg) (a : SReg) (b : SReg)
  /-- SUB: 07 R139. -/
  | sub (p : PReg) (d : SReg) (a : SReg) (b : SReg)
  /-- AND: 07 R139. -/
  | and (p : PReg) (d : SReg) (a : SReg) (b : SReg)
  /-- OR: 07 R139. -/
  | or (p : PReg) (d : SReg) (a : SReg) (b : SReg)
  /-- XOR: 07 R139. -/
  | xor (p : PReg) (d : SReg) (a : SReg) (b : SReg)
  /-- ANDN: 07 R139. -/
  | andn (p : PReg) (d : SReg) (a : SReg) (b : SReg)
  /-- SHL: 07 R139. -/
  | shl (p : PReg) (d : SReg) (a : SReg) (b : SReg)
  /-- SHR: 07 R139. -/
  | shr (p : PReg) (d : SReg) (a : SReg) (b : SReg)
  /-- SAR: 07 R139. -/
  | sar (p : PReg) (d : SReg) (a : SReg) (b : SReg)
  /-- MIN: 07 R139. -/
  | min (p : PReg) (d : SReg) (a : SReg) (b : SReg)
  /-- MAX: 07 R139. -/
  | max (p : PReg) (d : SReg) (a : SReg) (b : SReg)
  /-- LEA: 07 R139. -/
  | lea (p : PReg) (d : SReg) (a : SReg) (b : SReg) (sh : Fin 16)
  /-- SEL: 07 R139. -/
  | sel (p : PReg) (d : SReg) (a : SReg) (b : SReg) (q : PReg)
  /-- MUL: 07 R139. -/
  | mul (p : PReg) (d : SReg) (a : SReg) (b : SReg)
  /-- MULH: 07 R139. -/
  | mulh (p : PReg) (d : SReg) (a : SReg) (b : SReg)
  /-- CLZ: 07 R139. -/
  | clz (p : PReg) (d : SReg) (a : SReg)
  /-- POPC: 07 R139. -/
  | popc (p : PReg) (d : SReg) (a : SReg)
  /-- ADDI: 07 R140. -/
  | addi (p : PReg) (d : SReg) (a : SReg) (imm : BitVec 25)
  /-- ANDI: 07 R140. -/
  | andi (p : PReg) (d : SReg) (a : SReg) (imm : BitVec 25)
  /-- ORI: 07 R140. -/
  | ori (p : PReg) (d : SReg) (a : SReg) (imm : BitVec 25)
  /-- XORI: 07 R140. -/
  | xori (p : PReg) (d : SReg) (a : SReg) (imm : BitVec 25)
  /-- SHLI: 07 R140. -/
  | shli (p : PReg) (d : SReg) (a : SReg) (n : Fin 64)
  /-- SHRI: 07 R140. -/
  | shri (p : PReg) (d : SReg) (a : SReg) (n : Fin 64)
  /-- SARI: 07 R140. -/
  | sari (p : PReg) (d : SReg) (a : SReg) (n : Fin 64)
  /-- LI: 07 R140. -/
  | li (p : PReg) (d : SReg) (imm : BitVec 25)
  /-- LCAT: 07 R140. -/
  | lcat (p : PReg) (d : SReg) (a : SReg) (imm : BitVec 25)
  /-- CMP: 07 R142. -/
  | cmp (p : PReg) (c : Cond) (d : PReg) (a : SReg) (b : SReg)
  /-- CMPI_EQ: 07 R142. -/
  | cmpiEq (p : PReg) (d : PReg) (a : SReg) (imm : BitVec 25)
  /-- CMPI_NE: 07 R142. -/
  | cmpiNe (p : PReg) (d : PReg) (a : SReg) (imm : BitVec 25)
  /-- CMPI_LT: 07 R142. -/
  | cmpiLt (p : PReg) (d : PReg) (a : SReg) (imm : BitVec 25)
  /-- CMPI_GE: 07 R142. -/
  | cmpiGe (p : PReg) (d : PReg) (a : SReg) (imm : BitVec 25)
  /-- CMPI_LTU: 07 R142. -/
  | cmpiLtu (p : PReg) (d : PReg) (a : SReg) (imm : BitVec 25)
  /-- CMPI_GEU: 07 R142. -/
  | cmpiGeu (p : PReg) (d : PReg) (a : SReg) (imm : BitVec 25)
  /-- PAND: 07 R143. -/
  | pand (p : PReg) (d : PReg) (a : PReg) (b : PReg)
  /-- POR: 07 R143. -/
  | por (p : PReg) (d : PReg) (a : PReg) (b : PReg)
  /-- PXOR: 07 R143. -/
  | pxor (p : PReg) (d : PReg) (a : PReg) (b : PReg)
  /-- BFX: 07 R144. -/
  | bfx (p : PReg) (d : SReg) (a : SReg) (pos : Fin 64) (len1 : Fin 64)
  /-- BFXU: 07 R144. -/
  | bfxu (p : PReg) (d : SReg) (a : SReg) (pos : Fin 64) (len1 : Fin 64)
  /-- BFI: 07 R144. -/
  | bfi (p : PReg) (d : SReg) (a : SReg) (b : SReg) (pos : Fin 64) (len1 : Fin 64)
  /-- KPUT: 07 R145. -/
  | kput (p : PReg) (d : KReg) (a : SReg)
  /-- KGET: 07 R145. -/
  | kget (p : PReg) (d : SReg) (a : KReg)
  /-- OGET: 07 R146. -/
  | oget (p : PReg) (e : ESize) (d : SReg) (a : OReg) (b : SReg)
  /-- OPUT: 07 R146. -/
  | oput (p : PReg) (e : ESize) (d : OReg) (a : SReg) (b : SReg)
  /-- BR: 07 R147. -/
  | br (p : PReg) (off : BitVec 25)
  /-- CALL: 07 R147. -/
  | call (p : PReg) (d : SReg) (off : BitVec 25)
  /-- JMP: 07 R147, R148. -/
  | jmp (p : PReg) (a : SReg)
  /-- CALLR: 07 R147, R148. -/
  | callr (p : PReg) (d : SReg) (a : SReg)
  /-- LOOP: 07 R149. -/
  | loop (p : PReg) (a : SReg) (off : BitVec 25)
  /-- LOOPI: 07 R149. -/
  | loopi (p : PReg) (n : BitVec 12) (off : BitVec 25)
  /-- WAITC: 07 R154. -/
  | waitc (p : PReg) (t0 : BitVec 8) (t1 : BitVec 8) (t2 : BitVec 8) (t3 : BitVec 8)
  /-- CSRR: 07 R156. -/
  | csrr (p : PReg) (n : BitVec 12) (d : SReg)
  /-- CSRW: 07 R156. -/
  | csrw (p : PReg) (n : BitVec 12) (a : SReg)
  /-- CSRS: 07 R156. -/
  | csrs (p : PReg) (n : BitVec 12) (a : SReg) (d : SReg)
  /-- CSRC: 07 R156. -/
  | csrc (p : PReg) (n : BitVec 12) (a : SReg) (d : SReg)
  /-- BAR: 07 R159, R160. -/
  | bar (p : PReg) (sc : Scope)
  /-- BREAK: 07 R161. -/
  | brk (p : PReg) (imm : BitVec 16)
  /-- WHEEL_END: 07 R162. -/
  | wheelEnd (p : PReg)
  /-- WHEEL_SPAWN: 16 R338. -/
  | wheelSpawn (p : PReg) (a : SReg)
  /-- WHEEL_SPAWN_CORE: 16 R338. -/
  | wheelSpawnCore (p : PReg) (a : SReg)
  /-- SEM_SIG: 16 R340. -/
  | semSig (p : PReg) (a : SReg) (n : BitVec 16)
  /-- SEM_WAIT: 16 R340. -/
  | semWait (p : PReg) (a : SReg) (n : BitVec 16)
  /-- SEM_TEST: 16 R340. -/
  | semTest (p : PReg) (d : SReg) (a : SReg)
  /-- TRET: 17 R362. -/
  | tret (p : PReg)
  /-- XLAT_INV_RANGE: 17 R374. -/
  | xlatInvRange (p : PReg) (i : Fin 64)
  /-- XLAT_INV_PAGE: 17 R374. -/
  | xlatInvPage (p : PReg) (a : SReg)
  /-- XLAT_INV_VAT: 17 R374. -/
  | xlatInvVat (p : PReg)
  /-- SSAVE: 17 R363. -/
  | ssave (p : PReg) (a : SReg)
  /-- SREST: 17 R363. -/
  | srest (p : PReg) (a : SReg)
  /-- LDB: 10 R211. -/
  | ldb (p : PReg) (d : SReg) (a : SReg) (off : BitVec 14)
  /-- LDBU: 10 R211. -/
  | ldbu (p : PReg) (d : SReg) (a : SReg) (off : BitVec 14)
  /-- LDH: 10 R211. -/
  | ldh (p : PReg) (d : SReg) (a : SReg) (off : BitVec 14)
  /-- LDHU: 10 R211. -/
  | ldhu (p : PReg) (d : SReg) (a : SReg) (off : BitVec 14)
  /-- LDW: 10 R211. -/
  | ldw (p : PReg) (d : SReg) (a : SReg) (off : BitVec 14)
  /-- LDWU: 10 R211. -/
  | ldwu (p : PReg) (d : SReg) (a : SReg) (off : BitVec 14)
  /-- LDD: 10 R211. -/
  | ldd (p : PReg) (w8 : Bool) (d : SReg) (a : SReg) (off : BitVec 14)
  /-- STB: 10 R211. -/
  | stb (p : PReg) (d : SReg) (a : SReg) (off : BitVec 14)
  /-- STH: 10 R211. -/
  | sth (p : PReg) (d : SReg) (a : SReg) (off : BitVec 14)
  /-- STW: 10 R211. -/
  | stw (p : PReg) (d : SReg) (a : SReg) (off : BitVec 14)
  /-- STD: 10 R211. -/
  | std (p : PReg) (w8 : Bool) (d : SReg) (a : SReg) (off : BitVec 14)
  /-- LDV: 10 R212. -/
  | ldv (p : PReg) (w : VWidth) (at_ : Atomicity) (d : OReg) (a : SReg) (off : BitVec 14)
  /-- STV: 10 R212. -/
  | stv (p : PReg) (w : VWidth) (at_ : Atomicity) (d : OReg) (a : SReg) (off : BitVec 14)
  /-- LDP: 10 R213. -/
  | ldp (p : PReg) (w : VWidth) (at_ : Atomicity) (pane : PaneNo) (row : Fin 64) (a : SReg) (off : BitVec 14)
  /-- STP: 10 R213. -/
  | stp (p : PReg) (w : VWidth) (at_ : Atomicity) (pane : PaneNo) (row : Fin 64) (a : SReg) (off : BitVec 14)
  /-- LDMX: 10 R214. -/
  | ldmx (p : PReg) (el8 : Bool) (w : VWidth) (d : OReg) (a : SReg) (off : BitVec 14)
  /-- STMX: 10 R214. -/
  | stmx (p : PReg) (el8 : Bool) (w : VWidth) (d : OReg) (a : SReg) (off : BitVec 14)
  /-- PREF: 10 R215. -/
  | pref (p : PReg) (a : SReg) (off : BitVec 14)
  /-- CL_INV: 10 R216. -/
  | clInv (p : PReg) (a : SReg) (off : BitVec 14)
  /-- CL_ZERO: 10 R217. -/
  | clZero (p : PReg) (a : SReg) (off : BitVec 14)
  /-- MARK: 10 R218. -/
  | mark
  /-- FENCE: 10 R222. -/
  | fence (p : PReg) (sc : Scope) (o : MemOrd)
  /-- AMO_ADD: 10 R219, R220. -/
  | amoAdd (p : PReg) (sc : Scope) (o : MemOrd) (w8 : Bool) (d : SReg) (a : SReg) (b : SReg)
  /-- AMO_SWAP: 10 R219, R220. -/
  | amoSwap (p : PReg) (sc : Scope) (o : MemOrd) (w8 : Bool) (d : SReg) (a : SReg) (b : SReg)
  /-- AMO_CAS: 10 R219, R220. -/
  | amoCas (p : PReg) (sc : Scope) (o : MemOrd) (failAcq : Bool) (w8 : Bool) (d : SReg) (a : SReg) (b : SReg)
  /-- AMO_AND: 10 R219, R220. -/
  | amoAnd (p : PReg) (sc : Scope) (o : MemOrd) (w8 : Bool) (d : SReg) (a : SReg) (b : SReg)
  /-- AMO_OR: 10 R219, R220. -/
  | amoOr (p : PReg) (sc : Scope) (o : MemOrd) (w8 : Bool) (d : SReg) (a : SReg) (b : SReg)
  /-- AMO_XOR: 10 R219, R220. -/
  | amoXor (p : PReg) (sc : Scope) (o : MemOrd) (w8 : Bool) (d : SReg) (a : SReg) (b : SReg)
  /-- AMO_MAX: 10 R219, R220. -/
  | amoMax (p : PReg) (sc : Scope) (o : MemOrd) (w8 : Bool) (d : SReg) (a : SReg) (b : SReg)
  /-- AMO_MIN: 10 R219, R220. -/
  | amoMin (p : PReg) (sc : Scope) (o : MemOrd) (w8 : Bool) (d : SReg) (a : SReg) (b : SReg)
  /-- FLD: 18 R391 to R394. -/
  | fld (p : PReg) (w8 : Bool) (d : SReg) (a : SReg) (off : BitVec 14)
  /-- FST: 18 R391 to R394. -/
  | fst (p : PReg) (w8 : Bool) (d : SReg) (a : SReg) (off : BitVec 14)
  /-- FFENCE_FLAG: 18 R391 to R394. -/
  | ffenceFlag (p : PReg) (w8 : Bool) (d : SReg) (a : SReg) (off : BitVec 14)
  /-- FAMO_ADD: 18 R392. -/
  | famoAdd (p : PReg) (o : MemOrd) (w8 : Bool) (d : SReg) (a : SReg) (b : SReg)
  /-- FAMO_SWAP: 18 R392. -/
  | famoSwap (p : PReg) (o : MemOrd) (w8 : Bool) (d : SReg) (a : SReg) (b : SReg)
  /-- FAMO_CAS: 18 R392. -/
  | famoCas (p : PReg) (o : MemOrd) (failAcq : Bool) (w8 : Bool) (d : SReg) (a : SReg) (b : SReg)
  /-- FAMO_AND: 18 R392. -/
  | famoAnd (p : PReg) (o : MemOrd) (w8 : Bool) (d : SReg) (a : SReg) (b : SReg)
  /-- FAMO_OR: 18 R392. -/
  | famoOr (p : PReg) (o : MemOrd) (w8 : Bool) (d : SReg) (a : SReg) (b : SReg)
  /-- PRESS_LEASE: 12 R254. -/
  | pressLease (p : PReg)
  /-- PRESS_FREE: 12 R254. -/
  | pressFree (p : PReg)
  /-- PRESS_CLAIM: 12 R257. -/
  | pressClaim (p : PReg) (bank : Bool)
  /-- PRESS_RELEASE: 12 R257. -/
  | pressRelease (p : PReg) (bank : Bool)
  /-- PRESS_STAT_NORTH: 12 R258, R266. -/
  | pressStatNorth (p : PReg) (c : EcHdr) (b : SReg) (snap : Bool)
  /-- PRESS_STAT_WEST: 12 R258, R266. -/
  | pressStatWest (p : PReg) (c : EcHdr) (b : SReg) (snap : Bool)
  /-- PRESS_RUN: 12 R258, R268. -/
  | pressRun (p : PReg) (c : EcHdr) (b : SReg) (bank : Bool) (sparse : Bool) (snap : Bool)
  /-- PRESS_DRAIN: 12 R258, R271. -/
  | pressDrain (p : PReg) (c : EcHdr) (b : SReg) (bank : Bool) (acc : Bool)
  /-- PRESS_ZERO: 12 R258, R272. -/
  | pressZero (p : PReg) (c : EcHdr) (bank : Bool)
  /-- COPY: 13 R277. -/
  | copy (p : PReg) (c : EcHdr) (snap : Bool)
  /-- COPY_HOOP: 13 R277. -/
  | copyHoop (p : PReg) (c : EcHdr) (hoop : Fin 64) (snap : Bool)
  /-- COPY_BB: 13 R277. -/
  | copyBb (p : PReg) (c : EcHdr) (bb : Fin 64) (snap : Bool)
  /-- COLL: 18 R396. -/
  | coll (p : PReg) (c : EcHdr)
  /-- CAVE_UPD: 18 R406. -/
  | caveUpd (p : PReg) (c : EcHdr) (b : SReg)
  /-- EMB_WAIT: 11 R234 to R238. -/
  | embWait (p : PReg) (d : SReg) (a : SReg)
  /-- EMB_WAIT_TRAP: 11 R234 to R238. -/
  | embWaitTrap (p : PReg) (d : SReg) (a : SReg)
  /-- EMB_TEST: 11 R234 to R238. -/
  | embTest (p : PReg) (d : SReg) (a : SReg)
  /-- EMB_CANCEL: 11 R234 to R238. -/
  | embCancel (p : PReg) (d : SReg) (a : SReg)
  /-- EMB_DETACH: 11 R234 to R238. -/
  | embDetach (p : PReg) (d : SReg) (a : SReg)
  /-- EMB_ADOPT: 11 R239. -/
  | embAdopt (p : PReg) (d : SReg) (name : BitVec 16)
  /-- EMB_PRIO: 11 R240. -/
  | embPrio (p : PReg) (d : SReg) (a : SReg) (n : Fin 4)
  /-- EMB_INFO: 11 R243. -/
  | embInfo (p : PReg) (d : SReg) (a : SReg)
  /-- EMB_AFTER: 11 R241. -/
  | embAfter (p : PReg) (d : SReg) (a : SReg)
  /-- HOOP_INIT: 13 R294. -/
  | hoopInit (p : PReg) (hoop : Fin 64) (a : SReg) (b : SReg)
  /-- HOOP_AWAIT: 13 R295. -/
  | hoopAwait (p : PReg) (d : SReg) (hoop : Fin 64)
  /-- HOOP_REL: 13 R296. -/
  | hoopRel (p : PReg) (hoop : Fin 64)
  /-- HOOP_QUERY: 13 R297. -/
  | hoopQuery (p : PReg) (d : SReg) (hoop : Fin 64)
  /-- BB_EXPECT: 13 R301. -/
  | bbExpect (p : PReg) (d : SReg) (bb : Fin 64) (a : SReg)
  /-- BB_ARRIVE: 13 R301. -/
  | bbArrive (p : PReg) (bb : Fin 64) (a : SReg)
  /-- BB_WAIT: 13 R301. -/
  | bbWait (p : PReg) (bb : Fin 64) (a : SReg)
  /-- BB_QUERY: 13 R301. -/
  | bbQuery (p : PReg) (d : SReg) (bb : Fin 64)
  /-- MOLD_GET: 13 R303. -/
  | moldGet (p : PReg) (d : SReg) (a : SReg)
  /-- MOLD_PASS: 13 R303. -/
  | moldPass (p : PReg) (a : SReg)
  /-- MOLD_FREE: 13 R303. -/
  | moldFree (p : PReg) (a : SReg)
  -- Machine events.
  /-- BUNDLE_ISSUE: 02 R42: the selected context of the core issues its next bundle. -/
  | bundleIssue (core : Nat)
  /-- CONTEXT_SELECT: 02 R45: the core picks its next ready context. -/
  | contextSelect (core : Nat)
  /-- WHEEL_ENDED: 07 R162, R163: a wheel that has issued wheel.end, or faulted, ends. -/
  | wheelEnded (cx : Nat)
  /-- XLAT_INV_COMPLETE: 17 R374: the invalidation the context waits for completes. -/
  | xlatInvComplete (cx : Nat)
  /-- LOAD_COMPLETE: 10 R207: bytes of the oldest load are performed; sel has a bit for each byte chosen; hit: served by the L1 where its line is present. -/
  | loadComplete (cx : Nat) (ret : Nat) (sel : Nat) (hit : Bool)
  /-- STORE_PERFORMED: 10 R207: bytes of the oldest store are performed. -/
  | storePerformed (cx : Nat) (sel : Nat)
  /-- ATOMIC_PERFORMED: 10 R220: the oldest atomic is performed. -/
  | atomicPerformed (cx : Nat)
  /-- MARK_PERFORMED: 10 R218: the mark or fence at the head of its queues is performed. -/
  | markPerformed (cx : Nat)
  /-- TRANSLATION_WALK: 17 R373: a core or a copy engine caches the translation of a page. -/
  | translationWalk (unit : Nat) (vat : Nat) (va : Nat)
  /-- LEASE_GRANT: 12 R255. -/
  | leaseGrant (quad : Nat)
  /-- BANK_DEFERRED_RELEASE: 12 R257. -/
  | bankDeferredRelease (quad : Nat) (bank : Bool)
  /-- PRESS_COMMAND_START: 12 R259. -/
  | pressCommandStart (quad : Nat) (core : Nat) (slot : Nat)
  /-- MULTICAST_TRANSFER: 12 R267: the sender and its targets load their images. -/
  | multicastTransfer (quad : Nat)
  /-- PRESS_BOUNDARY: 12 R274: the running command completes its next unit. -/
  | pressBoundary (quad : Nat × Part)
  /-- COPY_START: 13 R276, R280. -/
  | copyStart (quad : Nat) (core : Nat) (slot : Nat)
  /-- COPY_CHUNK: 13 R279. -/
  | copyChunk (quad : Nat) (core : Nat) (slot : Nat × Part)
  /-- CODEC_BLOCK: 13 R289, R290. -/
  | codecBlock (quad : Nat) (core : Nat) (slot : Nat × Part)
  /-- COLLECTIVE_BEGIN: 18 R400. -/
  | collectiveBegin (ember : Nat)
  /-- WHEY_PIECE_ARRIVAL: 18 R385: the piece of a sender for a destination block of a member; ok: its CRC passes. -/
  | wheyPieceArrival (ember : Nat × Part) (sender : Nat) (block : Nat) (ok : Bool)
  /-- WHEY_DEADLINE: 18 R397. -/
  | wheyDeadline (ember : Nat × Part)
  /-- COLLECTIVE_STEP: 18 R402: a part of a sender reaches the cave of a member. -/
  | collectiveStep (ember : Nat × Part) (sender : Nat) (block : Nat)
  /-- COLLECTIVE_DONE: 18 R400. -/
  | collectiveDone (ember : Nat × Part)
  /-- CAVE_UPDATE_STEP: 18 R407: the next row group of a cave update. -/
  | caveUpdateStep (ember : Nat) (sel : Nat × Option Nat)
  /-- HOOP_SLOT_EMPTY: 13 R296. -/
  | hoopSlotEmpty (quad : Nat) (hoop : Nat) (slot : Nat)
  /-- BB_ARRIVE_APPLY: 13 R301: the oldest accepted bb.arrive is applied. -/
  | bbArriveApply (quad : Nat) (bb : Nat)
  /-- RING_ENTRY_CONSUME: 16 R330, R332. -/
  | ringEntryConsume (die : Nat) (queue : Nat)
  /-- VAT_READY: 16 R342. -/
  | vatReady (vat : Nat)
  /-- WHEEL_PLACE: 16 R335 to R338: contexts with their first pane for the next wheel, for the whole of the next gang or range, or for a spawned wheel; the granules and dictionary ranges the flue chooses. -/
  | wheelPlace (vat : Nat) (spawned : Bool) (places : List (Nat × Nat)) (granules : List Nat) (dicts : List Nat)
  /-- INDEX_RANGE_GRANT: 16 R351, R352: a range of so many indices for a die. -/
  | indexRangeGrant (vat : Nat) (die : Nat) (count : Nat)
  /-- PRELOAD_COMMIT: 16 R350. -/
  | preloadCommit (quad : Nat) (vat : Nat)
  /-- VAT_COMPLETE: 16 R346. -/
  | vatComplete (vat : Nat)
  /-- STARVATION_PREEMPT: 16 R345. -/
  | starvationPreempt (vat : Nat) (victim : Nat)
  /-- CONTEXT_HALT: 17 R365. -/
  | contextHalt (cx : Nat)
  /-- VAT_SAVE: 17 R366: the save of the vat on one core. -/
  | vatSave (vat : Nat) (core : Nat)
  /-- VAT_RESUME: 17 R368: the wheels saved from one core resume on another. -/
  | vatResume (vat : Nat) (oldCore : Nat) (newCore : Nat)
  /-- FAR_REQUEST_RECEIVE: 18 R389. -/
  | farRequestReceive (req : Nat)
  /-- FAR_RESPONSE: 18 R392, R394. -/
  | farResponse (req : Nat)
  /-- FST_ACK: 18 R393. -/
  | fstAck (req : Nat)
  /-- FAR_TIMEOUT: 18 R395. -/
  | farTimeout (req : Nat)
  /-- THERMAL_TRIP: 21 R432. -/
  | thermalTrip (die : Nat)
  /-- HOST_PORT_FAILOVER: 18 R410. -/
  | hostPortFailover (md : Nat)
  /-- THROTTLE: 21 R432. -/
  | throttle (die : Nat) (power : Bool) (thermal : Bool) (cycles : Nat)
  /-- HOST_PORT_SELECT: 21 R436: which host links are up. -/
  | hostPortSelect (md : Nat) (up0 : Bool) (up4 : Bool)
  /-- HBM_TRAINING_DONE: 21 R434. -/
  | hbmTrainingDone (die : Nat) (failed : Option (Fin 6))
  /-- MGMT_READ: 18 R409; 20 R429; 21 R437. -/
  | mgmtRead (md : Nat) (sq : Nat) (die : Nat) (reg : Nat)
  /-- MGMT_WRITE: 18 R409; 20 R429; 21 R437. -/
  | mgmtWrite (md : Nat) (sq : Nat) (die : Nat) (reg : Nat) (val : Word)
  /-- DRAIN_ISOLATE_QUAD: 20 R422. -/
  | drainIsolateQuad (die : Nat) (quad : Nat)
  /-- RETURN_QUAD: 20 R430. -/
  | returnQuad (die : Nat) (quad : Nat)
  /-- RETIRE_CORE: 20 R423. -/
  | retireCore (die : Nat) (core : Nat)
  /-- DRAIN_ISOLATE_DIE: 20 R422. -/
  | drainIsolateDie (die : Nat)
  /-- RETURN_DIE: 20 R430. -/
  | returnDie (die : Nat)
  /-- RECALIBRATE_LINK: 20 R424. -/
  | recalibrateLink (die : Nat) (other : Nat)
  /-- RECALIBRATE_HBM: 20 R424. -/
  | recalibrateHbm (die : Nat) (stack : Nat)
  /-- RECALIBRATION_DONE: 20 R424. -/
  | recalibrationDone (die : Nat)
  /-- REINIT_SEMAPHORE: 20 R430. -/
  | reinitSemaphore (die : Nat) (sem : Nat)
  /-- CLEAR_SATURATED: 20 R430. -/
  | clearSaturated (die : Nat) (sem : Nat)
  /-- LOAD_FIRMWARE: 20 R426. -/
  | loadFirmware (die : Nat)
  /-- RAISE_FWSVN: 20 R426. -/
  | raiseFwsvn (die : Nat)
  /-- RESULT_DELIVERY: 02 R47: results whose count has run out reach their registers. -/
  | resultDelivery (cx : Nat)
  /-- FMT_WRITE_EFFECT: 02 R54: a pending FMT write whose count has run out takes effect. -/
  | fmtWriteEffect (cx : Nat)
  /-- ENERGY_UPDATE: 16 R344: a die takes its share in microjoules. -/
  | energyUpdate (vat : Nat) (amount : Nat)
  /-- CORE_POWER_GATE: 16 R354. -/
  | corePowerGate (core : Nat)
  /-- CORE_WAKE: 16 R354. -/
  | coreWake (core : Nat)
  /-- PRELOAD: 16 R350. -/
  | preload (quad : Nat) (vat : Nat)
  /-- LINK_FLIT_RECEIVE: 18 R380. -/
  | linkFlitReceive (die : Nat) (other : Nat) (lane : Nat) (ok : Bool)
  /-- PLANE_LINK_BRINGUP: 18 R382, R383: ok: the peer requires no option outside Table 18.2. -/
  | planeLinkBringup (die : Nat) (port : Nat) (ok : Bool)
  /-- PLANE_PORT_DOWN: 18 R382. -/
  | planePortDown (die : Nat) (port : Nat)
  /-- DMA_WRITE: 18 R409. -/
  | dmaWrite (md : Nat) (sq : Nat) (pa : Nat) (bytes : List Byte)
  /-- CANCEL: 18 Table 18.10; 16 R348. -/
  | cancel (md : Nat) (sq : Nat) (vat : Nat)
  /-- RERUN: 18 Table 18.10; 16 R349. -/
  | rerun (md : Nat) (sq : Nat) (vat : Nat)
  /-- RESIDENT: 18 Table 18.10; 17 R378. -/
  | resident (md : Nat) (sq : Nat) (vat : Nat) (page : Nat)
  /-- BIND: 18 Table 18.10; R388. -/
  | bind (md : Nat) (sq : Nat) (die : Nat) (domain : Nat) (vat : Nat) (table : Nat)
  /-- UNBIND: 18 Table 18.10; R388. -/
  | unbind (md : Nat) (sq : Nat) (die : Nat) (domain : Nat)
  /-- MALFORMED_MESSAGE: 18 R409. -/
  | malformedMessage (md : Nat) (sq : Nat) (ty : Nat)
  /-- HEVENT_READ: 20 R429: a read of HEVENT takes the oldest health event. -/
  | heventRead (die : Nat)
  /-- SECPOL_WRITE: 20 R428. -/
  | secpolWrite (md : Nat) (val : Word)
  /-- MODCFG_WRITE: 21 R437. -/
  | modcfgWrite (md : Nat) (val : Word)
  /-- RESIDENCY_COMMAND: 17 R378; 21 Table 21.2. -/
  | residencyCommand (die : Nat) (page : Nat)
  /-- CORRECTED_ERROR: 20 R417, R419: kind is the row of Table 20.2, res the resource. -/
  | correctedError (die : Nat) (kind : Nat) (res : Nat)
  /-- UNCORRECTABLE_ERROR: 20 R417. -/
  | uncorrectableError (where_ : UeSite)
  /-- PATROL_SCRUB: 20 R417, 16 R343. -/
  | patrolScrub (where_ : UeSite) (bad : Bool)
  /-- PARITY_ERROR: 20 R418: again: the reissue detects an error too. -/
  | parityError (core : Nat) (again : Bool)
  /-- DIE_FAILURE: 16 R353: the dies that fail before one election. -/
  | dieFailure (dies : List Nat)
  /-- TAMPER_MESH: 20 R427. -/
  | tamperMesh (md : Nat)
  /-- VOLTAGE_GLITCH: 20 R427, 21 R431. -/
  | voltageGlitch (md : Nat)
  /-- CLOCK_GLITCH: 20 R427. -/
  | clockGlitch (md : Nat)
  /-- SUBMIT: 18 Table 18.10. -/
  | submit (md : Nat) (sq : Nat) (die : Nat) (queue : Nat) (pa : Nat)
  /-- PREEMPT: 18 Table 18.10; 17 R364. -/
  | preempt (md : Nat) (sq : Nat) (vat : Nat) (cores : List Nat)
  /-- MODULE_RESET: 21 R433. -/
  | moduleReset (md : Nat)
  /-- SELF_TEST_DONE: 21 R434. -/
  | selfTestDone (die : Nat) (faults : List UeSite)
  /-- DMA_READ: 18 R409. -/
  | dmaRead (md : Nat) (sq : Nat) (pa : Nat) (len : Nat)
  deriving DecidableEq, Repr

end Sys2Proof
end

