-- ==== Sys2Proof/WellFormed.lean ====
section
/-! DEFINITION. Which instructions the encodings allow: the conditions of 02 Table 2.5, order 4, that one slot's own
fields decide (05 Tables 5.1 to 5.16). A form that fails here is ILLEGAL_BUNDLE at issue. -/

namespace Sys2Proof

/-- Bits of a slot width (02 R36). -/
def VWidth.bits : VWidth → Nat
  | .w256 => 256 | .w512 => 512 | .w1024 => 1024

/-- Element bits of a vector type (05 Table 5.3). -/
def VType.bits : VType → Nat
  | .f32 => 32 | .bf16 => 16 | .f16 => 16 | .i32 => 32 | .i16 => 16 | .i8 => 8 | .ui8 => 8

/-- The floating-point vector types. -/
def VType.isFp : VType → Bool
  | .f32 => true | .bf16 => true | .f16 => true | _ => false

/-- Columns 011b to 101b: the types of shifts, logic, moves and exchanges. -/
def VType.isLogic : VType → Bool
  | .i32 => true | .i16 => true | .i8 => true | _ => false

/-- "mo": main file or operand file (05 R109). -/
def Opnd.isMo : Opnd → Bool
  | .main _ _ _ => true | .opr _ => true | .lat _ => false | .imm _ => false

/-- "mo, L" (05 R109). -/
def Opnd.isMoL : Opnd → Bool
  | .imm _ => false | _ => true

/-- An immediate (05 R109). -/
def Opnd.isImm : Opnd → Bool
  | .imm _ => true | _ => false

/-- A pane column or diagonal (03 R64). -/
def Opnd.isColDia : Opnd → Bool
  | .main .row _ _ => false | .main _ _ _ => true | _ => false

/-- A pane row form (08 R180). -/
def Opnd.isRow : Opnd → Bool
  | .main .row _ _ => true | _ => false

/-- An even operand-file register (05 R112). -/
def Opnd.isEvenOpr : Opnd → Bool
  | .opr o => o.val % 2 == 0 | _ => false

/-- Element bits of a format code of 04 Table 4.1, 0 for a reserved code. -/
def fmtBits (c : Nat) : Nat :=
  if c = 0 then 32 else if c = 1 then 16 else if c = 2 then 16 else if c = 3 then 4
  else if c = 4 then 8 else if c = 5 then 8 else if c = 6 then 32 else if c = 7 then 4
  else if c = 8 then 8 else if 32 ≤ c ∧ c < 64 ∧ c % 8 ≠ 0 then 8 else 0

/-- A format code that is not reserved (04 R80). -/
def fmtOk (c : Nat) : Bool := fmtBits c != 0

/-- A signed binary8 code (04 Table 4.1: [5] = 1, [4] = 0, P not 0). -/
def isSignedB8 (c : Nat) : Bool := 32 ≤ c && c < 48 && c % 8 != 0

/-- Element codes that may carry an MX mark (04 R81). -/
def mxCodeOk (c : Nat) : Bool := c == 3 || isSignedB8 c

/-- RSEL values that are not reserved (05 Table 5.6). -/
def rselOk (r : BitVec 3) : Bool := r != 5 && r != 6

/-- RSEL values that may round stochastically (05 R112). -/
def rselMaySr (r : BitVec 3) : Bool := r == 4 || r == 7

/-- Three-operand vector forms: D mo, A mo L, B mo L I. -/
def wf3 (d a _b : Opnd) : Bool := d.isMo && a.isMoL

/-- Two-operand vector forms: D mo, A mo L. -/
def wf2 (d a : Opnd) : Bool := d.isMo && a.isMoL

/-- Lane-exchange immediates (08 R177). -/
def wfLane (h : VHdr) (ty : VType) (m : BitVec 15) : Bool :=
  ty.isLogic && decide (m.toNat < h.width.bits / ty.bits)

/-- Legal control words of vcvt (05 R111, R112; 03 R64). -/
def wfVcvt (d a : Opnd) (c : CvtCtl) : Bool :=
  wf2 d a && rselOk c.rsel && fmtOk c.src.toNat && fmtOk c.dst.toNat && c.src != 8 && c.dst != 8
  && (!rselMaySr c.rsel || (a.isEvenOpr && c.src == 0))
  && !(fmtBits c.src.toNat == 4 && a.isColDia) && !(fmtBits c.dst.toNat == 4 && d.isColDia)

/-- Legal control words of vmxq (05 R111, R112; 08 R185). -/
def wfVmxq (h : VHdr) (a : Opnd) (c : CvtCtl) : Bool :=
  a.isMoL && rselOk c.rsel && decide (c.src.toNat < 3) && mxCodeOk c.dst.toNat
  && (!rselMaySr c.rsel || (a.isEvenOpr && c.src == 0))
  && h.mask == 0 && decide (32 ≤ h.width.bits / fmtBits c.src.toNat)

/-- Legal control words of vmxdq (05 R111; 08 R186). -/
def wfVmxdq (h : VHdr) (d : Opnd) (c : CvtCtl) : Bool :=
  d.isMo && rselOk c.rsel && c.rsel != 4 && mxCodeOk c.src.toNat && decide (c.dst.toNat < 3)
  && decide (32 ≤ h.width.bits / fmtBits c.dst.toNat)

/-- Whether the encodings allow an instruction's fields. Machine events have no encoding and are always
well formed. -/
def Instr.wf : Instr → Bool
  | .vadd _ ty d a b | .vsub _ ty d a b | .vmul _ ty d a b => ty != .ui8 && wf3 d a b
  | .vfma _ ty d a b => ty.isFp && wf3 d a b
  | .vadds _ ty d a b | .vsubs _ ty d a b => !ty.isFp && wf3 d a b
  | .vmin _ _ d a b | .vmax _ _ d a b => wf3 d a b
  | .vabs _ ty d a => ty != .ui8 && wf2 d a
  | .vcmpeq _ _ _ a _ | .vcmplt _ _ _ a _ | .vcmple _ _ _ a _ => a.isMoL
  | .vshl _ ty d a b | .vshr _ ty d a b | .vsar _ ty d a b
  | .vand _ ty d a b | .vor _ ty d a b | .vxor _ ty d a b => ty.isLogic && wf3 d a b
  | .vmov _ ty d a => ty.isLogic && wf2 d a
  | .vbfly h ty d a m | .vrot h ty d a m | .vbcast h ty d a m => wfLane h ty m && wf2 d a
  | .vperm _ d a b => wf2 d a && b.isMoL
  | .vredsum _ ty d a => (ty.isFp || ty == .i32) && wf2 d a
  | .vredmax _ _ d a | .vredmin _ _ d a => wf2 d a
  | .vredmask _ d a b => d.isMo && a.isRow && b.isMo
  | .vcvt _ d a c => wfVcvt d a c
  | .vmxq h _ a c => wfVmxq h a c
  | .vmxdq h d _ c => wfVmxdq h d c
  | .vrand _ d a b => wf3 d a b
  | .vexp2 _ ty d a | .vlog2 _ ty d a | .vrcp _ ty d a | .vrsqrt _ ty d a | .vsqrt _ ty d a
  | .vtanh _ ty d a | .vsigmoid _ ty d a | .vsin2pi _ ty d a | .vcos2pi _ ty d a => ty.isFp && wf2 d a
  | .bfx _ _ _ pos len1 | .bfxu _ _ _ pos len1 | .bfi _ _ _ _ pos len1 => decide (pos.val + len1.val + 1 ≤ 64)
  | .semSig _ _ n | .semWait _ _ n => n != 0
  | .amoCas _ _ o fa _ _ _ _ => !fa || o == .acquire || o == .acqRel
  | .famoCas _ o fa _ _ _ _ => !fa || o == .acquire || o == .acqRel
  | .copyHoop _ _ h _ => h != 0
  | _ => true

end Sys2Proof
end

