-- ==== Sys2Proof/Decode.lean ====
section
/-! DEFINITION. Decoding and encoding of slots and bundles, to the bit, from 05 Tables 5.1 to 5.17 and 02 R34 to R38.
A slot is a natural number below 2^48 or 2^64. Decoding is total: every slot value is the no-operation, an
instruction, ILLEGAL_OPCODE or ILLEGAL_BUNDLE. The encoder follows in the same file. -/

namespace Sys2Proof

/-- The bits [lo + n - 1 : lo] of a number (01 R6). -/
def fld (w lo n : Nat) : Nat := w / 2 ^ lo % 2 ^ n

/-- What a slot decodes to. -/
inductive SlotDec where
  | nop
  | illegalOpcode
  | illegalBundle
  | ok (i : Instr)
  deriving DecidableEq, Repr

/-- A candidate whose reserved fields are zero and whose fields are legal, or ILLEGAL_BUNDLE (05 R103). -/
def slotChk (c : Bool) (i : Instr) : SlotDec := if c && i.wf then .ok i else .illegalBundle

/-- As `slotChk`, where a field may have no reading. -/
def slotOpt : Option Instr → SlotDec
  | some i => if i.wf then .ok i else .illegalBundle
  | none => .illegalBundle

def f8 (w lo : Nat) : Fin 8 := Fin.ofNat 8 (fld w lo 3)
def f16 (w lo : Nat) : Fin 16 := Fin.ofNat 16 (fld w lo 4)
def f64 (w lo : Nat) : Fin 64 := Fin.ofNat 64 (fld w lo 6)
def f4 (w lo : Nat) : Fin 4 := Fin.ofNat 4 (fld w lo 2)
def fBit (w lo : Nat) : Bool := fld w lo 1 == 1
def bv (n w lo : Nat) : BitVec n := BitVec.ofNat n (fld w lo n)

/-- Width codes (05 Table 5.2). -/
def decWidth : Nat → Option VWidth
  | 0 => some .w256 | 1 => some .w512 | 2 => some .w1024 | _ => none
/-- Scope codes (05 Table 5.2). -/
def decScope : Nat → Option Scope
  | 0 => some .lane | 1 => some .core | 2 => some .quad | 3 => some .die | 4 => some .module | 5 => some .pod
  | _ => none
/-- Ordering codes (05 Table 5.2). -/
def decOrd : Nat → Option MemOrd
  | 0 => some .relaxed | 1 => some .acquire | 2 => some .release | 3 => some .acqRel | _ => none
/-- Condition codes (05 Table 5.2). -/
def decCond : Nat → Option Cond
  | 0 => some .eq | 1 => some .ne | 2 => some .lt | 3 => some .ge | 4 => some .ltu | 5 => some .geu | _ => none
/-- Atomicity codes (05 Table 5.2). -/
def decAt : Nat → Option Atomicity
  | 0 => some .none | 1 => some .w8 | 2 => some .w16 | _ => none
/-- Type columns (05 Table 5.3). -/
def decType : Nat → Option VType
  | 0 => some .f32 | 1 => some .bf16 | 2 => some .f16 | 3 => some .i32 | 4 => some .i16 | 5 => some .i8
  | 6 => some .ui8 | _ => none
/-- Directions (03 Table 3.4). -/
def decDir : Nat → Option Dir
  | 0 => some .row | 1 => some .col | 2 => some .dia | _ => none
/-- Element sizes (07 Table 7.5). -/
def decESize : Nat → ESize
  | 0 => .e8 | 1 => .e16 | 2 => .e32 | _ => .e64

/-- A 17-bit operand field (03 Table 3.4); none for an illegal form. -/
def decOpnd (x : Nat) : Option Opnd :=
  match fld x 15 2 with
  | 0 => (decDir (fld x 13 2)).map fun dir => .main dir (Fin.ofNat 128 (fld x 6 7)) (f64 x 0)
  | 1 => if fld x 4 11 = 0 then some (.opr (f16 x 0)) else none
  | 2 => if fld x 1 14 = 0 then some (.lat (fBit x 0)) else none
  | _ => some (.imm (bv 15 x 0))

/-- A mask-register form (05 R110). -/
def decK (x : Nat) : Option KReg :=
  if fld x 15 2 = 1 ∧ fld x 3 12 = 0 then some (f8 x 0) else none

/-- An operand-file form where the table asks for one (05 Table 5.4, "opair"). -/
def decO (x : Nat) : Option OReg :=
  if fld x 15 2 = 1 ∧ fld x 4 11 = 0 then some (f16 x 0) else none

/-- A pane row-0 form (05 R110, "pr0"). -/
def decPr0 (x : Nat) : Option PaneNo :=
  if fld x 13 4 = 0 ∧ fld x 0 6 = 0 then some (Fin.ofNat 128 (fld x 6 7)) else none

/-- A conversion control word in a B field (05 Table 5.6). -/
def decCtl (x : Nat) : Option CvtCtl :=
  if fld x 15 2 = 3 then some ⟨bv 3 x 12, bv 6 x 6, bv 6 x 0⟩ else none

/-- A header of a vector slot (02 Table 2.3). -/
def decHdr (v1 : Bool) (w : Nat) : Option VHdr :=
  (decWidth (fld w 11 2)).map fun wd => ⟨v1, wd, f8 w 8⟩

def vD (w : Nat) : Nat := fld w 13 17
def vA (w : Nat) : Nat := fld w 30 17
def vB (w : Nat) : Nat := fld w 47 17

/-- A typed three-operand slot. -/
def dec3 (v1 : Bool) (w : Nat) (mk : VHdr → VType → Opnd → Opnd → Opnd → Instr) : SlotDec :=
  slotOpt (do
    let h ← decHdr v1 w
    let ty ← decType (fld w 0 3)
    let d ← decOpnd (vD w)
    let a ← decOpnd (vA w)
    let b ← decOpnd (vB w)
    return mk h ty d a b)

/-- A typed two-operand slot: the B field is zero. -/
def dec2 (v1 : Bool) (w ty : Nat) (mk : VHdr → VType → Opnd → Opnd → Instr) : SlotDec :=
  slotOpt (do
    let h ← decHdr v1 w
    let t ← decType ty
    let d ← decOpnd (vD w)
    let a ← decOpnd (vA w)
    if vB w = 0 then return mk h t d a else none)

/-- A typed compare. -/
def decCmp (v1 : Bool) (w : Nat) (mk : VHdr → VType → KReg → Opnd → Opnd → Instr) : SlotDec :=
  slotOpt (do
    let h ← decHdr v1 w
    let ty ← decType (fld w 0 3)
    let d ← decK (vD w)
    let a ← decOpnd (vA w)
    let b ← decOpnd (vB w)
    return mk h ty d a b)

/-- A typed lane exchange: B is an immediate. -/
def decLane (v1 : Bool) (w : Nat) (mk : VHdr → VType → Opnd → Opnd → BitVec 15 → Instr) : SlotDec :=
  slotOpt (do
    let h ← decHdr v1 w
    let ty ← decType (fld w 0 3)
    let d ← decOpnd (vD w)
    let a ← decOpnd (vA w)
    if fld (vB w) 15 2 = 3 then return mk h ty d a (bv 15 (vB w) 0) else none)

/-- A three-operand slot without a type column. -/
def decU3 (v1 : Bool) (w : Nat) (mk : VHdr → Opnd → Opnd → Opnd → Instr) : SlotDec :=
  slotOpt (do
    let h ← decHdr v1 w
    let d ← decOpnd (vD w)
    let a ← decOpnd (vA w)
    let b ← decOpnd (vB w)
    return mk h d a b)

/-- A mask-logic slot: width 10b, lane mask 000b (05 R110). -/
def decMaskOp (v1 : Bool) (w : Nat) (mk : Bool → KReg → KReg → KReg → Instr) : SlotDec :=
  slotOpt (do
    let d ← decK (vD w)
    let a ← decK (vA w)
    let b ← decK (vB w)
    if fld w 11 2 = 2 ∧ fld w 8 3 = 0 then return mk v1 d a b else none)

/-- The B field of a park instruction: an immediate with [14:5] zero (05 Table 5.4). -/
def decTag (w : Nat) : Option (Fin 32) :=
  if fld (vB w) 15 2 = 3 ∧ fld (vB w) 5 10 = 0 ∧ fld w 11 2 = 2 ∧ fld w 8 3 = 0
  then some (Fin.ofNat 32 (fld (vB w) 0 5)) else none

/-- A row of the V map with its assigned type columns lo to hi (05 R108): any other column is ILLEGAL_OPCODE. -/
def cols (w lo hi : Nat) (r : SlotDec) : SlotDec :=
  if lo ≤ fld w 0 3 ∧ fld w 0 3 ≤ hi then r else .illegalOpcode

/-- The untyped rows of the V map (05 Table 5.4), opcodes 0x01 to 0x07. -/
def decodeVLow (v1 : Bool) (w : Nat) : SlotDec :=
  match fld w 0 8 with
  | 0x01 => slotOpt (do
      let h ← decHdr v1 w; let d ← decOpnd (vD w); let a ← decOpnd (vA w); let c ← decCtl (vB w)
      return .vcvt h d a c)
  | 0x02 => slotOpt (do
      let h ← decHdr v1 w; let d ← decO (vD w); let a ← decOpnd (vA w); let c ← decCtl (vB w)
      return .vmxq h d a c)
  | 0x03 => slotOpt (do
      let h ← decHdr v1 w; let d ← decOpnd (vD w); let a ← decO (vA w); let c ← decCtl (vB w)
      return .vmxdq h d a c)
  | 0x04 => decU3 v1 w .vrand
  | 0x05 => decU3 v1 w .vredmask
  | 0x06 => slotOpt (do
      let pn ← decPr0 (vA w); let t ← decTag w
      if vD w = 0 then return .panePark v1 pn t else none)
  | 0x07 => slotOpt (do
      let pn ← decPr0 (vD w); let t ← decTag w
      if vA w = 0 then return .paneUnpark v1 pn t else none)
  | _ => .illegalOpcode

/-- The special functions, opcodes 0xD8 + 4f + t (05 Table 5.5). -/
def decodeSfu (v1 : Bool) (w : Nat) : SlotDec :=
  let t := fld w 0 2
  if t = 3 then .illegalOpcode else
  match (fld w 0 8 - 0xD8) / 4 with
  | 0 => dec2 v1 w t .vexp2
  | 1 => dec2 v1 w t .vlog2
  | 2 => dec2 v1 w t .vrcp
  | 3 => dec2 v1 w t .vrsqrt
  | 4 => dec2 v1 w t .vsqrt
  | 5 => dec2 v1 w t .vtanh
  | 6 => dec2 v1 w t .vsigmoid
  | 7 => dec2 v1 w t .vsin2pi
  | 8 => dec2 v1 w t .vcos2pi
  | _ => .illegalOpcode

/-- A vector slot (05 Table 5.4). -/
def decodeV (v1 : Bool) (w : Nat) : SlotDec :=
  if fld w 0 8 = 0 then (if w = 0 then .nop else .illegalBundle)
  else if 0xD8 ≤ fld w 0 8 then decodeSfu v1 w
  else match fld w 3 5 with
  | 0 => decodeVLow v1 w
  | 1 => cols w 0 5 (dec3 v1 w .vadd)
  | 2 => cols w 0 5 (dec3 v1 w .vsub)
  | 3 => cols w 0 5 (dec3 v1 w .vmul)
  | 4 => cols w 0 2 (dec3 v1 w .vfma)
  | 5 => cols w 0 6 (dec3 v1 w .vmin)
  | 6 => cols w 0 6 (dec3 v1 w .vmax)
  | 7 => cols w 3 6 (dec3 v1 w .vadds)
  | 8 => cols w 3 6 (dec3 v1 w .vsubs)
  | 9 => cols w 0 5 (dec2 v1 w (fld w 0 3) .vabs)
  | 10 => cols w 0 6 (decCmp v1 w .vcmpeq)
  | 11 => cols w 0 6 (decCmp v1 w .vcmplt)
  | 12 => cols w 0 6 (decCmp v1 w .vcmple)
  | 13 => cols w 3 5 (dec3 v1 w .vshl)
  | 14 => cols w 3 5 (dec3 v1 w .vshr)
  | 15 => cols w 3 5 (dec3 v1 w .vsar)
  | 16 => cols w 3 5 (dec3 v1 w .vand)
  | 17 => cols w 3 5 (dec3 v1 w .vor)
  | 18 => cols w 3 5 (dec3 v1 w .vxor)
  | 19 => cols w 3 5 (dec2 v1 w (fld w 0 3) .vmov)
  | 20 => cols w 3 5 (decLane v1 w .vbfly)
  | 21 => cols w 3 5 (decLane v1 w .vrot)
  | 22 => cols w 3 5 (decLane v1 w .vbcast)
  | 23 => cols w 0 3 (dec2 v1 w (fld w 0 3) .vredsum)
  | 24 => cols w 0 6 (dec2 v1 w (fld w 0 3) .vredmax)
  | 25 => cols w 0 6 (dec2 v1 w (fld w 0 3) .vredmin)
  | _ => match fld w 0 8 with
    | 0xD0 => decMaskOp v1 w .kand
    | 0xD1 => decMaskOp v1 w .kor
    | 0xD2 => decMaskOp v1 w .kxor
    | 0xD3 => decMaskOp v1 w .kandn
    | 0xD4 => decU3 v1 w .vperm
    | _ => .illegalOpcode

/-- The A slot (05 Tables 5.12, 5.13). -/
def decodeA (w : Nat) : SlotDec :=
  let p := f8 w 8
  let d := f64 w 11
  let a := f64 w 17
  let b := f64 w 23
  let md := fld w 29 4
  let r0 := fld w 33 15 == 0
  let r0b := r0 && md == 0
  let b0 := fld w 23 6 == 0
  let imm := bv 25 w 23
  let ab := fld w 41 7 == 0
  match fld w 0 8 with
  | 0x00 => if w = 0 then .nop else .illegalBundle
  | 0x01 => slotChk r0b (.add p d a b)
  | 0x02 => slotChk r0b (.sub p d a b)
  | 0x03 => slotChk r0b (.and p d a b)
  | 0x04 => slotChk r0b (.or p d a b)
  | 0x05 => slotChk r0b (.xor p d a b)
  | 0x06 => slotChk r0b (.andn p d a b)
  | 0x07 => slotChk r0b (.shl p d a b)
  | 0x08 => slotChk r0b (.shr p d a b)
  | 0x09 => slotChk r0b (.sar p d a b)
  | 0x0A => slotChk r0b (.min p d a b)
  | 0x0B => slotChk r0b (.max p d a b)
  | 0x0C => slotChk r0 (.lea p d a b (f16 w 29))
  | 0x0D => slotChk (r0 && fld w 32 1 == 0) (.sel p d a b (f8 w 29))
  | 0x10 => slotChk r0b (.mul p d a b)
  | 0x11 => slotChk r0b (.mulh p d a b)
  | 0x18 => slotOpt (do
      let c ← decCond md
      if r0 && fld w 14 3 == 0 then return .cmp p c (f8 w 11) a b else none)
  | 0x20 => slotChk true (.addi p d a imm)
  | 0x21 => slotChk true (.andi p d a imm)
  | 0x22 => slotChk true (.ori p d a imm)
  | 0x23 => slotChk true (.xori p d a imm)
  | 0x24 => slotChk (fld w 29 19 == 0) (.shli p d a (f64 w 23))
  | 0x25 => slotChk (fld w 29 19 == 0) (.shri p d a (f64 w 23))
  | 0x26 => slotChk (fld w 29 19 == 0) (.sari p d a (f64 w 23))
  | 0x27 => slotChk (fld w 17 6 == 0) (.li p d imm)
  | 0x28 => slotChk true (.lcat p d a imm)
  | 0x30 => slotChk (fld w 14 3 == 0) (.cmpiEq p (f8 w 11) a imm)
  | 0x31 => slotChk (fld w 14 3 == 0) (.cmpiNe p (f8 w 11) a imm)
  | 0x32 => slotChk (fld w 14 3 == 0) (.cmpiLt p (f8 w 11) a imm)
  | 0x33 => slotChk (fld w 14 3 == 0) (.cmpiGe p (f8 w 11) a imm)
  | 0x34 => slotChk (fld w 14 3 == 0) (.cmpiLtu p (f8 w 11) a imm)
  | 0x35 => slotChk (fld w 14 3 == 0) (.cmpiGeu p (f8 w 11) a imm)
  | 0x38 => slotChk (ab && b0) (.bfx p d a (f64 w 29) (f64 w 35))
  | 0x39 => slotChk (ab && b0) (.bfxu p d a (f64 w 29) (f64 w 35))
  | 0x3A => slotChk ab (.bfi p d a b (f64 w 29) (f64 w 35))
  | 0x3C => slotChk (r0b && b0) (.clz p d a)
  | 0x3D => slotChk (r0b && b0) (.popc p d a)
  | 0x40 => slotChk (r0b && fld w 14 3 == 0 && fld w 20 3 == 0 && fld w 26 3 == 0) (.pand p (f8 w 11) (f8 w 17) (f8 w 23))
  | 0x41 => slotChk (r0b && fld w 14 3 == 0 && fld w 20 3 == 0 && fld w 26 3 == 0) (.por p (f8 w 11) (f8 w 17) (f8 w 23))
  | 0x42 => slotChk (r0b && fld w 14 3 == 0 && fld w 20 3 == 0 && fld w 26 3 == 0) (.pxor p (f8 w 11) (f8 w 17) (f8 w 23))
  | 0x48 => slotChk (r0b && b0 && fld w 14 3 == 0) (.kput p (f8 w 11) a)
  | 0x49 => slotChk (r0b && b0 && fld w 20 3 == 0) (.kget p d (f8 w 17))
  | 0x50 => slotChk (r0 && fld w 31 2 == 0 && fld w 21 2 == 0) (.oget p (decESize (fld w 29 2)) d (f16 w 17) b)
  | 0x51 => slotChk (r0 && fld w 31 2 == 0 && fld w 15 2 == 0) (.oput p (decESize (fld w 29 2)) (f16 w 11) a b)
  | _ => .illegalOpcode

/-- The C slot (05 Tables 5.10, 5.11). -/
def decodeC (w : Nat) : SlotDec :=
  let p := f8 w 8
  let d := f64 w 11
  let a := f64 w 17
  let off := bv 25 w 11
  let hi0 := fld w 42 6 == 0
  let d0 := fld w 11 6 == 0
  let a0 := fld w 17 6 == 0
  let cr := hi0 && fld w 36 6 == 0 && fld w 23 13 == 0
  let cc := hi0 && fld w 35 7 == 0
  let num := bv 12 w 23
  let sel := fld w 39 3
  let imm := bv 16 w 23
  let i0 := fld w 23 16 == 0
  match fld w 0 8 with
  | 0x00 => if w = 0 then .nop else .illegalBundle
  | 0x01 => slotChk (hi0 && fld w 36 6 == 0) (.br p off)
  | 0x02 => slotChk hi0 (.call p (f64 w 36) off)
  | 0x03 => slotChk (cr && d0) (.jmp p a)
  | 0x04 => slotChk cr (.callr p d a)
  | 0x05 => slotChk hi0 (.loop p (f64 w 36) off)
  | 0x06 => slotChk true (.loopi p (bv 12 w 36) off)
  | 0x08 => slotChk (fld w 43 5 == 0) (.waitc p (bv 8 w 11) (bv 8 w 19) (bv 8 w 27) (bv 8 w 35))
  | 0x10 => slotChk (cc && a0) (.csrr p num d)
  | 0x11 => slotChk (cc && d0) (.csrw p num a)
  | 0x12 => slotChk cc (.csrs p num a d)
  | 0x13 => slotChk cc (.csrc p num a d)
  | 0x18 => slotOpt (do
      let sc ← decScope sel
      if hi0 && i0 && a0 && d0 then return .bar p sc else none)
  | 0x20 => slotChk (hi0 && sel == 0 && a0 && d0) (.brk p imm)
  | 0x21 => slotChk (hi0 && sel == 0 && i0 && a0 && d0) (.wheelEnd p)
  | 0x22 => slotChk (hi0 && sel == 0 && d0 && fld w 24 15 == 0) (if fBit w 23 then .wheelSpawnCore p a else .wheelSpawn p a)
  | 0x28 => slotChk (hi0 && sel == 0 && d0) (.semSig p a imm)
  | 0x29 => slotChk (hi0 && sel == 0 && d0) (.semWait p a imm)
  | 0x2A => slotChk (hi0 && sel == 0 && i0) (.semTest p d a)
  | 0x30 => slotChk (hi0 && sel == 0 && i0 && a0 && d0) (.tret p)
  | 0x31 => match sel with
    | 0 => slotChk (hi0 && fld w 29 10 == 0 && a0 && d0) (.xlatInvRange p (f64 w 23))
    | 1 => slotChk (hi0 && i0 && d0) (.xlatInvPage p a)
    | 2 => slotChk (hi0 && i0 && a0 && d0) (.xlatInvVat p)
    | _ => .illegalBundle
  | 0x32 => slotChk (hi0 && sel == 0 && i0 && d0) (.ssave p a)
  | 0x33 => slotChk (hi0 && sel == 0 && i0 && d0) (.srest p a)
  | _ => .illegalOpcode

/-- The E slot (05 Tables 5.7 to 5.9). -/
def decodeE (w : Nat) : SlotDec :=
  let p := f8 w 8
  let c : EcHdr := ⟨bv 16 w 48, f4 w 46, f64 w 40, f64 w 34⟩
  let b := f64 w 28
  let b0 := fld w 28 6 == 0
  let bank := fBit w 27
  let x26 := fBit w 26
  let snap := fBit w 20
  let z := fld w 11 9 == 0
  let z21 := fld w 21 1 == 0
  let z2522 := fld w 22 4 == 0
  let aux0 := fld w 11 17 == 0
  let d := f64 w 11
  let a := f64 w 17
  let d0 := fld w 11 6 == 0
  let a0 := fld w 17 6 == 0
  let et := fld w 24 40 == 0
  let et0 := et && fld w 23 1 == 0
  let obj := f64 w 29
  let eh := fld w 35 29 == 0
  let hb := f64 w 23
  let hb0 := fld w 23 6 == 0
  let obj0 := fld w 29 6 == 0
  match fld w 0 8 with
  | 0x00 => if w = 0 then .nop else .illegalBundle
  | 0x01 => slotChk (fld w 11 53 == 0) (.pressLease p)
  | 0x02 => slotChk (fld w 11 53 == 0) (.pressFree p)
  | 0x03 => slotChk (fld w 12 52 == 0) (.pressClaim p (fBit w 11))
  | 0x04 => slotChk (fld w 12 52 == 0) (.pressRelease p (fBit w 11))
  | 0x08 => slotChk (fld w 26 1 == 0 && z2522 && z21 && z)
      (if bank then .pressStatWest p c b snap else .pressStatNorth p c b snap)
  | 0x09 => slotChk (z2522 && z21 && z) (.pressRun p c b bank x26 snap)
  | 0x0A => slotChk (z2522 && z21 && fld w 20 1 == 0 && z) (.pressDrain p c b bank x26)
  | 0x0B => slotChk (fld w 26 1 == 0 && z2522 && z21 && fld w 20 1 == 0 && z && b0) (.pressZero p c bank)
  | 0x10 => slotChk (b0 && z)
      (if fBit w 21 then .copyBb p c (f64 w 22) snap
       else if fld w 22 6 = 0 then .copy p c snap else .copyHoop p c (f64 w 22) snap)
  | 0x18 => slotChk (aux0 && b0) (.coll p c)
  | 0x19 => slotChk aux0 (.caveUpd p c b)
  | 0x20 => slotChk et (if fBit w 23 then .embWaitTrap p d a else .embWait p d a)
  | 0x21 => slotChk et0 (.embTest p d a)
  | 0x22 => slotChk et0 (.embCancel p d a)
  | 0x23 => slotChk et0 (.embDetach p d a)
  | 0x24 => slotChk (fld w 23 25 == 0 && a0) (.embAdopt p d (bv 16 w 48))
  | 0x25 => slotChk (fld w 26 38 == 0 && fld w 23 1 == 0) (.embPrio p d a (f4 w 24))
  | 0x26 => slotChk et0 (.embInfo p d a)
  | 0x27 => slotChk et0 (.embAfter p d a)
  | 0x30 => slotChk (eh && d0) (.hoopInit p obj a hb)
  | 0x31 => slotChk (eh && hb0 && a0) (.hoopAwait p d obj)
  | 0x32 => slotChk (eh && hb0 && a0 && d0) (.hoopRel p obj)
  | 0x33 => slotChk (eh && hb0 && a0) (.hoopQuery p d obj)
  | 0x38 => slotChk (eh && hb0) (.bbExpect p d obj a)
  | 0x39 => slotChk (eh && hb0 && d0) (.bbArrive p obj a)
  | 0x3A => slotChk (eh && hb0 && d0) (.bbWait p obj a)
  | 0x3B => slotChk (eh && hb0 && a0) (.bbQuery p d obj)
  | 0x40 => slotChk (eh && obj0 && hb0) (.moldGet p d a)
  | 0x41 => slotChk (eh && obj0 && hb0 && d0) (.moldPass p a)
  | 0x42 => slotChk (eh && obj0 && hb0 && d0) (.moldFree p a)
  | _ => .illegalOpcode

/-- The failure ordering of a compare-and-swap (05 R122): 00b relaxed, 01b acquire; anything else is illegal. -/
def decFail : Nat → Option Bool
  | 0 => some false | 1 => some true | _ => none

/-- An LA slot without failure ordering (05 Table 5.14). -/
def decLa (w : Nat) (mk : PReg → Scope → MemOrd → Bool → SReg → SReg → SReg → Instr) : SlotDec :=
  slotOpt (do
    let sc ← decScope (fld w 39 3)
    let o ← decOrd (fld w 37 2)
    if fld w 42 6 == 0 && fld w 35 2 == 0 && fld w 34 1 == 0 && fld w 29 4 == 0
    then return mk (f8 w 8) sc o (fBit w 33) (f64 w 11) (f64 w 17) (f64 w 23) else none)

/-- A compare-and-swap slot. -/
def decLaCas (w : Nat) (mk : PReg → Scope → MemOrd → Bool → Bool → SReg → SReg → SReg → Instr) : SlotDec :=
  slotOpt (do
    let sc ← decScope (fld w 39 3)
    let o ← decOrd (fld w 37 2)
    let fa ← decFail (fld w 35 2)
    if fld w 42 6 == 0 && fld w 34 1 == 0 && fld w 29 4 == 0
    then return mk (f8 w 8) sc o fa (fBit w 33) (f64 w 11) (f64 w 17) (f64 w 23) else none)

/-- A far atomic: LA with scope 000b. -/
def decFa (w : Nat) (mk : PReg → MemOrd → Bool → SReg → SReg → SReg → Instr) : SlotDec :=
  if fld w 39 3 = 0 then decLa w (fun p _ o w8 d a b => mk p o w8 d a b) else .illegalBundle

/-- A far form in LM format (18 R391): size in [38:37]. -/
def decFar (w : Nat) (mk : PReg → Bool → SReg → SReg → BitVec 14 → Instr) : SlotDec :=
  slotChk (fld w 39 9 == 0 && fld w 38 1 == 0) (mk (f8 w 8) (fBit w 37) (f64 w 11) (f64 w 17) (bv 14 w 23))

/-- A vector load or store. -/
def decVm (w : Nat) (mk : PReg → VWidth → Atomicity → OReg → SReg → BitVec 14 → Instr) : SlotDec :=
  slotOpt (do
    let at_ ← decAt (fld w 39 2)
    let wd ← decWidth (fld w 37 2)
    if fld w 41 7 == 0 && fld w 15 2 == 0
    then return mk (f8 w 8) wd at_ (f16 w 11) (f64 w 17) (bv 14 w 23) else none)

/-- A pane-row load or store. -/
def decPm (w : Nat) (mk : PReg → VWidth → Atomicity → PaneNo → Fin 64 → SReg → BitVec 14 → Instr) : SlotDec :=
  slotOpt (do
    let at_ ← decAt (fld w 39 2)
    let wd ← decWidth (fld w 37 2)
    return mk (f8 w 8) wd at_ (Fin.ofNat 128 (fld w 41 7)) (f64 w 11) (f64 w 17) (bv 14 w 23))

/-- An MX load or store. -/
def decMx (w : Nat) (mk : PReg → Bool → VWidth → OReg → SReg → BitVec 14 → Instr) : SlotDec :=
  slotOpt (do
    let wd ← decWidth (fld w 37 2)
    if fld w 41 7 == 0 && fld w 39 1 == 0 && fld w 15 2 == 0
    then return mk (f8 w 8) (fBit w 40) wd (f16 w 11) (f64 w 17) (bv 14 w 23) else none)

/-- The LD slot (05 Table 5.15). -/
def decodeLd (w : Nat) : SlotDec :=
  let p := f8 w 8
  let d := f64 w 11
  let a := f64 w 17
  let off := bv 14 w 23
  let lm := fld w 37 11 == 0
  let d0 := fld w 11 6 == 0
  match fld w 0 8 with
  | 0x00 => if w = 0 then .nop else .illegalBundle
  | 0x01 => slotChk lm (.ldb p d a off)
  | 0x02 => slotChk lm (.ldbu p d a off)
  | 0x03 => slotChk lm (.ldh p d a off)
  | 0x04 => slotChk lm (.ldhu p d a off)
  | 0x05 => slotChk lm (.ldw p d a off)
  | 0x06 => slotChk lm (.ldwu p d a off)
  | 0x07 => slotChk (fld w 40 8 == 0 && fld w 37 2 == 0) (.ldd p (fBit w 39) d a off)
  | 0x08 => decVm w .ldv
  | 0x09 => decPm w .ldp
  | 0x0A => decMx w .ldmx
  | 0x10 => slotChk (lm && d0) (.pref p a off)
  | 0x11 => slotChk (lm && d0) (.clInv p a off)
  | 0x18 => decLa w .amoAdd
  | 0x19 => decLa w .amoSwap
  | 0x1A => decLaCas w .amoCas
  | 0x1B => decLa w .amoAnd
  | 0x1C => decLa w .amoOr
  | 0x1D => decLa w .amoXor
  | 0x1E => decLa w .amoMax
  | 0x1F => decLa w .amoMin
  | 0x20 => decFar w .fld
  | 0x28 => decFa w .famoAdd
  | 0x29 => decFa w .famoSwap
  | 0x2A => if fld w 39 3 = 0 then decLaCas w (fun p _ o fa w8 d a b => .famoCas p o fa w8 d a b) else .illegalBundle
  | 0x2B => decFa w .famoAnd
  | 0x2C => decFa w .famoOr
  | 0xFE => if w = 0xFE then .ok .mark else .illegalBundle
  | _ => .illegalOpcode

/-- The ST slot (05 Table 5.16). -/
def decodeSt (w : Nat) : SlotDec :=
  let p := f8 w 8
  let d := f64 w 11
  let a := f64 w 17
  let off := bv 14 w 23
  let lm := fld w 37 11 == 0
  match fld w 0 8 with
  | 0x00 => if w = 0 then .nop else .illegalBundle
  | 0x01 => slotChk lm (.stb p d a off)
  | 0x02 => slotChk lm (.sth p d a off)
  | 0x03 => slotChk lm (.stw p d a off)
  | 0x04 => slotChk (fld w 40 8 == 0 && fld w 37 2 == 0) (.std p (fBit w 39) d a off)
  | 0x08 => decVm w .stv
  | 0x09 => decPm w .stp
  | 0x0A => decMx w .stmx
  | 0x10 => slotOpt (do
      let sc ← decScope (fld w 39 3)
      let o ← decOrd (fld w 37 2)
      if fld w 42 6 == 0 && fld w 11 26 == 0 then return .fence p sc o else none)
  | 0x11 => slotChk (lm && fld w 11 6 == 0) (.clZero p a off)
  | 0x20 => decFar w .fst
  | 0x21 => decFar w .ffenceFlag
  | 0xFE => if w = 0xFE then .ok .mark else .illegalBundle
  | _ => .illegalOpcode

/-! ## Bundles -/

/-- The raw value of a slot of a bundle, by slot number (02 Table 2.2). -/
def slotBits (b : Nat) : Nat → Nat
  | 0 => fld b 0 64 | 1 => fld b 64 64 | 2 => fld b 128 64 | 3 => fld b 192 48 | 4 => fld b 240 48
  | 5 => fld b 288 48 | _ => fld b 336 48

/-- One slot, decoded (02 R35). -/
def decodeSlot (n w : Nat) : SlotDec :=
  match n with
  | 0 => decodeV false w | 1 => decodeV true w | 2 => decodeE w | 3 => decodeC w | 4 => decodeA w
  | 5 => decodeLd w | _ => decodeSt w

/-- Lane bits that the width field of a raw vector slot claims: 0 for an all-zero slot (02 R38). -/
def rawWidth (w : Nat) : Nat :=
  if w = 0 then 0 else match decWidth (fld w 11 2) with | some x => x.bits | none => 0

/-- Two non-zero vector slots whose widths add up to more than 1,024 bits (02 R38, R41). -/
def widthClash (b : Nat) : Bool :=
  slotBits b 0 != 0 && slotBits b 1 != 0 && decide (1024 < rawWidth (slotBits b 0) + rawWidth (slotBits b 1))

/-- A lone mark, or a mark beside another LD or ST instruction (02 Table 2.5, R41). -/
def markClash (b : Nat) : Bool :=
  (fld (slotBits b 5) 0 8 == 0xFE) != (fld (slotBits b 6) 0 8 == 0xFE)

/-- A decoded bundle: the instructions of its slots by slot number, or an illegality with its slot
(02 R40, R41: ILLEGAL_OPCODE before ILLEGAL_BUNDLE, the lowest slot first). -/
inductive BundleDec where
  | illegalOpcode (slot opcode : Nat)
  | illegalBundle (slot : Nat)
  | ok (slots : List (Nat × Instr))
  deriving DecidableEq, Repr

/-- Whether a slot is ILLEGAL_BUNDLE by its own fields or as the lower slot of a clashing pair. -/
def slotBad (b n : Nat) : Bool :=
  decodeSlot n (slotBits b n) == .illegalBundle || (n == 0 && widthClash b) || (n == 5 && markClash b)

/-- The instructions of a legal bundle; a mark stands once, for both of its slots (06 R129). -/
def bundleSlots (b : Nat) : List (Nat × Instr) :=
  (List.range 7).filterMap fun n =>
    match decodeSlot n (slotBits b n) with
    | .ok i => if n == 6 && i == .mark then none else some (n, i)
    | _ => none

/-- A bundle, decoded (02 R40, R41). -/
def decodeBundle (b : Nat) : BundleDec :=
  match (List.range 7).find? fun n => decodeSlot n (slotBits b n) == .illegalOpcode with
  | some n => .illegalOpcode n (fld (slotBits b n) 0 8)
  | none => match (List.range 7).find? fun n => slotBad b n with
    | some n => .illegalBundle n
    | none => .ok (bundleSlots b)

/-! ## The encoder -/

/-- Width codes. -/
def VWidth.enc : VWidth → Nat | .w256 => 0 | .w512 => 1 | .w1024 => 2
/-- Scope codes. -/
def Scope.enc : Scope → Nat | .lane => 0 | .core => 1 | .quad => 2 | .die => 3 | .module => 4 | .pod => 5
/-- Ordering codes. -/
def MemOrd.enc : MemOrd → Nat | .relaxed => 0 | .acquire => 1 | .release => 2 | .acqRel => 3
/-- Condition codes. -/
def Cond.enc : Cond → Nat | .eq => 0 | .ne => 1 | .lt => 2 | .ge => 3 | .ltu => 4 | .geu => 5
/-- Atomicity codes. -/
def Atomicity.enc : Atomicity → Nat | .none => 0 | .w8 => 1 | .w16 => 2
/-- Type columns. -/
def VType.enc : VType → Nat | .f32 => 0 | .bf16 => 1 | .f16 => 2 | .i32 => 3 | .i16 => 4 | .i8 => 5 | .ui8 => 6
/-- Directions. -/
def Dir.enc : Dir → Nat | .row => 0 | .col => 1 | .dia => 2
/-- Element sizes. -/
def ESize.enc : ESize → Nat | .e8 => 0 | .e16 => 1 | .e32 => 2 | .e64 => 3

/-- A 17-bit operand field. -/
def Opnd.enc : Opnd → Nat
  | .main dir pn ix => dir.enc * 2 ^ 13 + pn.val * 2 ^ 6 + ix.val
  | .opr o => 2 ^ 15 + o.val
  | .lat l => 2 * 2 ^ 15 + l.toNat
  | .imm v => 3 * 2 ^ 15 + v.toNat

/-- A mask or pair form of an operand field. -/
def encReg (n : Nat) : Nat := 2 ^ 15 + n

/-- A vector slot from its parts (02 Table 2.3). -/
def encV (op : Nat) (h : VHdr) (d a b : Nat) : Nat :=
  op + h.mask.val * 2 ^ 8 + h.width.enc * 2 ^ 11 + d * 2 ^ 13 + a * 2 ^ 30 + b * 2 ^ 47

/-- A full-width vector slot with lane mask 000b (05 R110). -/
def encVk (op d a b : Nat) : Nat := op + 2 * 2 ^ 11 + d * 2 ^ 13 + a * 2 ^ 30 + b * 2 ^ 47

/-- A control word. -/
def CvtCtl.enc (c : CvtCtl) : Nat := 3 * 2 ^ 15 + c.rsel.toNat * 2 ^ 12 + c.src.toNat * 2 ^ 6 + c.dst.toNat

/-- An AR slot. -/
def encAr (op : Nat) (p : PReg) (d a b md : Nat) : Nat :=
  op + p.val * 2 ^ 8 + d * 2 ^ 11 + a * 2 ^ 17 + b * 2 ^ 23 + md * 2 ^ 29
/-- An AI slot. -/
def encAi (op : Nat) (p : PReg) (d a imm : Nat) : Nat := op + p.val * 2 ^ 8 + d * 2 ^ 11 + a * 2 ^ 17 + imm * 2 ^ 23
/-- An AB slot. -/
def encAb (op : Nat) (p : PReg) (d a b pos len1 : Nat) : Nat :=
  op + p.val * 2 ^ 8 + d * 2 ^ 11 + a * 2 ^ 17 + b * 2 ^ 23 + pos * 2 ^ 29 + len1 * 2 ^ 35
/-- A CB or CL slot. -/
def encCb (op : Nat) (p : PReg) (off hi : Nat) : Nat := op + p.val * 2 ^ 8 + off * 2 ^ 11 + hi * 2 ^ 36
/-- A CC slot. -/
def encCc (op : Nat) (p : PReg) (d a n : Nat) : Nat := op + p.val * 2 ^ 8 + d * 2 ^ 11 + a * 2 ^ 17 + n * 2 ^ 23
/-- A CS slot. -/
def encCs (op : Nat) (p : PReg) (d a imm sel : Nat) : Nat :=
  op + p.val * 2 ^ 8 + d * 2 ^ 11 + a * 2 ^ 17 + imm * 2 ^ 23 + sel * 2 ^ 39
/-- An EC slot. -/
def encEc (op : Nat) (p : PReg) (c : EcHdr) (b aux : Nat) : Nat :=
  op + p.val * 2 ^ 8 + aux * 2 ^ 11 + b * 2 ^ 28 + c.a.val * 2 ^ 34 + c.d.val * 2 ^ 40 + c.prio.val * 2 ^ 46 + c.name.toNat * 2 ^ 48
/-- The aux field of an EC slot by its bits [27], [26], [25:22], [21], [20] (05 Table 5.8). -/
def encAux (x27 x26 : Bool) (x21 x20 : Bool) : Nat :=
  x20.toNat * 2 ^ 9 + x21.toNat * 2 ^ 10 + x26.toNat * 2 ^ 15 + x27.toNat * 2 ^ 16
/-- The aux field of a copy. -/
def encAuxCopy (target : Nat) (bb snap : Bool) : Nat := snap.toNat * 2 ^ 9 + bb.toNat * 2 ^ 10 + target * 2 ^ 11
/-- An ET slot. -/
def encEt (op : Nat) (p : PReg) (d a x23 prio name : Nat) : Nat :=
  op + p.val * 2 ^ 8 + d * 2 ^ 11 + a * 2 ^ 17 + x23 * 2 ^ 23 + prio * 2 ^ 24 + name * 2 ^ 48
/-- An EH slot. -/
def encEh (op : Nat) (p : PReg) (d a b obj : Nat) : Nat :=
  op + p.val * 2 ^ 8 + d * 2 ^ 11 + a * 2 ^ 17 + b * 2 ^ 23 + obj * 2 ^ 29
/-- An LM, LP or LX slot. -/
def encLm (op : Nat) (p : PReg) (d a off wd at_ hi : Nat) : Nat :=
  op + p.val * 2 ^ 8 + d * 2 ^ 11 + a * 2 ^ 17 + off * 2 ^ 23 + wd * 2 ^ 37 + at_ * 2 ^ 39 + hi * 2 ^ 41
/-- An LA slot. -/
def encLa (op : Nat) (p : PReg) (sc o fa : Nat) (w8 : Bool) (d a b : Nat) : Nat :=
  op + p.val * 2 ^ 8 + d * 2 ^ 11 + a * 2 ^ 17 + b * 2 ^ 23 + w8.toNat * 2 ^ 33 + fa * 2 ^ 35 + o * 2 ^ 37 + sc * 2 ^ 39

/-- The slot number and the slot value of an instruction; none for a machine event. A mark's value stands in both
of its slots. -/
def Instr.encSlot : Instr → Option (Nat × Nat)
  | .vadd h ty d a b => some (h.v1.toNat, encV (0x08 + ty.enc) h d.enc a.enc b.enc)
  | .vsub h ty d a b => some (h.v1.toNat, encV (0x10 + ty.enc) h d.enc a.enc b.enc)
  | .vmul h ty d a b => some (h.v1.toNat, encV (0x18 + ty.enc) h d.enc a.enc b.enc)
  | .vfma h ty d a b => some (h.v1.toNat, encV (0x20 + ty.enc) h d.enc a.enc b.enc)
  | .vmin h ty d a b => some (h.v1.toNat, encV (0x28 + ty.enc) h d.enc a.enc b.enc)
  | .vmax h ty d a b => some (h.v1.toNat, encV (0x30 + ty.enc) h d.enc a.enc b.enc)
  | .vadds h ty d a b => some (h.v1.toNat, encV (0x38 + ty.enc) h d.enc a.enc b.enc)
  | .vsubs h ty d a b => some (h.v1.toNat, encV (0x40 + ty.enc) h d.enc a.enc b.enc)
  | .vabs h ty d a => some (h.v1.toNat, encV (0x48 + ty.enc) h d.enc a.enc 0)
  | .vcmpeq h ty d a b => some (h.v1.toNat, encV (0x50 + ty.enc) h (encReg d.val) a.enc b.enc)
  | .vcmplt h ty d a b => some (h.v1.toNat, encV (0x58 + ty.enc) h (encReg d.val) a.enc b.enc)
  | .vcmple h ty d a b => some (h.v1.toNat, encV (0x60 + ty.enc) h (encReg d.val) a.enc b.enc)
  | .vshl h ty d a b => some (h.v1.toNat, encV (0x68 + ty.enc) h d.enc a.enc b.enc)
  | .vshr h ty d a b => some (h.v1.toNat, encV (0x70 + ty.enc) h d.enc a.enc b.enc)
  | .vsar h ty d a b => some (h.v1.toNat, encV (0x78 + ty.enc) h d.enc a.enc b.enc)
  | .vand h ty d a b => some (h.v1.toNat, encV (0x80 + ty.enc) h d.enc a.enc b.enc)
  | .vor h ty d a b => some (h.v1.toNat, encV (0x88 + ty.enc) h d.enc a.enc b.enc)
  | .vxor h ty d a b => some (h.v1.toNat, encV (0x90 + ty.enc) h d.enc a.enc b.enc)
  | .vmov h ty d a => some (h.v1.toNat, encV (0x98 + ty.enc) h d.enc a.enc 0)
  | .vbfly h ty d a m => some (h.v1.toNat, encV (0xA0 + ty.enc) h d.enc a.enc (3 * 2 ^ 15 + m.toNat))
  | .vrot h ty d a m => some (h.v1.toNat, encV (0xA8 + ty.enc) h d.enc a.enc (3 * 2 ^ 15 + m.toNat))
  | .vbcast h ty d a m => some (h.v1.toNat, encV (0xB0 + ty.enc) h d.enc a.enc (3 * 2 ^ 15 + m.toNat))
  | .vredsum h ty d a => some (h.v1.toNat, encV (0xB8 + ty.enc) h d.enc a.enc 0)
  | .vredmax h ty d a => some (h.v1.toNat, encV (0xC0 + ty.enc) h d.enc a.enc 0)
  | .vredmin h ty d a => some (h.v1.toNat, encV (0xC8 + ty.enc) h d.enc a.enc 0)
  | .kand v1 d a b => some (v1.toNat, encVk 0xD0 (encReg d.val) (encReg a.val) (encReg b.val))
  | .kor v1 d a b => some (v1.toNat, encVk 0xD1 (encReg d.val) (encReg a.val) (encReg b.val))
  | .kxor v1 d a b => some (v1.toNat, encVk 0xD2 (encReg d.val) (encReg a.val) (encReg b.val))
  | .kandn v1 d a b => some (v1.toNat, encVk 0xD3 (encReg d.val) (encReg a.val) (encReg b.val))
  | .vperm h d a b => some (h.v1.toNat, encV 0xD4 h d.enc a.enc b.enc)
  | .vredmask h d a b => some (h.v1.toNat, encV 0x05 h d.enc a.enc b.enc)
  | .vrand h d a b => some (h.v1.toNat, encV 0x04 h d.enc a.enc b.enc)
  | .vcvt h d a c => some (h.v1.toNat, encV 0x01 h d.enc a.enc c.enc)
  | .vmxq h d a c => some (h.v1.toNat, encV 0x02 h (encReg d.val) a.enc c.enc)
  | .vmxdq h d a c => some (h.v1.toNat, encV 0x03 h d.enc (encReg a.val) c.enc)
  | .panePark v1 pn t => some (v1.toNat, encVk 0x06 0 (pn.val * 2 ^ 6) (3 * 2 ^ 15 + t.val))
  | .paneUnpark v1 pn t => some (v1.toNat, encVk 0x07 (pn.val * 2 ^ 6) 0 (3 * 2 ^ 15 + t.val))
  | .vexp2 h ty d a => some (h.v1.toNat, encV (0xD8 + ty.enc) h d.enc a.enc 0)
  | .vlog2 h ty d a => some (h.v1.toNat, encV (0xDC + ty.enc) h d.enc a.enc 0)
  | .vrcp h ty d a => some (h.v1.toNat, encV (0xE0 + ty.enc) h d.enc a.enc 0)
  | .vrsqrt h ty d a => some (h.v1.toNat, encV (0xE4 + ty.enc) h d.enc a.enc 0)
  | .vsqrt h ty d a => some (h.v1.toNat, encV (0xE8 + ty.enc) h d.enc a.enc 0)
  | .vtanh h ty d a => some (h.v1.toNat, encV (0xEC + ty.enc) h d.enc a.enc 0)
  | .vsigmoid h ty d a => some (h.v1.toNat, encV (0xF0 + ty.enc) h d.enc a.enc 0)
  | .vsin2pi h ty d a => some (h.v1.toNat, encV (0xF4 + ty.enc) h d.enc a.enc 0)
  | .vcos2pi h ty d a => some (h.v1.toNat, encV (0xF8 + ty.enc) h d.enc a.enc 0)
  | .add p d a b => some (4, encAr 0x01 p d.val a.val b.val 0)
  | .sub p d a b => some (4, encAr 0x02 p d.val a.val b.val 0)
  | .and p d a b => some (4, encAr 0x03 p d.val a.val b.val 0)
  | .or p d a b => some (4, encAr 0x04 p d.val a.val b.val 0)
  | .xor p d a b => some (4, encAr 0x05 p d.val a.val b.val 0)
  | .andn p d a b => some (4, encAr 0x06 p d.val a.val b.val 0)
  | .shl p d a b => some (4, encAr 0x07 p d.val a.val b.val 0)
  | .shr p d a b => some (4, encAr 0x08 p d.val a.val b.val 0)
  | .sar p d a b => some (4, encAr 0x09 p d.val a.val b.val 0)
  | .min p d a b => some (4, encAr 0x0A p d.val a.val b.val 0)
  | .max p d a b => some (4, encAr 0x0B p d.val a.val b.val 0)
  | .lea p d a b sh => some (4, encAr 0x0C p d.val a.val b.val sh.val)
  | .sel p d a b q => some (4, encAr 0x0D p d.val a.val b.val q.val)
  | .mul p d a b => some (4, encAr 0x10 p d.val a.val b.val 0)
  | .mulh p d a b => some (4, encAr 0x11 p d.val a.val b.val 0)
  | .clz p d a => some (4, encAr 0x3C p d.val a.val 0 0)
  | .popc p d a => some (4, encAr 0x3D p d.val a.val 0 0)
  | .addi p d a imm => some (4, encAi 0x20 p d.val a.val imm.toNat)
  | .andi p d a imm => some (4, encAi 0x21 p d.val a.val imm.toNat)
  | .ori p d a imm => some (4, encAi 0x22 p d.val a.val imm.toNat)
  | .xori p d a imm => some (4, encAi 0x23 p d.val a.val imm.toNat)
  | .shli p d a n => some (4, encAi 0x24 p d.val a.val n.val)
  | .shri p d a n => some (4, encAi 0x25 p d.val a.val n.val)
  | .sari p d a n => some (4, encAi 0x26 p d.val a.val n.val)
  | .li p d imm => some (4, encAi 0x27 p d.val 0 imm.toNat)
  | .lcat p d a imm => some (4, encAi 0x28 p d.val a.val imm.toNat)
  | .cmp p c d a b => some (4, encAr 0x18 p d.val a.val b.val c.enc)
  | .cmpiEq p d a imm => some (4, encAi 0x30 p d.val a.val imm.toNat)
  | .cmpiNe p d a imm => some (4, encAi 0x31 p d.val a.val imm.toNat)
  | .cmpiLt p d a imm => some (4, encAi 0x32 p d.val a.val imm.toNat)
  | .cmpiGe p d a imm => some (4, encAi 0x33 p d.val a.val imm.toNat)
  | .cmpiLtu p d a imm => some (4, encAi 0x34 p d.val a.val imm.toNat)
  | .cmpiGeu p d a imm => some (4, encAi 0x35 p d.val a.val imm.toNat)
  | .pand p d a b => some (4, encAr 0x40 p d.val a.val b.val 0)
  | .por p d a b => some (4, encAr 0x41 p d.val a.val b.val 0)
  | .pxor p d a b => some (4, encAr 0x42 p d.val a.val b.val 0)
  | .bfx p d a pos len1 => some (4, encAb 0x38 p d.val a.val 0 pos.val len1.val)
  | .bfxu p d a pos len1 => some (4, encAb 0x39 p d.val a.val 0 pos.val len1.val)
  | .bfi p d a b pos len1 => some (4, encAb 0x3A p d.val a.val b.val pos.val len1.val)
  | .kput p d a => some (4, encAr 0x48 p d.val a.val 0 0)
  | .kget p d a => some (4, encAr 0x49 p d.val a.val 0 0)
  | .oget p e d a b => some (4, encAr 0x50 p d.val a.val b.val e.enc)
  | .oput p e d a b => some (4, encAr 0x51 p d.val a.val b.val e.enc)
  | .br p off => some (3, encCb 0x01 p off.toNat 0)
  | .call p d off => some (3, encCb 0x02 p off.toNat d.val)
  | .jmp p a => some (3, encCc 0x03 p 0 a.val 0)
  | .callr p d a => some (3, encCc 0x04 p d.val a.val 0)
  | .loop p a off => some (3, encCb 0x05 p off.toNat a.val)
  | .loopi p n off => some (3, encCb 0x06 p off.toNat n.toNat)
  | .waitc p t0 t1 t2 t3 => some (3, 0x08 + p.val * 2 ^ 8 + t0.toNat * 2 ^ 11 + t1.toNat * 2 ^ 19 + t2.toNat * 2 ^ 27 + t3.toNat * 2 ^ 35)
  | .csrr p n d => some (3, encCc 0x10 p d.val 0 n.toNat)
  | .csrw p n a => some (3, encCc 0x11 p 0 a.val n.toNat)
  | .csrs p n a d => some (3, encCc 0x12 p d.val a.val n.toNat)
  | .csrc p n a d => some (3, encCc 0x13 p d.val a.val n.toNat)
  | .bar p sc => some (3, encCs 0x18 p 0 0 0 sc.enc)
  | .brk p imm => some (3, encCs 0x20 p 0 0 imm.toNat 0)
  | .wheelEnd p => some (3, encCs 0x21 p 0 0 0 0)
  | .wheelSpawn p a => some (3, encCs 0x22 p 0 a.val 0 0)
  | .wheelSpawnCore p a => some (3, encCs 0x22 p 0 a.val 1 0)
  | .semSig p a n => some (3, encCs 0x28 p 0 a.val n.toNat 0)
  | .semWait p a n => some (3, encCs 0x29 p 0 a.val n.toNat 0)
  | .semTest p d a => some (3, encCs 0x2A p d.val a.val 0 0)
  | .tret p => some (3, encCs 0x30 p 0 0 0 0)
  | .xlatInvRange p i => some (3, encCs 0x31 p 0 0 i.val 0)
  | .xlatInvPage p a => some (3, encCs 0x31 p 0 a.val 0 1)
  | .xlatInvVat p => some (3, encCs 0x31 p 0 0 0 2)
  | .ssave p a => some (3, encCs 0x32 p 0 a.val 0 0)
  | .srest p a => some (3, encCs 0x33 p 0 a.val 0 0)
  | .ldb p d a off => some (5, encLm 0x01 p d.val a.val off.toNat 0 0 0)
  | .ldbu p d a off => some (5, encLm 0x02 p d.val a.val off.toNat 0 0 0)
  | .ldh p d a off => some (5, encLm 0x03 p d.val a.val off.toNat 0 0 0)
  | .ldhu p d a off => some (5, encLm 0x04 p d.val a.val off.toNat 0 0 0)
  | .ldw p d a off => some (5, encLm 0x05 p d.val a.val off.toNat 0 0 0)
  | .ldwu p d a off => some (5, encLm 0x06 p d.val a.val off.toNat 0 0 0)
  | .ldd p w8 d a off => some (5, encLm 0x07 p d.val a.val off.toNat 0 w8.toNat 0)
  | .ldv p w at_ d a off => some (5, encLm 0x08 p d.val a.val off.toNat w.enc at_.enc 0)
  | .ldp p w at_ pn row a off => some (5, encLm 0x09 p row.val a.val off.toNat w.enc at_.enc pn.val)
  | .ldmx p el w d a off => some (5, encLm 0x0A p d.val a.val off.toNat w.enc (2 * el.toNat) 0)
  | .pref p a off => some (5, encLm 0x10 p 0 a.val off.toNat 0 0 0)
  | .clInv p a off => some (5, encLm 0x11 p 0 a.val off.toNat 0 0 0)
  | .amoAdd p sc o w8 d a b => some (5, encLa 0x18 p sc.enc o.enc 0 w8 d.val a.val b.val)
  | .amoSwap p sc o w8 d a b => some (5, encLa 0x19 p sc.enc o.enc 0 w8 d.val a.val b.val)
  | .amoCas p sc o fa w8 d a b => some (5, encLa 0x1A p sc.enc o.enc fa.toNat w8 d.val a.val b.val)
  | .amoAnd p sc o w8 d a b => some (5, encLa 0x1B p sc.enc o.enc 0 w8 d.val a.val b.val)
  | .amoOr p sc o w8 d a b => some (5, encLa 0x1C p sc.enc o.enc 0 w8 d.val a.val b.val)
  | .amoXor p sc o w8 d a b => some (5, encLa 0x1D p sc.enc o.enc 0 w8 d.val a.val b.val)
  | .amoMax p sc o w8 d a b => some (5, encLa 0x1E p sc.enc o.enc 0 w8 d.val a.val b.val)
  | .amoMin p sc o w8 d a b => some (5, encLa 0x1F p sc.enc o.enc 0 w8 d.val a.val b.val)
  | .fld p w8 d a off => some (5, encLm 0x20 p d.val a.val off.toNat w8.toNat 0 0)
  | .famoAdd p o w8 d a b => some (5, encLa 0x28 p 0 o.enc 0 w8 d.val a.val b.val)
  | .famoSwap p o w8 d a b => some (5, encLa 0x29 p 0 o.enc 0 w8 d.val a.val b.val)
  | .famoCas p o fa w8 d a b => some (5, encLa 0x2A p 0 o.enc fa.toNat w8 d.val a.val b.val)
  | .famoAnd p o w8 d a b => some (5, encLa 0x2B p 0 o.enc 0 w8 d.val a.val b.val)
  | .famoOr p o w8 d a b => some (5, encLa 0x2C p 0 o.enc 0 w8 d.val a.val b.val)
  | .mark => some (5, 0xFE)
  | .stb p d a off => some (6, encLm 0x01 p d.val a.val off.toNat 0 0 0)
  | .sth p d a off => some (6, encLm 0x02 p d.val a.val off.toNat 0 0 0)
  | .stw p d a off => some (6, encLm 0x03 p d.val a.val off.toNat 0 0 0)
  | .std p w8 d a off => some (6, encLm 0x04 p d.val a.val off.toNat 0 w8.toNat 0)
  | .stv p w at_ d a off => some (6, encLm 0x08 p d.val a.val off.toNat w.enc at_.enc 0)
  | .stp p w at_ pn row a off => some (6, encLm 0x09 p row.val a.val off.toNat w.enc at_.enc pn.val)
  | .stmx p el w d a off => some (6, encLm 0x0A p d.val a.val off.toNat w.enc (2 * el.toNat) 0)
  | .fence p sc o => some (6, 0x10 + p.val * 2 ^ 8 + o.enc * 2 ^ 37 + sc.enc * 2 ^ 39)
  | .clZero p a off => some (6, encLm 0x11 p 0 a.val off.toNat 0 0 0)
  | .fst p w8 d a off => some (6, encLm 0x20 p d.val a.val off.toNat w8.toNat 0 0)
  | .ffenceFlag p w8 d a off => some (6, encLm 0x21 p d.val a.val off.toNat w8.toNat 0 0)
  | .pressLease p => some (2, 0x01 + p.val * 2 ^ 8)
  | .pressFree p => some (2, 0x02 + p.val * 2 ^ 8)
  | .pressClaim p bank => some (2, 0x03 + p.val * 2 ^ 8 + bank.toNat * 2 ^ 11)
  | .pressRelease p bank => some (2, 0x04 + p.val * 2 ^ 8 + bank.toNat * 2 ^ 11)
  | .pressStatNorth p c b snap => some (2, encEc 0x08 p c b.val (encAux false false false snap))
  | .pressStatWest p c b snap => some (2, encEc 0x08 p c b.val (encAux true false false snap))
  | .pressRun p c b bank sparse snap => some (2, encEc 0x09 p c b.val (encAux bank sparse false snap))
  | .pressDrain p c b bank acc => some (2, encEc 0x0A p c b.val (encAux bank acc false false))
  | .pressZero p c bank => some (2, encEc 0x0B p c 0 (encAux bank false false false))
  | .copy p c snap => some (2, encEc 0x10 p c 0 (encAuxCopy 0 false snap))
  | .copyHoop p c h snap => some (2, encEc 0x10 p c 0 (encAuxCopy h.val false snap))
  | .copyBb p c h snap => some (2, encEc 0x10 p c 0 (encAuxCopy h.val true snap))
  | .coll p c => some (2, encEc 0x18 p c 0 0)
  | .caveUpd p c b => some (2, encEc 0x19 p c b.val 0)
  | .embWait p d a => some (2, encEt 0x20 p d.val a.val 0 0 0)
  | .embWaitTrap p d a => some (2, encEt 0x20 p d.val a.val 1 0 0)
  | .embTest p d a => some (2, encEt 0x21 p d.val a.val 0 0 0)
  | .embCancel p d a => some (2, encEt 0x22 p d.val a.val 0 0 0)
  | .embDetach p d a => some (2, encEt 0x23 p d.val a.val 0 0 0)
  | .embAdopt p d name => some (2, encEt 0x24 p d.val 0 0 0 name.toNat)
  | .embPrio p d a n => some (2, encEt 0x25 p d.val a.val 0 n.val 0)
  | .embInfo p d a => some (2, encEt 0x26 p d.val a.val 0 0 0)
  | .embAfter p d a => some (2, encEt 0x27 p d.val a.val 0 0 0)
  | .hoopInit p h a b => some (2, encEh 0x30 p 0 a.val b.val h.val)
  | .hoopAwait p d h => some (2, encEh 0x31 p d.val 0 0 h.val)
  | .hoopRel p h => some (2, encEh 0x32 p 0 0 0 h.val)
  | .hoopQuery p d h => some (2, encEh 0x33 p d.val 0 0 h.val)
  | .bbExpect p d h a => some (2, encEh 0x38 p d.val a.val 0 h.val)
  | .bbArrive p h a => some (2, encEh 0x39 p 0 a.val 0 h.val)
  | .bbWait p h a => some (2, encEh 0x3A p 0 a.val 0 h.val)
  | .bbQuery p d h => some (2, encEh 0x3B p d.val 0 0 h.val)
  | .moldGet p d a => some (2, encEh 0x40 p d.val a.val 0 0)
  | .moldPass p a => some (2, encEh 0x41 p 0 a.val 0 0)
  | .moldFree p a => some (2, encEh 0x42 p 0 a.val 0 0)
  | _ => none

/-- The first bit of a slot in its bundle (02 Table 2.2). -/
def slotBase : Nat → Nat
  | 0 => 0 | 1 => 64 | 2 => 128 | 3 => 192 | 4 => 240 | 5 => 288 | _ => 336

/-- A bundle that holds one instruction alone; none for a machine event. -/
def Instr.encBundle (i : Instr) : Option Nat :=
  i.encSlot.map fun (n, v) => if i == .mark then v * 2 ^ slotBase 5 + v * 2 ^ slotBase 6 else v * 2 ^ slotBase n

/-- The code words of an instruction alone in a literal bundle: the escape and 24 words (02 R28, R29). -/
def encode (i : Instr) : Option (List Nat) :=
  i.encBundle.map fun b => 0xF000 :: (List.range 24).map fun j => fld b (16 * j) 16

/-- A bundle from the 24 words of a literal (02 R29). -/
def wordsBundle : List Nat → Nat
  | [] => 0
  | w :: ws => w % 2 ^ 16 + 2 ^ 16 * wordsBundle ws

/-- The instruction that a bundle holds alone. -/
def soleInstr (b : Nat) : Option Instr :=
  match decodeBundle b with
  | .ok [(_, i)] => some i
  | _ => none

/-- The instruction of a literal that holds one instruction alone; none for any other stream (02 R28, R29). -/
def decode : List Nat → Option Instr
  | w :: ws => if w = 0xF000 ∧ ws.length = 24 then soleInstr (wordsBundle ws) else none
  | [] => none

/-- The words of a number, first word lowest (16 bits each). -/
def numWords (n : Nat) (w : Nat) : List Nat := (List.range n).map fun j => fld w (16 * j) 16

/-- The instruction the decoder reads from a literal laid out as a number: bit 0 is the least significant bit of the
first code word. Bits above nbits are zero. -/
def decodeTableWord (nbits w : Nat) : Option Instr := decode (numWords 25 (w % 2 ^ nbits))

end Sys2Proof
end

