-- ==== Sys2Proof/Config.lean ====
section
/-! DEFINITION. What the specification leaves open and the model leaves free: constants with no body, so that
nothing in Lean can find their values. Each is named in the assumption log. -/

namespace Sys2Proof.Config

/-- A byte with no defined value: the scratchpad byte at a location in a definedness epoch of its quad
(01 Table 1.3; log entry 7). -/
opaque freeByte : Nat → Nat → Byte

/-- A choice between two outcomes the specification allows without choosing, drawn at a count
(02 R30, old or new code words; log entry 8). -/
opaque freeBit : Nat → Bool

/-- A word that the specification does not state (12 R259: the fault address of a poisoned accumulator; log entry 23). -/
opaque freeWord : Nat → Word

/-- SHAKE256 with 256 bits of output, a named standard (20 R426; log entry 9). -/
opaque shake256 : List Byte → List Byte

/-- XMSS verification of a signature over a message under a public key, parameter set
XMSS-SHAKE256_10_256 (20 R425, R426; log entry 9). -/
opaque xmssVerify : List Byte → List Byte → List Byte → Bool

/-- The HBM4E stack, 0 to 5, that holds a location (20 R424 names stacks; log entry 89). -/
opaque hbmStack : Nat → Nat

/-- Where in its array or stack, as the number of a word-line, a row or a set, a place of an error lies (20 R419 names resources
and does not say what each holds; log entry 24). -/
opaque siteLine : UeSite → Nat

/-- The 4 KiB physical frames that hold a row of a die's HBM4E, by the row's resource number (20 R421; log entry 24). -/
opaque rowFrames : Nat → Nat → List Nat

/-- A sensor reading (DIEPWR, DIETEMP, HBMTEMP) of a die at a cycle (20 Table 20.4), and on the first die of a module the power of the rails
VHBM and VIO (21 Table 21.1; log entry 10). -/
opaque sensor : Nat → Nat → Nat → Word

/-- The fused root hash of a module and the key material provisioned into it (21 R433; log entry 22). -/
opaque rootHash : Nat → BitVec 256

end Sys2Proof.Config
end

