-- ==== Sys2Proof/Machine/Num.lean ====
section
/-! DEFINITION. Number formats, rounding, conversion and keyed randomness (04 R80 to R102). Values are exact: a finite
value is a sign, a natural number and a power of two. -/

namespace Sys2Proof.Machine

/-- STATUS flags (03 Table 3.7): [0] INV, [1] OVF, [2] UNF, [3] INX, [4] SATI. -/
abbrev Flags := BitVec 5
def fINV : Flags := 1
def fOVF : Flags := 2
def fUNF : Flags := 4
def fINX : Flags := 8
def fSATI : Flags := 16
/-- A flag where a condition holds. -/
def fIf (c : Bool) (f : Flags) : Flags := if c then f else 0

/-- An exact value: not a number, an infinity, or (-1)^neg * m * 2^e. Zero keeps its sign. -/
inductive Val where
  | nan
  | inf (neg : Bool)
  | fin (neg : Bool) (m : Nat) (e : Int)
  deriving DecidableEq, Repr, Inhabited

/-- Rounding modes (04 Table 4.7). Stochastic rounding carries its bit count and a KeyMix output. -/
inductive Mode where
  | rne | rtz | rpi | rni
  | sr (k : Nat) (key : BitVec 64)
  deriving DecidableEq, Repr, Inhabited

/-- A floating-point format: element bits, fraction bits, exponent of the smallest normal, largest finite magnitude
code, magnitude code of infinity, full code of the canonical NaN, whether it is signed, whether it has a negative
zero (04 Tables 4.3 to 4.6). -/
structure FpFmt where
  bits : Nat
  t : Nat
  emin : Int
  maxCode : Nat
  inf : Option Nat
  nan : Option Nat
  signed : Bool
  negZero : Bool
  deriving DecidableEq, Repr, Inhabited

/-- A format: floating point, or an integer of a width. -/
inductive Fmt where
  | fp (f : FpFmt)
  | int (bits : Nat) (signed : Bool)
  | e8m0
  deriving DecidableEq, Repr, Inhabited

def fmtF32 : FpFmt := ⟨32, 23, -126, 0x7F7FFFFF, some 0x7F800000, some 0x7FC00000, true, true⟩
def fmtBf16 : FpFmt := ⟨16, 7, -126, 0x7F7F, some 0x7F80, some 0x7FC0, true, true⟩
def fmtF16 : FpFmt := ⟨16, 10, -14, 0x7BFF, some 0x7C00, some 0x7E00, true, true⟩
def fmtE2m1 : FpFmt := ⟨4, 1, 0, 7, none, none, true, true⟩

/-- A binary8 member of precision P (04 R87, R88). -/
def fmtB8 (uns infs : Bool) (p : Nat) : FpFmt :=
  let w := if uns then 9 - p else 8 - p
  let emin : Int := 1 - (2 ^ (w - 1) : Nat)
  let top := if uns then 0xFE else 0x7F
  ⟨8, p - 1, emin, if infs then top - 1 else top, if infs then some top else none,
   some (if uns then 0xFF else 0x80), !uns, false⟩

/-- The format of a code (04 Table 4.1). -/
def fmtOf (c : Nat) : Fmt :=
  if c = 0 then .fp fmtF32 else if c = 1 then .fp fmtBf16 else if c = 2 then .fp fmtF16
  else if c = 3 then .fp fmtE2m1 else if c = 4 then .int 8 true else if c = 5 then .int 8 false
  else if c = 6 then .int 32 true else if c = 7 then .int 4 true else if c = 8 then .e8m0
  else .fp (fmtB8 (c / 16 % 2 == 1) (c / 8 % 2 == 1) (c % 8))

/-- The code of the sign of a format. -/
def FpFmt.signBit (f : FpFmt) : Nat := if f.signed then 2 ^ (f.bits - 1) else 0

/-- Reading an element (04 R82 to R88). -/
def FpFmt.dec (f : FpFmt) (w : Nat) : Val :=
  if f.nan == some w then .nan
  else
    let neg := f.signed && decide (f.signBit ≤ w)
    let mag := if neg then w - f.signBit else w
    match f.inf with
    | some i => if mag > i then .nan else if mag = i then .inf neg else decMag f neg mag
    | none => decMag f neg mag
where
  /-- A finite magnitude code. -/
  decMag (f : FpFmt) (neg : Bool) (mag : Nat) : Val :=
    let ex := mag / 2 ^ f.t
    let fr := mag % 2 ^ f.t
    if ex = 0 then .fin neg fr (f.emin - f.t) else .fin neg (2 ^ f.t + fr) (f.emin - f.t + (ex - 1 : Nat))

/-- A signed reading of the low bits of a number. -/
def sgn (bits w : Nat) : Int := if w < 2 ^ (bits - 1) then (w : Int) else (w : Int) - (2 ^ bits : Nat)

/-- An integer as a value. -/
def Val.ofInt (i : Int) : Val := .fin (decide (i < 0)) i.natAbs 0

/-- Reading an element of any format (04 R85, R86). -/
def Fmt.dec : Fmt → Nat → Val
  | .fp f, w => f.dec w
  | .int b true, w => Val.ofInt (sgn b w)
  | .int _ false, w => .fin false w 0
  | .e8m0, w => if w = 255 then .nan else .fin false 1 ((w : Int) - 127)

/-- Floor of the base-2 logarithm of n / d, both positive. -/
def floorLog2 (n d : Nat) : Int :=
  let k : Int := (Nat.log2 n : Int) - Nat.log2 d
  let ge := if 0 ≤ k then decide (d * 2 ^ k.toNat ≤ n) else decide (d ≤ n * 2 ^ (-k).toNat)
  if ge then k else k - 1

/-- n / d * 2^s as a numerator and a denominator. -/
def scaleQ (n d : Nat) (s : Int) : Nat × Nat :=
  if 0 ≤ s then (n * 2 ^ s.toNat, d) else (n, d * 2 ^ (-s).toNat)

/-- Whether a magnitude q + r / den between two grid neighbours goes to the upper one; odd tells whether the lower
neighbour's code is odd (04 Table 4.7, R95). -/
def roundUp (mode : Mode) (neg odd : Bool) (r den : Nat) : Bool :=
  if r = 0 then false
  else match mode with
  | .rne => decide (den < 2 * r) || (decide (2 * r = den) && odd)
  | .rtz => false
  | .rpi => !neg
  | .rni => neg
  | .sr k key => decide (2 ^ k ≤ r * 2 ^ k / den + key.toNat / 2 ^ (64 - k))

/-- Rounding of a positive n / d * 2^e onto a grid unbounded above: the magnitude code, whether inexact, whether
tiny (04 R93, R94). -/
def roundGrid (t : Nat) (emin : Int) (mode : Mode) (neg : Bool) (n d : Nat) (e : Int) : Nat × Bool × Bool :=
  let ex := floorLog2 n d + e
  let ex' := max ex emin
  let (num, den) := scaleQ n d (e - (ex' - t))
  let code := (ex' - emin).toNat * 2 ^ t + num / den
  let r := num % den
  (code + (roundUp mode neg (code % 2 == 1) r den).toNat, r != 0, decide (ex < emin))

/-- Whether an overflow of a format with infinities gives an infinity (04 Table 4.7). -/
def ovfInf (mode : Mode) (neg : Bool) : Bool :=
  match mode with
  | .rne => true | .sr _ _ => true | .rtz => false | .rpi => !neg | .rni => neg

/-- A magnitude code with a sign. -/
def FpFmt.pack (f : FpFmt) (neg : Bool) (mag : Nat) : Nat :=
  if neg && (f.negZero || mag != 0) then f.signBit + mag else mag

/-- Round of 04 R93 to R95 for (-1)^neg * n / d * 2^e. -/
def FpFmt.round (f : FpFmt) (satf : Bool) (mode : Mode) (neg : Bool) (n d : Nat) (e : Int) : Nat × Flags :=
  if n = 0 then (f.pack neg 0, 0)
  else
    let (code, inx, tiny) := roundGrid f.t f.emin mode neg n d e
    if code > f.maxCode then
      match f.inf with
      | some i => (f.pack neg (if !satf && ovfInf mode neg then i else f.maxCode), fOVF ||| fINX)
      | none => (f.pack neg f.maxCode, fOVF ||| fINX)
    else (f.pack neg code, fIf inx fINX ||| fIf (inx && tiny) fUNF)

/-- An infinity of a format, or its largest finite with OVF (04 Table 4.8). -/
def FpFmt.ofInf (f : FpFmt) (neg : Bool) : Nat × Flags :=
  match f.inf with
  | some i => (f.pack neg i, 0)
  | none => (f.pack neg f.maxCode, fOVF)

/-- A NaN of a format, or +0 with INV where it has none (04 Table 4.8). -/
def FpFmt.ofNan (f : FpFmt) : Nat × Flags :=
  match f.nan with
  | some c => (c, 0)
  | none => (0, fINV)

/-- A value converted to a floating-point format (04 R100, R101). -/
def FpFmt.conv (f : FpFmt) (satf : Bool) (mode : Mode) : Val → Nat × Flags
  | .nan => f.ofNan
  | .inf neg => if neg && !f.signed then (0, fINV) else f.ofInf neg
  | .fin neg m e =>
    if m = 0 then (f.pack neg 0, 0)
    else if neg && !f.signed then (0, fINV)
    else f.round satf mode neg m 1 e

/-- Rounding of a magnitude to an integer: the integer and whether inexact (04 R100). -/
def roundInt (mode : Mode) (neg : Bool) (m : Nat) (e : Int) : Nat × Bool :=
  let (num, den) := scaleQ m 1 e
  let q := num / den
  let r := num % den
  (q + (roundUp mode neg (q % 2 == 1) r den).toNat, r != 0)

/-- The low bits of an integer in two's complement. -/
def intBits (bits : Nat) (i : Int) : Nat := (i % (2 ^ bits : Nat)).toNat

/-- Bounds of an integer type. -/
def intLo (bits : Nat) (signed : Bool) : Int := if signed then -(2 ^ (bits - 1) : Nat) else 0
def intHi (bits : Nat) (signed : Bool) : Int := if signed then (2 ^ (bits - 1) : Nat) - 1 else (2 ^ bits : Nat) - 1

/-- A value converted to an integer (04 R100, R101). -/
def intConv (bits : Nat) (signed : Bool) (mode : Mode) : Val → Nat × Flags
  | .nan => (0, fINV)
  | .inf neg => (intBits bits (if neg then intLo bits signed else intHi bits signed), fSATI)
  | .fin neg m e =>
    if m = 0 then (0, 0)
    else if neg && !signed then (0, fSATI ||| fINX)
    else
      let (q, inx) := roundInt mode neg m e
      let v : Int := if neg then -(q : Int) else q
      if v < intLo bits signed then (intBits bits (intLo bits signed), fSATI ||| fINX)
      else if v > intHi bits signed then (intBits bits (intHi bits signed), fSATI ||| fINX)
      else (intBits bits v, fIf inx fINX)

/-- A value converted to any format (04 R100, R101). Nothing converts to E8M0 (R86). -/
def Fmt.conv (f : Fmt) (satf : Bool) (mode : Mode) (v : Val) : Nat × Flags :=
  match f with
  | .fp g => g.conv satf mode v
  | .int b s => intConv b s mode v
  | .e8m0 => (255, 0)

/-- KeyMix (04 R96). -/
def keyMix (seed coord : BitVec 64) : BitVec 64 :=
  let k := seed + (coord + 1) * 0x6A09E667F3BCC909#64
  let k := k ^^^ (k >>> 32)
  let k := k * 0x8B3A51C6F2E49D07#64
  let k := k ^^^ (k >>> 29)
  let k := k * 0xD1C57A930E6B24F5#64
  k ^^^ (k >>> 32)

/-- Sum of two finite values as a signed integer and a power of two. -/
def addZ (a : Int) (ea : Int) (b : Int) (eb : Int) : Int × Int :=
  let e := min ea eb
  (a * (2 ^ (ea - e).toNat : Nat) + b * (2 ^ (eb - e).toNat : Nat), e)

/-- The signed integer of a sign and a magnitude. -/
def sInt (neg : Bool) (m : Nat) : Int := if neg then -(m : Int) else m

/-- Exact addition with the special cases of 08 Table 8.2; the zero sum of opposite signs is -0 where the mode is
toward -infinity. -/
def Val.add (mode : Mode) : Val → Val → Val × Flags
  | .nan, _ => (.nan, 0)
  | _, .nan => (.nan, 0)
  | .inf a, .inf b => if a = b then (.inf a, 0) else (.nan, fINV)
  | .inf a, .fin _ _ _ => (.inf a, 0)
  | .fin _ _ _, .inf b => (.inf b, 0)
  | .fin na ma ea, .fin nb mb eb =>
    let (z, e) := addZ (sInt na ma) ea (sInt nb mb) eb
    if z = 0 then
      (.fin (if ma = 0 ∧ mb = 0 ∧ na = nb then na else mode == .rni) 0 0, 0)
    else (.fin (decide (z < 0)) z.natAbs e, 0)

/-- The value with the other sign. -/
def Val.neg : Val → Val
  | .nan => .nan | .inf n => .inf (!n) | .fin n m e => .fin (!n) m e

/-- Exact multiplication with the special cases of 08 Table 8.2. -/
def Val.mul : Val → Val → Val × Flags
  | .inf _, .fin _ 0 _ => (.nan, fINV)
  | .fin _ 0 _, .inf _ => (.nan, fINV)
  | .nan, _ => (.nan, 0)
  | _, .nan => (.nan, 0)
  | .inf a, .inf b => (.inf (a != b), 0)
  | .inf a, .fin nb _ _ => (.inf (a != nb), 0)
  | .fin na _ _, .inf b => (.inf (na != b), 0)
  | .fin na ma ea, .fin nb mb eb => (.fin (na != nb) (ma * mb) (ea + eb), 0)

/-- An arithmetic result rounded to its own format (08 R169). -/
def FpFmt.result (f : FpFmt) (satf : Bool) (mode : Mode) (r : Val × Flags) : Nat × Flags :=
  let (c, fl) := f.conv satf mode r.1
  (c, r.2 ||| fl)

/-- Comparison of two finite or infinite values by a key: less, equal or greater; none with a NaN. -/
def Val.cmp : Val → Val → Option Ordering
  | .nan, _ => none
  | _, .nan => none
  | .inf a, .inf b => some (if a = b then .eq else if a then .lt else .gt)
  | .inf a, .fin _ _ _ => some (if a then .lt else .gt)
  | .fin _ _ _, .inf b => some (if b then .gt else .lt)
  | .fin na ma ea, .fin nb mb eb =>
    let (z, _) := addZ (sInt na ma) ea (-(sInt nb mb)) eb
    some (if z < 0 then .lt else if z = 0 then .eq else .gt)

/-- Whether a value carries a negative sign. -/
def Val.isNeg : Val → Bool
  | .nan => false | .inf n => n | .fin n _ _ => n

/-- The order of vmin and vmax: -0 is below +0 (08 R171). -/
def Val.totalLt (a b : Val) : Bool :=
  match a.cmp b with
  | some .lt => true
  | some .eq => a.isNeg && !b.isNeg
  | _ => false

/-- The exponent of the largest finite value (04 R91: Emax). -/
def FpFmt.emax (f : FpFmt) : Int := f.emin + ((f.maxCode / 2 ^ f.t : Nat) : Int) - 1

/-- The value with its magnitude scaled by a power of two. -/
def Val.scale (s : Int) : Val → Val
  | .fin n m e => .fin n m (e + s)
  | v => v

/-- The larger of an exact magnitude and a value's finite magnitude, as an integer and a power of two. -/
def maxMag (a : Nat × Int) : Val → Nat × Int
  | .fin _ m e =>
    if m = 0 then a else if a.1 = 0 then (m, e)
    else match (Val.fin false a.1 a.2).cmp (.fin false m e) with
      | some .lt => (m, e)
      | _ => a
  | _ => a

/-- MxQuantise of a block under one mode per element (04 R91): scale, codes, flags. -/
def mxQuantise (f : FpFmt) (xs : List (Val × Mode)) : Nat × List Nat × Flags :=
  let hasNan := xs.any fun x => x.1 == .nan
  let hasInf := xs.any fun x => match x.1 with | .inf _ => true | _ => false
  if hasNan || (hasInf && f.inf.isNone) then
    (255, xs.map fun _ => 0, fIf (!hasNan) fINV)
  else
    let a := xs.foldl (fun a x => maxMag a x.1) (0, 0)
    let e : Int := if a.1 = 0 then -127 else floorLog2 a.1 1 + a.2 - f.emax
    let e := max (-127) (min e 127)
    let q := xs.map fun x => match x.1 with
      | .inf n => f.ofInf n
      | v => f.conv true x.2 (v.scale (-e))
    ((e + 127).toNat, q.map (·.1), q.foldl (fun fl x => fl ||| x.2) 0)

/-- An element of an MX block as a value (04 R89, R102). -/
def mxVal (f : FpFmt) (scale w : Nat) : Val :=
  if scale = 255 then .nan else (f.dec w).scale ((scale : Int) - 127)

/-- The floating-point format of an element code. -/
def fpOf (c : Nat) : FpFmt :=
  match fmtOf c with
  | .fp f => f
  | _ => fmtF32

/-- The n elements of b bits of a number, low bits first. -/
def elems (b n w : Nat) : List Nat := (List.range n).map fun i => w / 2 ^ (b * i) % 2 ^ b

/-- Elements of b bits packed, the first lowest. -/
def packElems (b : Nat) : List Nat → Nat
  | [] => 0
  | x :: xs => x % 2 ^ b + 2 ^ b * packElems b xs

end Sys2Proof.Machine
end

