-- ==== Sys2Proof/Machine/Table.lean ====
section
/-! DEFINITION. Plain tables keyed by numbers, and memory as a list of cells in its canonical form. A table lists
its keys in rising order; a key it does not list reads as the default of its entries. -/

namespace Sys2Proof.Machine

/-- A table from numbers to entries, keys rising. -/
abbrev Tbl (α : Type) := List (Nat × α)

/-- The entry of a key, or the default. -/
def tget {α : Type} [Inhabited α] : Tbl α → Nat → α
  | [], _ => default
  | (j, v) :: t, k => if j = k then v else tget t k

/-- A table with one entry replaced. -/
def tset {α : Type} : Tbl α → Nat → α → Tbl α
  | [], k, v => [(k, v)]
  | (j, w) :: t, k, v =>
    if k < j then (k, v) :: (j, w) :: t else if k = j then (k, v) :: t else (j, w) :: tset t k v

/-- A table with one entry changed by a function. -/
def tupd {α : Type} [Inhabited α] (t : Tbl α) (k : Nat) (f : α → α) : Tbl α := tset t k (f (tget t k))

/-- Whether a key is listed. -/
def thas {α : Type} : Tbl α → Nat → Bool
  | [], _ => false
  | (j, _) :: t, k => j == k || thas t k

/-- A table without one key. -/
def tdel {α : Type} (t : Tbl α) (k : Nat) : Tbl α := t.filter fun x => x.1 != k

/-- The keys a table lists. -/
def tkeys {α : Type} (t : Tbl α) : List Nat := t.map (·.1)

/-- What a memory byte reads as (log entry 2: an unlisted byte reads as zero). -/
def cellGet : List Host.Cell → Nat → Byte
  | [], _ => 0
  | (a, b) :: t, k => if a = k then b else cellGet t k

/-- A byte put at its place in the order of addresses. -/
def cellInsert : List Host.Cell → Nat → Byte → List Host.Cell
  | [], k, v => [(k, v)]
  | (a, b) :: t, k, v => if k < a then (k, v) :: (a, b) :: t else (a, b) :: cellInsert t k v

/-- Memory with one byte written; the value of an unlisted byte removes the entry. -/
def cellSet (m : List Host.Cell) (k : Nat) (v : Byte) : List Host.Cell :=
  let r := m.filter fun c => c.1 != k
  if v = 0 then r else cellInsert r k v

/-- The canonical form of memory: addresses strictly rising, no entry of the value an unlisted byte reads as. -/
def Memory.wf : List Host.Cell → Bool
  | [] => true
  | [(_, b)] => b != 0
  | (a, b) :: (a', b') :: t => b != 0 && decide (a < a') && Memory.wf ((a', b') :: t)

/-- A set of numbers as a rising list, with one number added. -/
def nsAdd : List Nat → Nat → List Nat
  | [], k => [k]
  | j :: t, k => if k < j then k :: j :: t else if k = j then j :: t else j :: nsAdd t k

/-- A set of numbers without one number. -/
def nsDel (t : List Nat) (k : Nat) : List Nat := t.filter (· != k)

/-- The first number below a bound, counting up from a start, that a test accepts. -/
def firstFrom (fuel start : Nat) (p : Nat → Bool) : Option Nat :=
  match fuel with
  | 0 => none
  | f + 1 => if p start then some start else firstFrom f (start + 1) p

/-- The j-th of a list of choices, or a default. -/
def pick {α : Type} [Inhabited α] (l : List α) (j : Nat) : α := (l[j]?).getD default

/-- A list with the element at an index replaced; unchanged where the index is past the end. -/
def setAt {α : Type} (l : List α) (j : Nat) (v : α) : List α := l.set j v

end Sys2Proof.Machine
end

