-- ==== Sys2Proof/Machine/State.lean ====
section
/-! DEFINITION. The state of the machine as plain data, the reasons a step can stop, and the state after reset.
Tables list what has been touched; a key not listed is in its state of reset. Keys: a physical die is 8 * module + d,
a core 128 * die + COREID, a context 4 * core + CTXID, a quad 32 * die + QUADID, a vat 2^32 * module + VATID. -/

namespace Sys2Proof.Machine

/-- An object whose change in cycle t is seen by instructions from cycle t + 1 on (11 R229, 13 R292, R299, 16 R341):
the value now, the value before the changes of the cycle `at_`. -/
structure Stamped (α : Type) where
  cur : α
  prev : α
  at_ : Nat := 0
  deriving DecidableEq, Repr, Inhabited

/-- A wheel: its vat, its index and its start (12 R251: a later wheel of the context is another wheel). -/
structure WheelId where
  vat : Nat := 0
  idx : Nat := 0
  start : Nat := 0
  deriving DecidableEq, Repr, Inhabited

/-- A loop-stack entry (07 §7.8). -/
structure Loop where
  start : Word := 0
  stop : Word := 0
  count : Nat := 0
  deriving DecidableEq, Repr, Inhabited

/-- Where a counted result goes. Panes are physical panes of the core. -/
inductive Dest where
  | sreg (n : Nat) | preg (n : Nat) | kreg (n : Nat) | oreg (n : Nat)
  | key | status | csr (n : Nat)
  | pane (ph : Nat) (dir : Dir) (idx : Nat)
  | paneImg (ph : Nat)
  | none
  deriving DecidableEq, Repr, Inhabited

/-- A landing-buffer entry (02 R47): destination, element size and count, enabled elements, value, image of an
unparked pane, latch taken, flags, bundles still to pass, issue sequence, slot, whether an error struck it. -/
structure Landing where
  dest : Dest := .none
  esz : Nat := 64
  n : Nat := 1
  en : Nat := 1
  value : Row := 0
  img : List Row := []
  lat : Option Bool := none
  flags : Flags := 0
  rem : Nat := 0
  seq : Nat := 0
  slot : Nat := 0
  bad : Bool := false
  deriving DecidableEq, Repr, Inhabited

/-- A pending FMT write (02 R54): value and bundles that still use the old one. -/
structure FmtPend where
  value : Word := 0
  rem : Nat := 0
  deriving DecidableEq, Repr, Inhabited

/-- A poison record (10 R210): counter class, first marked unit's address, operations of the class issued after. -/
structure PoisonRec where
  cls : Nat := 0
  addr : Nat := 0
  after : Nat := 0
  deriving DecidableEq, Repr, Inhabited

/-- What belongs to each trap level separately (17 R355). -/
structure LevelSt where
  land : List Landing := []
  fmtp : Option FmtPend := none
  loops : List Loop := []
  poison : List PoisonRec := []
  deriving DecidableEq, Repr, Inhabited

/-- Destination of a load. -/
inductive LDest where
  | scalar (d : Nat) (signed : Bool)
  | oreg (d : Nat)
  | row (ph r : Nat)
  | mx (d b : Nat)
  | srest
  deriving DecidableEq, Repr, Inhabited

/-- Operations of atomics (10 Table 10.6). -/
inductive AmoOp where | add | swap | cas | and | or | xor | max | min
  deriving DecidableEq, Repr, Inhabited

/-- What is done when an ordering place of a context's queues is reached (14 Table 14.1). -/
inductive OrdAct where
  | none
  | fork (core slot uid : Nat)
  | signal (die sem n : Nat)
  | bbArrive (quad bb id : Nat)
  | hoopRel (quad hoop slot : Nat)
  | spawn (vat idx : Nat)
  deriving DecidableEq, Repr, Inhabited

/-- Far operations (18 Table 18.5). -/
inductive FarOp where | ld | st | flag | amo (op : AmoOp)
  deriving DecidableEq, Repr, Inhabited

/-- Kinds of queued memory operations (10 Table 10.3). -/
inductive MKind where
  | load (dst : LDest)
  | store
  | amo (op : AmoOp) (b expected : Word) (d : Nat) (dropAcq : Bool)
  | clInv
  | order (acq : Option Scope) (pod : Bool) (act : OrdAct) (entry : Bool)
  | far (op : FarOp) (b expected : Word) (d : Nat) (dropAcq : Bool)
  deriving DecidableEq, Repr, Inhabited

/-- A queued memory operation: its number in its context, its bytes' locations as translated at issue, whether the
L1 may serve it, the data it stores, the bytes performed and what they gave, the first poisoned unit met. An atomic's
last field says that a failed compare takes away the acquire placed after it (10 R221); fails marks a compare-and-swap that a
later store has passed, so that its compare fails (14 R323), and fall holds the bytes that an operation ahead of that store may still
return, as they stood when every compare passed was last seen to fail (log entry 120). -/
structure MOp where
  kind : MKind := .store
  id : Nat := 0
  lvl : Nat := 0
  ea : Nat := 0
  size : Nat := 0
  unit : Nat := 1
  locs : List Nat := []
  cached : Bool := false
  data : List Byte := []
  did : Nat := 0
  got : List (Nat × Byte) := []
  bad : Option Nat := none
  fails : Bool := false
  fall : List (Nat × Byte) := []
  deriving DecidableEq, Repr, Inhabited

/-- A load or atomic performed whose bytes are on their way to the destination (07 R51): units written so far. -/
structure Ret where
  op : MOp := {}
  given : Nat := 0
  deriving DecidableEq, Repr, Inhabited

/-- An operation that a counter counts, in issue order (07 R152, R153). -/
structure OutOp where
  id : Nat := 0
  cls : Nat := 0
  done : Bool := false
  deriving DecidableEq, Repr, Inhabited

/-- Ember states (11 Table 11.2). -/
inductive EState where | pending | running | orphaned | done | faulted | cancelled
  deriving DecidableEq, Repr, Inhabited

/-- The commands embers hold, with their aux fields (12 Table 12.3, 13 Table 13.1, 18 R396, R406). -/
inductive EcOp where
  | stat (west snap : Bool)
  | run (bank sparse snap : Bool)
  | drain (bank acc : Bool)
  | zero (bank : Bool)
  | copy (target : Nat) (bb snap : Bool)
  | coll
  | cave
  deriving DecidableEq, Repr, Inhabited

/-- A row group on which a cave is at work: whether it has been read, the writes still to be performed, the 64-byte lines of the
row group, whose lock it holds, and its blocks of scale 0xFF (14 R320, 18 R407, R408). -/
structure CaveWork where
  isRead : Bool := false
  todo : List (Nat × Byte) := []
  lines : List Nat := []
  ff : Nat := 0
  deriving DecidableEq, Repr, Inhabited

/-- A unit of a copy that is counted once its last byte that is parked or put off has been performed (13 R283): the unit, its
bytes, its address, and the cycle in which that byte was performed. -/
structure Owed where
  unit : Nat := 0
  n : Nat := 0
  addr : Nat := 0
  doneAt : Option Nat := none
  deriving DecidableEq, Repr, Inhabited

/-- Writes of one step of an engine that are performed one by one (14 R308): the unit of the copy that counts them, locations and
bytes, the addresses from which a plain copy read those bytes, the places of the list that have been performed. -/
structure Late where
  unit : Option Nat := none
  ws : List (Nat × Byte) := []
  src : List Nat := []
  did : List Nat := []
  deriving DecidableEq, Repr, Inhabited

/-- A live ember's record (11 Table 11.1): with the context whose queue it stands in, its order in the
queues and the cycle of its issue, the lease that
counts it, its captured command, whether its engine has begun it, whether a
pre-emption stopped it (11 R248), whether an uncorrectable error struck its record (R250), whether its slot was fenced (R250), whether a cancel waits and since when, whether only parked arrivals
keep it from its final state (17 R378), that state with its cause and address, the units of its copy that are owed to their target
(13 R283), writes put off (14 R308), the cause, the fault address and the progress from before the cycle of its final state (11 R229), a number of
its own, whether a collective is offered to its group (18 R400), the
row group its cave works on, the bytes that its engine has read and holds, by unit and address (12 R273, 14 R308), and its
two seeds. -/
structure Ember where
  vat : Nat := 0
  name : BitVec 16 := 0
  gen : Nat := 1
  prio : Nat := 0
  owner : Nat := 4
  wheel : WheelId := {}
  pred : Nat := 0
  predOk : Bool := true
  cause : Nat := 0
  faddr : Nat := 0
  prog : Nat := 0
  op : EcOp := .coll
  work : Option CaveWork := none
  snap : List (Nat × Nat × Byte) := []
  seed0 : Word := 0
  seed1 : Word := 0
  ba : Nat := 0
  cmd : List Byte := []
  captured : Bool := false
  began : Bool := false
  stopped : Bool := false
  struck : Bool := false
  fenced : Bool := false
  cancel : Bool := false
  cancelAt : Nat := 0
  allDone : Bool := false
  endSt : EState := .done
  endCause : Nat := 0
  endAddr : Nat := 0
  owed : List Owed := []
  late : List Late := []
  cause0 : Nat := 0
  faddr0 : Nat := 0
  prog0 : Nat := 0
  uid : Nat := 0
  offered : Bool := false
  ctx : Nat := 0
  order : Nat := 0
  issued : Nat := 0
  lease : Nat := 0
  issuer : WheelId := {}
  st : Stamped EState := ⟨.pending, .pending, 0⟩
  deriving DecidableEq, Repr, Inhabited

/-- The dependence that emb.after leaves for the next ember (11 R241); ready names a predecessor that has become DONE since. -/
inductive Dep where
  | none
  | ready (token : Nat)
  | cancelled (token : Nat)
  | token (t : Nat)
  deriving DecidableEq, Repr, Inhabited

/-- Phases of a context. -/
inductive Phase where | idle | running | ending | faulting | halted
  deriving DecidableEq, Repr, Inhabited

/-- A far instruction that blocks its context (18 R392, R394): its operation's number, its request once sent, its
bundle and slot, whether it is over, the trap it ended with. -/
structure FarWait where
  op : Nat := 0
  req : Option Nat := none
  bundle : Word := 0
  slot : Nat := 0
  closed : Bool := false
  fault : Option (Nat × Nat) := none
  deriving DecidableEq, Repr, Inhabited

/-- What an invalidation covers (17 Table 17.7). -/
inductive XInv where
  | range (i : Nat) | page (va : Nat) | vat
  deriving DecidableEq, Repr, Inhabited

/-- A context (01 R9, 03 R56, R75, 17 R355, R360). haltAt is the cycle in which it was last halted (R359). -/
structure Ctx where
  wheel : Option WheelId := none
  phase : Phase := .idle
  pc : Word := 0
  level : Nat := 0
  cause : Word := 0
  epc : Word := 0
  tval : Word := 0
  tvec : Word := 0
  saveptr : Word := 0
  tbundle : Word := 0
  s : Tbl Word := []
  p : Tbl Bool := []
  k : Tbl Mask := []
  o : Tbl Row := []
  lat0 : Row := 0
  lat1 : Row := 0
  fmt : Word := 0
  key : Word := 0
  status : Word := 0
  panebase : Nat := 0
  panecnt : Nat := 0
  dictbase : Nat := 0
  l0 : LevelSt := {}
  l1 : LevelSt := {}
  seq : Nat := 0
  marks : List RegId := []
  lq : List MOp := []
  sq : List MOp := []
  rets : List Ret := []
  outs : List OutOp := []
  nextOp : Nat := 0
  tags : Tbl Nat := []
  dep : Dep := .none
  reap : Option (Nat × Ember) := none
  farWait : List FarWait := []
  farRec : Option (Nat × Nat) := none
  farSent : List Nat := []
  barIn : Option Scope := none
  barOk : Bool := false
  haltAt : Nat := 0
  xinv : Option XInv := none
  endFault : Option (Nat × Nat) := none
  endAfter : Bool := false
  deriving DecidableEq, Repr, Inhabited

/-- A cached translation of one 4 KiB page of a vat (17 R373): its frame, rights, cache policy, residency, the size of
the page that holds it, and the range entry it came from, if any. -/
structure Xlat where
  vat : Nat := 0
  page : Nat := 0
  loc : Nat := 0
  r : Bool := false
  w : Bool := false
  x : Bool := false
  cached : Bool := false
  resident : Bool := true
  size : Nat := 4096
  range : Option Nat := none
  deriving DecidableEq, Repr, Inhabited

/-- Where a mold stands (13 R303, R304). -/
inductive MoldSt where
  | owned (ctx : Nat) (w : WheelId)
  | passed (ctx : Nat) (w : WheelId)
  | given (vat idx : Nat)
  | ownerless
  deriving DecidableEq, Repr, Inhabited

/-- A mold: first granule, granule count, vat, state, order of passing. -/
structure Mold where
  first : Nat := 0
  count : Nat := 1
  vat : Nat := 0
  st : MoldSt := .ownerless
  order : Nat := 0
  deriving DecidableEq, Repr, Inhabited

/-- A pref that is neither filled nor dropped (10 R215): vat, address of its line, the line's location where its page was
translated at issue. -/
structure Pref where
  vat : Nat := 0
  ea : Nat := 0
  loc : Option Nat := none
  deriving DecidableEq, Repr, Inhabited

/-- An ordering place that a wheel left in the queues of its context when it ended (07 R162): the context, the wheel's vat, the scope of
its acquire, what it does, the far stores that it waits for. -/
structure LeftPlace where
  ctx : Nat := 0
  vat : Nat := 0
  acq : Option Scope := none
  act : OrdAct := .none
  far : List Nat := []
  deriving DecidableEq, Repr, Inhabited

/-- A core (01 R9); left holds the places of wheels that have ended (07 R162). -/
structure Core where
  sel : Nat := 3
  selAt : Nat := 0
  switching : Bool := false
  issuedAt : Option Nat := none
  panes : Tbl Row := []
  l1 : Tbl (List Byte) := []
  prefs : List Pref := []
  tlb : List Xlat := []
  embers : Tbl (Option Ember) := []
  gens : Tbl Nat := []
  fenced : List Nat := []
  molds : List Mold := []
  moldRes : Tbl (List Nat) := []
  trapGran : Tbl Nat := []
  order : Nat := 0
  gated : Bool := false
  retired : Bool := false
  draining : Bool := false
  left : List LeftPlace := []
  deriving DecidableEq, Repr, Inhabited

/-- Lease states (12 Table 12.1). -/
inductive LeaseSt where
  | requested | granted
  | freeing (granted : Bool)
  deriving DecidableEq, Repr, Inhabited

/-- A lease: state, commands counted, number. -/
structure Lease where
  st : LeaseSt := .requested
  count : Nat := 0
  num : Nat := 0
  deriving DecidableEq, Repr, Inhabited

/-- The stationary image (12 Table 12.1, R264, R266): kind, compute format specifier, rotation size code and whether it rotated
along the output axis, element codes by 256 * output + position, block scales by 8 * output + block. -/
structure Image where
  vat : Nat := 0
  kind : Nat := 0
  fmt : Nat := 0
  rot : Nat := 0
  rotOut : Bool := false
  q : Tbl Nat := []
  sc : Tbl Nat := []
  deriving DecidableEq, Repr, Inhabited

/-- The leases of one wheel: the current one and a next one, and an image that the current one's grant brings back
(12 R275). -/
structure WheelLease where
  ctx : Nat := 0
  wheel : WheelId := {}
  cur : Lease := {}
  next : Option Lease := none
  image : Option Image := none
  deriving DecidableEq, Repr, Inhabited

/-- An accumulator bank's claim (12 R257) and its contents, by 256 * row + column. -/
structure Bank where
  holder : Option (Nat × WheelId) := none
  release : Option Nat := none
  lastVat : Option Nat := none
  acc : Tbl Nat := []
  bad : List Nat := []
  deriving DecidableEq, Repr, Inhabited

/-- The press command on the array: its ember, units completed, whether its multicast transfer has begun, whether it stands at a
boundary that it reached while its vat was being halted (11 R248). -/
structure PressRun where
  core : Nat := 0
  slot : Nat := 0
  unit : Nat := 0
  sending : Bool := false
  held : Bool := false
  deriving DecidableEq, Repr, Inhabited

/-- A used park slot (03 R71 to R73). -/
structure Park where
  vat : Nat := 0
  ctx : Nat := 0
  wheel : WheelId := {}
  img : List Row := []
  bad : Bool := false
  deriving DecidableEq, Repr, Inhabited

/-- A running copy (13 R276, R279, R283, R285): its ember, units completed; of the current unit the bytes still to be
written with their destinations, whether a part has been written, its first destination, the header and the verdict of
a decoded block and the offsets after it; locations that a block under way has written; locations written and not yet
counted, since when; coded and raw offsets. -/
structure CopyRun where
  core : Nat := 0
  slot : Nat := 0
  unit : Nat := 0
  todo : Option (List (Nat × Byte)) := none
  wrote : Bool := false
  uaddr : Nat := 0
  hdr : Nat := 0
  crcBad : Bool := false
  after : Nat × Nat := (0, 0)
  pend : List Nat := []
  uncounted : List Nat := []
  countAt : Nat := 0
  coded : Nat := 0
  raw : Nat := 0
  deriving DecidableEq, Repr, Inhabited

/-- Slot states of a hoop (13 R291). -/
inductive SlotSt where | empty | filled | releasing
  deriving DecidableEq, Repr, Inhabited

/-- A hoop (13 R291); rel holds the cycle in which the mark of a slot's hoop.rel was performed (R296). -/
structure Hoop where
  owner : Option Nat := none
  base : Nat := 0
  z : Nat := 0
  c : Nat := 0
  cnt : Tbl Nat := []
  st : Tbl SlotSt := []
  rel : Tbl Nat := []
  rd : Nat := 0
  deriving DecidableEq, Repr, Inhabited

/-- A byte barrier (13 R298), with the cycle and the place in R299's order of the last arrival applied. -/
structure Bb where
  owner : Option Nat := none
  expected : Nat := 0
  arrived : Nat := 0
  armed : Bool := false
  phase : Bool := false
  broken : Bool := false
  lastAt : Option (Nat × Nat) := none
  deriving DecidableEq, Repr, Inhabited

/-- A bb.arrive accepted and not yet applied (13 R301): its number, its core, the cycle its release was performed, its count. -/
structure BbAcc where
  id : Nat := 0
  core : Nat := 0
  rel : Option Nat := none
  n : Nat := 0
  deriving DecidableEq, Repr, Inhabited

/-- A quad (01 R9). asked is the last cycle in which a core's bundle asked something that the cores of a quad are given in COREID
order, with the highest such core (03 R73); preTest asks whether the preload still stands after a fault or an
overrun of the vat before it (16 R350); parkHeld counts the reserved slots of panes saved with a part of a quad's wheels (03 R73), parkFreed the
slots of a vat that an unpark freed, with their cycle (08 R190). -/
structure Quad where
  leases : List WheelLease := []
  leaseNum : Nat := 1
  endedAt : Option Nat := none
  lastcore : Nat := 3
  lastctx : Tbl Nat := [(0, 3), (1, 3), (2, 3), (3, 3)]
  bank0 : Bank := {}
  bank1 : Bank := {}
  image : Option Image := none
  run : Option PressRun := none
  parks : Tbl (Option Park) := []
  parkRes : Tbl Nat := []
  parkQ : Tbl (List Nat) := []
  parkHeld : Tbl Nat := []
  parkFreed : Tbl (Nat × Nat) := []
  asked : Option (Nat × Nat) := none
  copies : List CopyRun := []
  copyAt : Option Nat := none
  hoops : Tbl (Stamped Hoop) := []
  bbs : Tbl (Stamped Bb) := []
  bbAcc : Tbl (List BbAcc) := []
  dict : Tbl Bundle := []
  dictRange : Tbl (Nat × Nat) := []
  dictBad : List Nat := []
  preload : Option (Nat × Nat × Nat) := none
  preTest : Bool := false
  fixedRes : Tbl Nat := []
  tlb : List Xlat := []
  epoch : Nat := 0
  defd : List Nat := []
  isolated : Bool := false
  draining : Bool := false
  deriving DecidableEq, Repr, Inhabited

/-- A hardware semaphore (16 R339 to R343): count, saturated, poison, the cycle in which an amount was last taken (R341). -/
structure Sem where
  count : Nat := 0
  sat : Bool := false
  bad : Bool := false
  takenAt : Option Nat := none
  deriving DecidableEq, Repr, Inhabited

/-- An arrival held in the staging park (17 R376): vat, first 4 KiB page of its leaf, its address, location of each byte on its page, bytes, the
ember, by its own number, or the far request that made it, with its sender's module, vat and effective address (18 R409), and the
unit of a copy that is counted (13 R283). -/
structure Parked where
  vat : Nat := 0
  page : Nat := 0
  va : Nat := 0
  bytes : List Byte := []
  ember : Option Nat := none
  far : Option Nat := none
  unit : Option Nat := none
  sender : Nat × Nat × Nat := (0, 0, 0)
  deriving DecidableEq, Repr, Inhabited

/-- One management command (20 Table 20.5): its op and target, whether busy, its result. -/
structure Hcmd where
  busy : Bool := false
  op : Nat := 0
  target : Nat := 0
  result : Nat := 0
  deriving DecidableEq, Repr, Inhabited

/-- A health event (20 Table 20.4, HEVENT). -/
structure HEvent where
  res : Nat := 0
  kind : Nat := 0
  lasting : Bool := false
  ms : Nat := 0
  deriving DecidableEq, Repr, Inhabited

/-- A link to another die of the module (18 R380, 20 R424): lane width lost, spare lanes of the direction from that die,
recalibrating on this die's command. -/
structure Link where
  half : Bool := false
  down : Bool := false
  spare : Nat := 2
  recal : Bool := false
  deriving DecidableEq, Repr, Inhabited

/-- A die (01 R9; management registers of 20 Table 20.4 and 21 Table 21.2). The causes of throttling in force, since when it is
throttled, and the earlier spans of cycles in which it was, stand for the register THROTTLE (21 R432). -/
structure Die where
  sems : Tbl (Stamped Sem) := []
  waiters : Tbl (List Nat) := []
  qbase : Tbl Word := []
  qcfg : Tbl Word := []
  qhead : Tbl Word := []
  qtail : Tbl Word := []
  qnext : Tbl Nat := []
  queues : Tbl (List Nat) := []
  rr : Nat := 0
  enq : Nat := 0
  doms : Tbl (Nat × Nat) := []
  parked : List Parked := []
  isolated : Bool := true
  draining : Bool := false
  stage : Nat := 1
  trip : Bool := false
  heldFuse : Bool := false
  heldTest : Bool := false
  heldHbm : Bool := false
  badStack : Nat := 0
  hcmd : Hcmd := {}
  fclim : Tbl (Nat × Nat) := [(0, (4, 86400000)), (1, (2, 3600000)), (2, (64, 1000)), (3, (3, 600000))]
  counters : Tbl (List Nat) := []
  events : List HEvent := []
  lost : Nat := 0
  ce : Nat := 0
  ue : Nat := 0
  links : Tbl Link := []
  hbmSpare : Tbl Nat := [(0, 255), (1, 255), (2, 255), (3, 255), (4, 255), (5, 255)]
  lineSpare : Tbl Nat := []
  setsOff : List Nat := []
  hbmRecal : Option Nat := none
  fwRun : Option (Nat × Nat) := none
  fwsvn : Nat := 0
  fwsrc : Word := 0
  fwlen : Word := 0
  fwBody : List Byte := []
  savebase : Word := 0
  savelen : Word := 0
  resvat : Word := 0
  planecc : Word := 0
  ccInUse : Word := 0
  hotPower : Bool := false
  hotDie : Bool := false
  hotSince : Nat := 0
  hotSpans : List (Nat × Nat) := []
  portUp : Tbl Bool := []
  deriving DecidableEq, Repr, Inhabited

/-- A dependence of a descriptor (16 Table 16.2). -/
structure VDep where
  sem : Nat := 0
  valid : Bool := false
  consume : Bool := false
  threshold : Nat := 0
  deriving DecidableEq, Repr, Inhabited

/-- A vat descriptor's fields (16 Table 16.1). -/
structure Desc where
  code : Nat := 0
  codeLen : Nat := 2
  entry : Nat := 0
  map : Nat := 0
  dictImg : Nat := 0
  sfu : Nat := 0
  dictSize : Nat := 0
  wheels : Nat := 0
  cls : Nat := 0
  gang : Nat := 255
  panecnt : Nat := 0
  parkSlots : Nat := 0
  moldGran : Nat := 0
  semBase : Nat := 0
  semCount : Nat := 0
  spawnLimit : Nat := 0
  fixed : Nat := 0
  extent : Nat := 0
  det : Bool := false
  dieMask : Nat := 0
  budget : Nat := 0
  trap : Nat := 0
  argBase : Nat := 0
  argStride : Nat := 0
  record : Nat := 0
  xlat : Nat := 0
  ranges : Nat := 0
  peerTab : Nat := 0
  peers : Nat := 0
  deps : List VDep := []
  sigSem : Nat := 0
  sigValid : Bool := false
  sigAmount : Nat := 0
  deriving DecidableEq, Repr, Inhabited

/-- A peer table entry as the flue read it (18 Table 18.3). -/
structure Peer where
  valid : Bool := false
  r : Bool := false
  w : Bool := false
  a : Bool := false
  target : Nat := 0
  domain : Nat := 0
  deriving DecidableEq, Repr, Inhabited

/-- An error entry of a completion record (16 Table 16.4). -/
structure RecEntry where
  addr : Nat := 0
  who : Nat := 0
  core : Nat := 0
  die : Nat := 0
  cause : Nat := 0
  source : Nat := 0
  deriving DecidableEq, Repr, Inhabited

/-- Life of a vat in its flue (16 R333, R342, R346). -/
inductive VPhase where | queued | ready | running
  deriving DecidableEq, Repr, Inhabited

/-- A pending spawned wheel (16 R338): its index, its s1, the core it is tied to, the die that issued it. -/
structure Spawn where
  idx : Nat := 0
  arg : Word := 0
  core : Option Nat := none
  die : Nat := 0
  released : Bool := false
  deriving DecidableEq, Repr, Inhabited

/-- One barrier of a gang in one unit of its scope (01 R16 to R22): gang number, scope, unit, arrivals. -/
structure BarInst where
  gang : Nat := 0
  scope : Scope := .lane
  inst : Nat := 0
  arrived : List Nat := []
  deriving DecidableEq, Repr, Inhabited

/-- An index range granted to a die and recorded by the leader, the die and the shadow (16 R351, R352): its first index,
its length, the die, the next index to start. -/
structure Grant where
  first : Nat := 0
  count : Nat := 0
  die : Nat := 0
  next : Nat := 0
  deriving DecidableEq, Repr, Inhabited

/-- What one core's save holds (17 Table 17.4): the core it was saved from, or its like on the quad where its vat now lives
(11 R249); contexts by CTXID, panes, embers with their generations, molds, reserved granules, saved scratchpad bytes and
poisoned units by offset, leases with their image, claimed banks, parked panes, stopped copies; of its quad
also the fixed granules, by core-in-quad * 2^20 + offset, and the hoops and byte barriers of the vat (13 R305), which leave the quad
with the last core of the vat there. -/
structure CoreSave where
  core : Nat := 0
  ctxs : Tbl Ctx := []
  panes : Tbl Row := []
  embers : Tbl (Option Ember) := []
  molds : List Mold := []
  moldRes : List Nat := []
  trapGran : Option Nat := none
  bytes : List (Nat × Byte) := []
  bad : List Nat := []
  leases : List WheelLease := []
  bank0 : Option Bank := none
  bank1 : Option Bank := none
  parks : Tbl (Option Park) := []
  copies : List CopyRun := []
  hasQuad : Bool := false
  fixedBytes : List (Nat × Byte) := []
  fixedBad : List Nat := []
  hoops : Tbl (Stamped Hoop) := []
  bbs : Tbl (Stamped Bb) := []
  bbAcc : Tbl (List BbAcc) := []
  deriving DecidableEq, Repr, Inhabited

/-- A vat (16 R329 to R353, 17 R364 to R368, 18 R387): its descriptor and where it lies, the enqueuing die and queue, its
class, when it became ready and when its first wheel started, the next index for a spawn, the leader's index counter,
wheels started, lost with a die and ended, pending spawns, the peer table, the energy counter and what was used, error
entries, marks, gangs broken with their cycle, barriers, leader and shadow, grants, cores being halted, saves, code bytes that stores changed, units of the
record whose write will meet an uncorrectable error (R347). -/
structure Vat where
  desc : Desc := {}
  descPa : Nat := 0
  die : Nat := 0
  queue : Nat := 0
  phase : VPhase := .queued
  cls : Nat := 0
  readyAt : Nat := 0
  startAt : Option Nat := none
  next : Nat := 0
  granted : Nat := 0
  started : Nat := 0
  lost : Nat := 0
  ended : Nat := 0
  starts : Nat := 0
  spawns : List Spawn := []
  spawned : Nat := 0
  peers : List Peer := []
  energy : Nat := 0
  used : Nat := 0
  demotions : Nat := 0
  entries : List RecEntry := []
  entryCount : Nat := 0
  cancelled : Bool := false
  rerun : Bool := false
  broken : Tbl Nat := []
  bars : List BarInst := []
  leader : Nat := 0
  shadow : Option Nat := none
  grants : List Grant := []
  lostLeader : Bool := false
  halting : List Nat := []
  saves : List CoreSave := []
  codeOld : Tbl Byte := []
  recBad : List Nat := []
  deriving DecidableEq, Repr, Inhabited

/-- A notice from the module to the host (18 Table 18.10). -/
inductive Notice where
  | complete (vat record outcome cause : Nat) (lost : Bool)
  | refused (vat cause : Nat)
  | staged (vat page : Nat)
  | farLost (vat addr len : Nat)
  | frames (die : Nat) (frames : List Nat)
  deriving DecidableEq, Repr, Inhabited

/-- A response to the host (18 R409). -/
structure Resp where
  sq : Nat := 0
  ty : Nat := 0
  status : Nat := 0
  arg : Nat := 0
  body : List Byte := []
  deriving DecidableEq, Repr, Inhabited

/-- A module (20 R427, R428; 21 R433 to R437; 18 R409, R410). secpolAt is the cycle of the write of SECPOL, haltedAt that of the halt; caps
holds the earlier values of PWRCAP of the last 1 ms, each with the cycle of the write that ended it (21 R432). -/
structure Modu where
  modcfg : Word := 0
  hostport : Option Bool := none
  mirrored : Bool := false
  pwrcap : Word := 10800000
  caps : List (Nat × Word) := []
  secpol : Word := 0
  secpolAt : Option Nat := none
  alarm : Word := 0
  erased : Bool := false
  halted : Bool := false
  haltedAt : Option Nat := none
  nextSq : Nat := 0
  resps : List Resp := []
  notices : List Notice := []
  resetAt : Nat := 0
  ports0 : Bool := false
  ports4 : Bool := false
  downAt : Option Nat := none
  deriving DecidableEq, Repr, Inhabited

/-- A far request (18 R389 to R395): who sent it, what it asks, when, how far it has come, whether it took the second route of
its kind (R381), and whether its compare is to fail (14 R323). -/
structure FarReq where
  ctx : Nat := 0
  wheel : WheelId := {}
  op : FarOp := .ld
  ea : Nat := 0
  size : Nat := 4
  die : Nat := 0
  domain : Nat := 0
  win : Nat := 0
  off : Nat := 0
  b : Word := 0
  expected : Word := 0
  d : Nat := 0
  opId : Nat := 0
  sentAt : Nat := 0
  answered : Bool := false
  performed : Bool := false
  poison : Bool := false
  value : Word := 0
  timedOut : Bool := false
  acked : Bool := false
  drop : Bool := false
  route : Option Bool := none
  fails : Bool := false
  deriving DecidableEq, Repr, Inhabited

/-- A part of a member that has reached the cave of another (18 R385, R402): its sender, its destination block, whether it
is valid, its element codes by element of the destination, the elements whose source is poisoned, the first such unit. -/
structure Piece where
  sender : Nat := 0
  block : Nat := 0
  ok : Bool := true
  codes : Tbl Nat := []
  bad : List Nat := []
  addr : Nat := 0
  deriving DecidableEq, Repr, Inhabited

/-- One member of a collective that has begun (18 R398 to R403): its ember, vat, core and peer index, the cycle it began,
its command block, the group as peer index and ember, the parts that have arrived in their order, the blocks written or
declared, the blocks that hold a result, the first fault as cause and address, members lost, source bytes read ahead by sender and
address, and the 32-byte units of blocks, by 8 * block + unit, written before the rest of their block (14 R308). Its buffers in
scratchpad stay those of this core where the vat's part there is saved or resumed elsewhere (log entry 146). -/
structure CollRun where
  uid : Nat := 0
  vat : Nat := 0
  core : Nat := 0
  pid : Nat := 0
  beganAt : Nat := 0
  cmd : List Byte := []
  group : List (Nat × Nat) := []
  pieces : List Piece := []
  done : List Nat := []
  valid : List Nat := []
  bad : Option (Nat × Nat) := none
  lost : List Nat := []
  held : List (Nat × Nat × Byte) := []
  early : List Nat := []
  deriving DecidableEq, Repr, Inhabited

/-- The bundle being executed: whether one is open, its context, its length in bytes, the slots still to run, and the
control decision made so far: a branch target, a loop to push (start, stop, count; a count of 0 skips the body), a
trap return, a wheel end. -/
structure Issue where
  active : Bool := false
  cx : Nat := 0
  len : Nat := 2
  slots : List (Nat × Instr) := []
  branch : Option Word := none
  loop : Option Loop := none
  ret : Bool := false
  deriving DecidableEq, Repr, Inhabited

/-- The whole machine. The first five fields, and lag, which an engine's step sets while it puts off its writes (14 R308), are the
model's own (log entries 3 to 5, 15). -/
structure State where
  sched : List (Nat × Instr) := []
  free : Nat := 0
  cur : Nat := 0
  issue : Issue := {}
  now : Nat := 0
  mem : List Host.Cell := []
  poison : List Nat := []
  ctxs : Tbl Ctx := []
  cores : Tbl Core := []
  quads : Tbl Quad := []
  dies : Tbl Die := []
  vats : Tbl Vat := []
  mods : Tbl Modu := []
  fars : Tbl FarReq := []
  uid : Nat := 0
  colls : List CollRun := []
  parity : List (Nat × Bool) := []
  lag : Bool := false
  deriving DecidableEq, Repr, Inhabited

/-- Reasons a step can stop with a fault. -/
inductive Fault where
  /-- An access to an address that the specification says does not exist reached a unit outside its own checks.
  Raised by no instruction of the table on its own; kept for the host's interface. Safe: the model stops. -/
  | noSuchAddress (addr : Nat)
  deriving DecidableEq, Repr

/-- Reasons a step can be refused. -/
inductive Refusal where
  /-- An instruction that has no meaning yet, by its mnemonic. Safe: the model stops. -/
  | notModelled (mnemonic : String)
  deriving DecidableEq, Repr

/-- The machine right after reset: every table empty, so that every register, queue and unit holds its reset value
(21 R433, 11 R225, 12 R255, 13 R291, R298, 16 R339, 20 Table 20.4, 21 Table 21.2; log entries 1, 2, 6, 20 to 22). -/
def State.reset : State := {}

end Sys2Proof.Machine
end

