-- ==== Sys2Proof/Machine/Ops.lean ====
section
/-! DEFINITION. Named operations on the state: keys, registers, the landing buffer and its delivery (02 R47 to R55,
03 R56 to R79), memory bytes, poison, taking a trap and returning from one (17 R355 to R362). -/

namespace Sys2Proof.Machine

/- Keys -/
def coreOf (cx : Nat) : Nat := cx / 4
def quadOf (cx : Nat) : Nat := cx / 16
def dieOf (cx : Nat) : Nat := cx / 512
def modOf (cx : Nat) : Nat := cx / 4096
/-- The register COREID of a core key (01 R10). -/
def coreId (core : Nat) : Nat := core % 128

/- Tables of the state -/
def State.ctx (s : State) (cx : Nat) : Ctx := tget s.ctxs cx
def State.setCtx (s : State) (cx : Nat) (c : Ctx) : State := { s with ctxs := tset s.ctxs cx c }
def State.updCtx (s : State) (cx : Nat) (f : Ctx → Ctx) : State := s.setCtx cx (f (s.ctx cx))
def State.core (s : State) (k : Nat) : Core := tget s.cores k
def State.setCore (s : State) (k : Nat) (c : Core) : State := { s with cores := tset s.cores k c }
def State.updCore (s : State) (k : Nat) (f : Core → Core) : State := s.setCore k (f (s.core k))
def State.quad (s : State) (k : Nat) : Quad := tget s.quads k
def State.setQuad (s : State) (k : Nat) (q : Quad) : State := { s with quads := tset s.quads k q }
def State.updQuad (s : State) (k : Nat) (f : Quad → Quad) : State := s.setQuad k (f (s.quad k))
def State.die (s : State) (k : Nat) : Die := tget s.dies k
def State.setDie (s : State) (k : Nat) (d : Die) : State := { s with dies := tset s.dies k d }
def State.updDie (s : State) (k : Nat) (f : Die → Die) : State := s.setDie k (f (s.die k))
def State.vat (s : State) (k : Nat) : Vat := tget s.vats k
def State.setVat (s : State) (k : Nat) (v : Vat) : State := { s with vats := tset s.vats k v }
def State.updVat (s : State) (k : Nat) (f : Vat → Vat) : State := s.setVat k (f (s.vat k))
def State.modu (s : State) (k : Nat) : Modu := tget s.mods k
def State.setMod (s : State) (k : Nat) (m : Modu) : State := { s with mods := tset s.mods k m }
def State.updMod (s : State) (k : Nat) (f : Modu → Modu) : State := s.setMod k (f (s.modu k))
/-- Between the parts of a bundle no machine event takes place; in a halted module no engine and no flue acts (20 R428). -/
def State.stopped (s : State) (md : Nat) : Bool := s.issue.active || (s.modu md).halted
/-- The context whose bundle is executing. -/
def State.cc (s : State) : Ctx := s.ctx s.cur
def State.updCur (s : State) (f : Ctx → Ctx) : State := s.updCtx s.cur f

/-- The wheel a context holds. -/
def Ctx.wid (c : Ctx) : WheelId := c.wheel.getD {}
/-- The vat of a context. -/
def Ctx.vatKey (c : Ctx) : Nat := c.wid.vat

/- Stamped objects -/
/-- What an instruction issued in this cycle sees. -/
def Stamped.seen {α : Type} (x : Stamped α) (now : Nat) : α := if x.at_ = now then x.prev else x.cur
/-- A change made in this cycle. -/
def Stamped.put {α : Type} (x : Stamped α) (now : Nat) (v : α) : Stamped α := ⟨v, x.seen now, now⟩

/- Registers: s0, p0 and k0 read a fixed value and discard writes (03 R56). -/
def Ctx.sr (c : Ctx) (n : Nat) : Word := if n = 0 then 0 else tget c.s n
def Ctx.pr (c : Ctx) (n : Nat) : Bool := n == 0 || tget c.p n
def Ctx.kr (c : Ctx) (n : Nat) : Mask := if n = 0 then BitVec.allOnes 128 else tget c.k n
def Ctx.or (c : Ctx) (n : Nat) : Row := tget c.o n
def Ctx.putS (c : Ctx) (n : Nat) (v : Word) : Ctx := if n = 0 then c else { c with s := tset c.s n v }
def Ctx.putP (c : Ctx) (n : Nat) (v : Bool) : Ctx := if n = 0 then c else { c with p := tset c.p n v }
def Ctx.putK (c : Ctx) (n : Nat) (v : Mask) : Ctx := if n = 0 then c else { c with k := tset c.k n v }
def Ctx.putO (c : Ctx) (n : Nat) (v : Row) : Ctx := { c with o := tset c.o n v }

/-- A physical pane row of a core. -/
def Core.row (c : Core) (ph r : Nat) : Row := tget c.panes (64 * ph + r)
def Core.setRow (c : Core) (ph r : Nat) (v : Row) : Core := { c with panes := tset c.panes (64 * ph + r) v }

/- Trap levels -/
def Ctx.lv (c : Ctx) : LevelSt := if c.level = 0 then c.l0 else c.l1
def Ctx.setLv (c : Ctx) (l : LevelSt) : Ctx := if c.level = 0 then { c with l0 := l } else { c with l1 := l }

/-- The bits of the enabled elements of a register (02 R50). -/
def laneBits (esz n en : Nat) : Nat :=
  (List.range n).foldl (fun a i => if en.testBit i then a + (2 ^ esz - 1) * 2 ^ (esz * i) else a) 0

/-- A row with the bits of a mask taken from another. -/
def rowMerge (old new m : Row) : Row := old ^^^ ((old ^^^ new) &&& m)

/-- Row and element column of a pane access (03 R63, PaneCell). -/
def paneCell (d : Dir) (x i e : Nat) : Nat × Nat :=
  let ncol := 1024 / e
  match d with
  | .row => (x, i)
  | _ =>
    let (row, k, j) := if e = 32 then (32 * (x / 32) + i, x % 32, i) else (i % 64, x + 64 * (i / 64), i % 64)
    match d with
    | .col => (row, k)
    | _ => (row, (j + k) % ncol)

/-- One element of a pane. -/
def Core.cell (c : Core) (ph row k e : Nat) : Nat := (c.row ph row).toNat / 2 ^ (e * k) % 2 ^ e
/-- One element of a pane written. -/
def Core.setCell (c : Core) (ph row k e v : Nat) : Core :=
  c.setRow ph row (rowMerge (c.row ph row) (BitVec.ofNat 1024 (v * 2 ^ (e * k))) (BitVec.ofNat 1024 ((2 ^ e - 1) * 2 ^ (e * k))))

/-- A register loses its poison mark (20 Table 20.1). -/
def Ctx.unmark (c : Ctx) (r : RegId) : Ctx := { c with marks := c.marks.filter (· != r) }
/-- Control registers written whole lose theirs. -/
def Ctx.unmarkCsrs (c : Ctx) (ns : List Nat) : Ctx := ns.foldl (fun c n => c.unmark (.csr n)) c
/-- The registers and rows that a delivery writes. -/
def Landing.touched (e : Landing) : List RegId :=
  match e.dest with
  | .sreg n => if n = 0 then [] else [.s (Fin.ofNat 64 n)]
  | .preg n => if n = 0 then [] else [.p (Fin.ofNat 8 n)]
  | .kreg n => if n = 0 ∨ e.en = 0 then [] else [.k (Fin.ofNat 8 n)]
  | .oreg n => if e.en = 0 then [] else [.o (Fin.ofNat 16 n)]
  | .pane ph .row x => if e.en = 0 then [] else [.row ph x]
  | .pane ph d x => (((List.range e.n).filter e.en.testBit).map fun j => RegId.row ph (paneCell d x j e.esz).1).eraseDups
  | .paneImg ph => (List.range 64).map (.row ph)
  | .key => [.csr 1]
  | .status => [.csr 2]
  | .csr n => [.csr n]
  | .none => []
/-- The registers and rows that a delivery writes whole. -/
def Landing.whole (e : Landing) : List RegId :=
  match e.dest with
  | .sreg _ => e.touched
  | .preg _ => e.touched
  | .kreg _ => if e.en % 2 ^ e.n + 1 = 2 ^ e.n then e.touched else []
  | .oreg _ => if e.esz * e.n = 1024 ∧ e.en + 1 = 2 ^ e.n then e.touched else []
  | .pane _ .row _ => if e.esz * e.n = 1024 ∧ e.en + 1 = 2 ^ e.n then e.touched else []
  | .paneImg _ => e.touched
  | .key => e.touched
  | .status => e.touched
  | .csr _ => e.touched
  | _ => []
/-- The latch a delivery writes. -/
def Landing.latch (e : Landing) : List RegId := (e.lat.map RegId.lat).toList

/-- Writing a privileged register (17 Table 17.2). -/
def Ctx.putCsr (c : Ctx) (n : Nat) (v : Word) : Ctx :=
  if n = 0x100 then { c with cause := v } else if n = 0x101 then { c with epc := v }
  else if n = 0x102 then { c with tval := v } else if n = 0x103 then { c with tvec := v } else c

/-- A delivered result written to its destination, enabled elements only (02 R50, 03 R65, R66, 08 R173). -/
def writeDest (x : Ctx × Core) (e : Landing) : Ctx × Core :=
  let (c, k) := x
  let m : Row := BitVec.ofNat 1024 (laneBits e.esz e.n e.en)
  match e.dest with
  | .sreg n => (c.putS n (BitVec.ofNat 64 e.value.toNat), k)
  | .preg n => (c.putP n (e.value.getLsbD 0), k)
  | .kreg n =>
    let old := c.kr n
    let en := BitVec.ofNat 128 (e.en % 2 ^ e.n)
    let keep := BitVec.ofNat 128 (2 ^ e.n - 1)
    (c.putK n ((old ^^^ ((old ^^^ BitVec.ofNat 128 e.value.toNat) &&& en)) &&& keep), k)
  | .oreg n => (c.putO n (rowMerge (c.or n) e.value m), k)
  | .key => ({ c with key := BitVec.ofNat 64 e.value.toNat }, k)
  | .status => ({ c with status := BitVec.ofNat 64 e.value.toNat }, k)
  | .csr n => (c.putCsr n (BitVec.ofNat 64 e.value.toNat), k)
  | .pane ph .row r => (c, k.setRow ph r (rowMerge (k.row ph r) e.value m))
  | .pane ph d r =>
    (c, (List.range e.n).foldl (fun k i =>
      if e.en.testBit i then
        let (row, col) := paneCell d r i e.esz
        k.setCell ph row col e.esz (e.value.toNat / 2 ^ (e.esz * i) % 2 ^ e.esz)
      else k) k)
  | .paneImg ph => (c, (e.img.zipIdx).foldl (fun k x => k.setRow ph x.2 x.1) k)
  | .none => (c, k)

/-- Delivery of one result: its destination, its latch (03 R67), and poison (20 Table 20.1): an entry that an error struck
marks every register and row it writes, another clears the marks of those it writes whole. -/
def deliverOne (x : Ctx × Core) (e : Landing) : Ctx × Core :=
  let (c, k) := writeDest x e
  let c := if e.bad then { c with marks := e.touched ++ e.latch ++ c.marks } else (e.whole ++ e.latch).foldl Ctx.unmark c
  match e.lat with
  | some false => ({ c with lat0 := e.value }, k)
  | some true => ({ c with lat1 := e.value }, k)
  | none => (c, k)

/-- Whether a result is a STATUS write. -/
def Landing.isStatus (e : Landing) : Bool := e.dest == .status

/-- Delivery of the results of one bundle in the order of R49; a STATUS write comes before the flags of the others
(03 R78). -/
def deliverList (x : Ctx × Core) (es : List Landing) : Ctx × Core :=
  let (c, k) := (es.filter (·.isStatus)).foldl deliverOne x
  let (c, k) := (es.filter (!·.isStatus)).foldl deliverOne (c, k)
  let fl := es.foldl (fun f e => f ||| e.flags) 0
  ({ c with status := c.status ||| BitVec.setWidth 64 fl }, k)

/-- A landing buffer keeps its entries by issue sequence, then slot (02 R49). -/
def landInsert : List Landing → Landing → List Landing
  | [], e => [e]
  | x :: t, e =>
    if e.seq < x.seq ∨ (e.seq = x.seq ∧ e.slot < x.slot) then e :: x :: t else x :: landInsert t e

/-- A new result in the landing buffer of the context's level. -/
def Ctx.push (c : Ctx) (e : Landing) : Ctx := c.setLv { c.lv with land := landInsert c.lv.land e }

/-- A result of latency L issued by the running bundle (02 R47). -/
def State.land (s : State) (slot L : Nat) (e : Landing) : State :=
  s.updCur fun c => c.push { e with rem := L - 1, seq := c.seq, slot := slot }

/-- A scalar result. -/
def State.landS (s : State) (slot L : Nat) (d : SReg) (v : Word) : State :=
  s.land slot L { dest := .sreg d.val, value := BitVec.setWidth 1024 v }
/-- A predicate result. -/
def State.landP (s : State) (slot L : Nat) (d : PReg) (v : Bool) : State :=
  s.land slot L { dest := .preg d.val, value := if v then 1 else 0 }

/-- FMT takes a pending value whose count has run out (02 R54). -/
def Ctx.fmtDue (c : Ctx) : Ctx :=
  match c.lv.fmtp with
  | some p => if p.rem = 0 then { (c.setLv { c.lv with fmtp := none }).unmarkCsrs [0] with fmt := p.value } else c
  | none => c

/-- Results that are due reach their registers (02 R47). -/
def State.deliverDue (s : State) (cx : Nat) : State :=
  let c := (s.ctx cx).fmtDue
  let due := c.lv.land.filter (·.rem == 0)
  let rest := c.lv.land.filter (·.rem != 0)
  let (c', k) := deliverList (c.setLv { c.lv with land := rest }, s.core (coreOf cx)) due
  (s.setCtx cx c').setCore (coreOf cx) k

/-- Every result of the level is delivered whatever its count, and a pending FMT write takes effect (07 R162,
17 R362). -/
def State.deliverAll (s : State) (cx : Nat) : State :=
  let c := s.ctx cx
  let all := c.lv.land
  let done := c.setLv { c.lv with land := [], fmtp := none }
  let c := match c.lv.fmtp with | some p => { done.unmarkCsrs [0] with fmt := p.value } | none => done
  let (c', k) := deliverList (c, s.core (coreOf cx)) all
  (s.setCtx cx c').setCore (coreOf cx) k

/-- The bundle counts: every remaining result and pending FMT write of the level comes one bundle nearer. -/
def Ctx.countDown (c : Ctx) : Ctx :=
  c.setLv { c.lv with
    land := c.lv.land.map fun e => { e with rem := e.rem - 1 },
    fmtp := c.lv.fmtp.map fun p => { p with rem := p.rem - 1 } }

/- Little-endian bytes -/
def leBytes : Nat → Nat → List Byte
  | 0, _ => []
  | n + 1, v => BitVec.ofNat 8 v :: leBytes n (v / 256)
def leNat : List Byte → Nat
  | [] => 0
  | b :: t => b.toNat + 256 * leNat t

/- Locations: byte off of die D's HBM4E is D * 2^39 + off; byte off of a core's scratchpad is
2^52 + core * 2^20 + off (14 R307). -/
def spadBase : Nat := 2 ^ 52
def spadLoc (core off : Nat) : Nat := spadBase + core * 2 ^ 20 + off
def isSpad (loc : Nat) : Bool := decide (spadBase ≤ loc)
def spadCore (loc : Nat) : Nat := (loc - spadBase) / 2 ^ 20
/-- Bytes of HBM4E of a die: 288 GB, decimal (00 R7, 17 R370). -/
def hbmBytes : Nat := 288000000000
/-- The location of a module's physical address, where it names HBM4E (17 R369). -/
def paLoc (md pa : Nat) : Option Nat :=
  if pa < 2 ^ 42 ∧ pa % 2 ^ 39 < hbmBytes then some ((8 * md + pa / 2 ^ 39) * 2 ^ 39 + pa % 2 ^ 39) else none

/-- What a byte of memory holds. A scratchpad byte with no defined value is free (01 Table 1.3; log entry 7). -/
def State.byte (s : State) (loc : Nat) : Byte :=
  if isSpad loc then
    let q := s.quad (spadCore loc / 4)
    if q.defd.contains loc then cellGet s.mem loc else Config.freeByte q.epoch loc
  else cellGet s.mem loc

/-- A byte written; a scratchpad byte then has a defined value. -/
def State.setByte (s : State) (loc : Nat) (b : Byte) : State :=
  let s := { s with mem := cellSet s.mem loc b }
  if isSpad loc then s.updQuad (spadCore loc / 4) fun q => { q with defd := nsAdd q.defd loc } else s

/-- The bytes of a list of locations. -/
def State.bytesAt (s : State) (locs : List Nat) : List Byte := locs.map s.byte
/-- Bytes written at a list of locations. -/
def State.setBytes (s : State) (ws : List (Nat × Byte)) : State := ws.foldl (fun s w => s.setByte w.1 w.2) s
/-- n bytes from a location, as a little-endian number. -/
def State.rd (s : State) (loc n : Nat) : Nat := leNat ((List.range n).map fun i => s.byte (loc + i))

/-- Whether a byte lies in a poisoned unit (10 R209). -/
def State.isBad (s : State) (loc : Nat) : Bool := s.poison.contains (loc / 32)
/-- Whether a byte lies in a stack that recalibrates: accesses to it wait (20 R424; log entry 89). -/
def State.hbmBusy (s : State) (loc : Nat) : Bool :=
  !isSpad loc && match (s.die (loc / 2 ^ 39)).hbmRecal with
    | some k => Config.hbmStack loc == k
    | none => false
/-- Whether one of some bytes lies in a stack that recalibrates. -/
def State.hbmWaits (s : State) (locs : List Nat) : Bool := locs.any s.hbmBusy
def State.setBad (s : State) (unit : Nat) : State := { s with poison := nsAdd s.poison unit }
def State.clearBad (s : State) (unit : Nat) : State := { s with poison := nsDel s.poison unit }
/-- Marks of units that a set of written bytes covers whole are cleared (10 Table 10.4). -/
def State.healWhole (s : State) (locs : List Nat) : State :=
  { s with poison := s.poison.filter fun u => !((List.range 32).all fun i => locs.contains (32 * u + i)) }

/- Cause codes (17 Table 17.1) -/
def cCODEWORD : Nat := 0x01
def cBUNDLE : Nat := 0x02
def cOPCODE : Nat := 0x03
def cRANGE : Nat := 0x04
def cPRIV : Nat := 0x05
def cALIGN : Nat := 0x06
def cMISS : Nat := 0x07
def cPERM : Nat := 0x08
def cFARPOISON : Nat := 0x09
def cFARTIMEOUT : Nat := 0x0A
def cBREAK : Nat := 0x0B
def cEMBER : Nat := 0x0C
def cCRC : Nat := 0x11
def cLEASE : Nat := 0x12
def cBANK : Nat := 0x13
def cBBOVF : Nat := 0x14
def cHOOP : Nat := 0x15
def cLAYOUT : Nat := 0x16
def cPOISON : Nat := 0x17
def cQUEUE : Nat := 0x18
def cCOUNTER : Nat := 0x19
def cSTAGED : Nat := 0x1A
def cCANCEL : Nat := 0x1F

/-- A trap as its raising rule gives it: code, slot recorded, TVAL. -/
structure Trap where
  code : Nat
  slot : Nat
  tval : Nat
  deriving DecidableEq, Repr, Inhabited

/-- An error entry added to a vat's record (16 R347). -/
def Vat.addEntry (v : Vat) (e : RecEntry) : Vat :=
  { v with entries := if v.entries.length < 12 then v.entries ++ [e] else v.entries,
           entryCount := min (v.entryCount + 1) 65535 }

/-- The gang a wheel belongs to (16 Table 16.1): none for a vat without gangs and for a spawned wheel. -/
def Vat.gangOf (v : Vat) (idx : Nat) : Option Nat :=
  if v.desc.gang = 255 ∨ v.desc.wheels ≤ idx then none else some (idx / 2 ^ v.desc.gang)

/-- A preload that a vat holds up is to be judged again (16 R350). -/
def State.askPreload (s : State) (vat : Nat) (on : Nat → Bool) : State :=
  { s with quads := s.quads.map fun q => match q.2.preload with
      | some p => if p.2.2 = vat ∧ on q.1 then (q.1, { q.2 with preTest := true }) else q
      | none => q }

/-- A wheel ends by a fault: it issues no further bundle, its pending results at every level are discarded, an invalidation under way
goes on (17 R374), its gang is broken, the record gains an entry, and a preload on its quad is to be judged again (01 R20, 07 R163, 16 R346, R347, R350, 17 R356,
R357). -/
def State.endByFault (s : State) (cx code tval : Nat) : State :=
  let c := s.ctx cx
  let w := c.wid
  let s := s.setCtx cx { c with
    phase := .faulting, endFault := some (code, tval), barIn := none,
    l0 := { c.l0 with land := [], fmtp := none, loops := [] },
    l1 := { c.l1 with land := [], fmtp := none, loops := [] } }
  (s.askPreload w.vat (· == quadOf cx)).updVat w.vat fun v =>
    let v := v.addEntry { addr := tval, who := w.idx, core := coreId (coreOf cx), die := dieOf cx % 8, cause := code }
    match v.gangOf w.idx with
    | some g => { v with broken := if thas v.broken g then v.broken else tset v.broken g s.now }
    | none => v

/-- TakeTrap of 17 R356: a is the address EPC takes, b the bundle that raised the trap. Results visible to the
trapping bundle are delivered first; the others of level 0 stay frozen. A wheel whose wheel.end had issued runs its handler, and ends when
that returns (log entry 119). -/
def State.takeTrapAt (s : State) (cx : Nat) (t : Trap) (a b : Word) : State :=
  let s := s.deliverDue cx
  let c := s.ctx cx
  if c.level = 1 ∨ c.tvec = 0 then s.endByFault cx t.code t.tval
  else s.setCtx cx { c.unmarkCsrs [0x100, 0x101, 0x102, 0x105, 0x106] with
    phase := if c.phase = .ending then .running else c.phase, endAfter := c.phase == .ending,
    cause := BitVec.ofNat 64 (t.code + t.slot * 256), epc := a, tval := BitVec.ofNat 64 t.tval, tbundle := b,
    level := 1, pc := c.tvec, l1 := { c.l1 with loops := [] } }

/-- An issue trap of the running bundle. -/
def State.takeTrap (s : State) (t : Trap) : State := s.takeTrapAt s.cur t s.cc.pc s.cc.pc

/-- The return from level 1 (17 R362): level-1 results are delivered, the level-1 loop stack is discarded, TLEVEL
becomes 0 and the next bundle is fetched from EPC; a wheel whose wheel.end had issued before the trap ends (log entry 119). -/
def State.trapReturn (s : State) : State :=
  let s := s.deliverAll s.cur
  let s := s.updCur fun c => { c.unmarkCsrs [0x105] with
    level := 0, pc := c.epc, l1 := { c.l1 with loops := [] }, phase := if c.endAfter then .ending else c.phase, endAfter := false }
  { s with issue := { s.issue with ret := true } }

end Sys2Proof.Machine
end

