-- ==== Sys2Proof/Machine/Flags.lean ====
section
/-! DEFINITION. FMT and STATUS: their fields, the values they accept, the rounding modes instructions take from them
(03 R77, R78, 08 R166, R183). -/

namespace Sys2Proof.Machine

/-- FMT.RM, FMT.SRK and FMT.SATF (03 Table 3.6). -/
def fmtRm (f : Word) : Nat := f.toNat % 8
def fmtSrk (f : Word) : Nat := f.toNat / 8 % 32
def fmtSatf (f : Word) : Bool := f.getLsbD 8

/-- Values FMT accepts (03 R77). -/
def fmtLegal (f : Word) : Bool := decide (f.toNat < 512) && decide (fmtRm f < 5) && decide (fmtSrk f < 25)
/-- Values STATUS accepts (03 R78). -/
def statusLegal (v : Word) : Bool := decide (v.toNat < 32)

/-- A rounding mode of an RM code; code 4 is stochastic. -/
def rmMode (rm k : Nat) (key : BitVec 64) : Mode :=
  match rm with
  | 0 => .rne | 1 => .rtz | 2 => .rpi | 3 => .rni | _ => .sr k key

/-- The mode of vector arithmetic: stochastic rounding has no random source and takes k = 0 (08 R166). -/
def arithMode (f : Word) : Mode := rmMode (fmtRm f) 0 0

/-- The mode an RSEL selects; 7 takes RM and SRK from FMT (08 R182, R183). The key is the element's random word. -/
def rselMode (f : Word) (rsel : BitVec 3) (key : BitVec 64) : Mode :=
  if rsel = 7 then rmMode (fmtRm f) (fmtSrk f) key else rmMode rsel.toNat (fmtSrk f) key

/-- The newest value of FMT: the pending one where a write is pending (07 R157). -/
def Ctx.fmtBase (c : Ctx) : Word :=
  match c.lv.fmtp with
  | some p => p.value
  | none => c.fmt

/-- A write of FMT issues: an earlier pending write is discarded (02 R54, R55). -/
def Ctx.writeFmt (c : Ctx) (v : Word) : Ctx := c.setLv { c.lv with fmtp := some ⟨v, 4⟩ }

end Sys2Proof.Machine
end

