-- ==== Sys2Proof/Machine/Xlat.lean ====
section
/-! DEFINITION. Address regions (10 R201), range entries and the page table (17 R369 to R373), and the check that an
access makes at issue (10 R201 to R203). -/

namespace Sys2Proof.Machine

/-- The module of a vat. -/
def vatMod (vat : Nat) : Nat := vat / 2 ^ 32

/-- Whether a run of physical bytes lies in one die's HBM4E. -/
def paRunOk (pa last : Nat) : Bool :=
  decide (pa / 2 ^ 39 = last / 2 ^ 39) && decide (last < 2 ^ 42) && decide (last % 2 ^ 39 < hbmBytes)

/-- The fields of a range entry (17 Table 17.5). -/
structure RangeEntry where
  base : Nat := 0
  limit : Nat := 0
  phys : Nat := 0
  attr : Nat := 0
  deriving DecidableEq, Repr, Inhabited

def RangeEntry.valid (e : RangeEntry) : Bool := e.attr % 2 == 1
/-- Well formed (17 R370 item 3). -/
def RangeEntry.ok (e : RangeEntry) : Bool :=
  decide (e.attr < 32) && decide (e.attr / 16 % 4 < 2) && e.base % 4096 == 0 && (e.limit + 1) % 4096 == 0 && e.phys % 4096 == 0
  && decide (2 ^ 32 ≤ e.base) && decide (e.base ≤ e.limit) && decide (e.limit < 2 ^ 56)
  && paRunOk e.phys (e.phys + (e.limit - e.base))

/-- Range entry i of a vat as its translation table holds it. -/
def State.rangeEntry (s : State) (vat i : Nat) : RangeEntry :=
  match paLoc (vatMod vat) (s.vat vat).desc.xlat with
  | none => {}
  | some l =>
    let a := l + 64 + 32 * i
    { base := s.rd a 8, limit := s.rd (a + 8) 8, phys := s.rd (a + 16) 8, attr := s.rd (a + 24) 8 }

/-- The translation of one page through a range entry. -/
def rangeXlat (vat i va : Nat) (e : RangeEntry) : Option Xlat :=
  if e.ok then
    (paLoc (vatMod vat) (e.phys + (va / 4096 * 4096 - e.base))).map fun l =>
      { vat := vat, page := va / 4096, loc := l, r := e.attr / 2 % 2 == 1, w := e.attr / 4 % 2 == 1,
        x := e.attr / 8 % 2 == 1, cached := e.attr / 16 % 4 == 0, resident := true, range := some i }
  else none

/-- A page-table walk from a table at a level (17 R371). -/
def State.walkTable (s : State) (vat va : Nat) : Nat → Nat → Option Xlat
  | 0, table => walkEntry s vat va 0 table fun _ => none
  | l + 1, table => walkEntry s vat va (l + 1) table fun next => s.walkTable vat va l next
where
  /-- One entry of the walk (17 Table 17.6). A leaf that ends beyond its die's memory translates no address (log entry 148). -/
  walkEntry (s : State) (vat va level table : Nat) (deeper : Nat → Option Xlat) : Option Xlat :=
    let idx := if level = 3 then va / 2 ^ 39 % 2 ^ 17 else va / 2 ^ (12 + 9 * level) % 512
    match paLoc (vatMod vat) (table + 8 * idx) with
    | none => none
    | some l =>
      let e := s.rd l 8
      let addr := e % 2 ^ 42 / 4096 * 4096
      if e % 2 = 0 ∨ e / 2 ^ 42 ≠ 0 ∨ e / 256 % 16 ≠ 0 then none
      else if e / 2 % 2 = 1 then
        let size := 2 ^ (12 + 9 * level)
        if level = 3 ∨ e / 32 % 4 ≥ 2 ∨ addr % size ≠ 0 ∨ !paRunOk addr (addr + size - 1) then none
        else
          (paLoc (vatMod vat) (addr + va % size / 4096 * 4096)).map fun l =>
            { vat := vat, page := va / 4096, loc := l, r := e / 4 % 2 == 1, w := e / 8 % 2 == 1, x := e / 16 % 2 == 1,
              cached := e / 32 % 4 == 0, resident := e / 128 % 2 == 1, size := size, range := none }
      else if level = 0 then none
      else deeper addr

/-- The translation of a global virtual address by the tables as they stand (17 R370). -/
def State.walk (s : State) (vat va : Nat) : Option Xlat :=
  let n := (s.vat vat).desc.ranges
  let hit := (List.range n).find? fun i =>
    let e := s.rangeEntry vat i
    e.valid && decide (e.base ≤ va) && decide (va ≤ e.limit)
  match hit with
  | some i => rangeXlat vat i va (s.rangeEntry vat i)
  | none =>
    match paLoc (vatMod vat) (s.vat vat).desc.xlat with
    | none => none
    | some l =>
      let root := s.rd l 8
      if root = 0 ∨ root % 4096 ≠ 0 then none else s.walkTable vat va 3 root

/-- The table entries that a walk from a table at a level reads. -/
def State.tableLocs (s : State) (vat va : Nat) : Nat → Nat → List Nat
  | 0, table => (entryLoc 0 table).toList
  | l + 1, table => match entryLoc (l + 1) table with
    | none => []
    | some loc =>
      let e := s.rd loc 8
      loc :: if e % 4 = 1 then s.tableLocs vat va l (e % 2 ^ 42 / 4096 * 4096) else []
where
  /-- Where the entry of one level lies. -/
  entryLoc (level table : Nat) : Option Nat :=
    paLoc (vatMod vat) (table + 8 * if level = 3 then va / 2 ^ 39 % 2 ^ 17 else va / 2 ^ (12 + 9 * level) % 512)

/-- Whether a stack of HBM4E recalibrates. -/
def State.recal (s : State) : Bool := s.dies.any fun d => d.2.hbmRecal.isSome
/-- Whether a walk reads a table in a stack that recalibrates: it waits (20 R424). -/
def State.walkHeld (s : State) (vat va : Nat) : Bool :=
  s.recal && match paLoc (vatMod vat) (s.vat vat).desc.xlat with
    | none => false
    | some l => s.hbmWaits ([l] ++ (List.range (s.vat vat).desc.ranges).map (fun i => l + 64 + 32 * i) ++ s.tableLocs vat va 3 (s.rd l 8))

/-- A cached translation. -/
def tlbFind (tlb : List Xlat) (vat va : Nat) : Option Xlat := tlb.find? fun x => x.vat == vat && x.page == va / 4096

/-- Whether a valid range entry holds a page only in part: a malformed one, whose addresses have no translation (17 R370). -/
def State.splitPage (s : State) (vat page : Nat) : Bool :=
  (List.range (s.vat vat).desc.ranges).any fun i =>
    let e := s.rangeEntry vat i
    e.valid && ((e.base / 4096 == page && e.base % 4096 != 0) || (e.limit / 4096 == page && (e.limit + 1) % 4096 != 0))

/-- The translation a unit would use, and whether it is cached (17 R373). A page that a range entry holds in part is never cached
as a whole: each of its addresses is walked at its use. -/
def State.xlat (s : State) (tlb : List Xlat) (vat va : Nat) : Option Xlat × Bool :=
  match tlbFind tlb vat va with
  | some x => (some x, true)
  | none => (s.walk vat va, s.splitPage vat (va / 4096))

/-- A region of 10 Table 10.1 with its first and last byte. -/
inductive Region where
  | own
  | quad (j : Nat)
  | glob
  deriving DecidableEq, Repr, Inhabited

/-- The region that holds an address, and its last byte. -/
def regionOf (ea : Nat) : Option (Region × Nat) :=
  if ea < 2 ^ 20 then some (.own, 2 ^ 20 - 1)
  else if ea < 0x500000 then some (.quad (ea / 2 ^ 20 - 1), (ea / 2 ^ 20 + 1) * 2 ^ 20 - 1)
  else if 2 ^ 32 ≤ ea ∧ ea < 2 ^ 56 then some (.glob, 2 ^ 56 - 1)
  else none

/-- Whether a core is absent: retired, or its quad or die isolated (20 R422, R423). -/
def State.coreAbsent (s : State) (core : Nat) : Bool :=
  (s.core core).retired || (s.quad (core / 4)).isolated

/-- The core whose scratchpad a scratchpad region names, seen from a core. -/
def regionCore (core : Nat) : Region → Nat
  | .own => core
  | .quad j => core / 4 * 4 + j
  | .glob => 0

/-- What the address check of an access answers. -/
inductive Acc where
  | ok (locs : List Nat) (cached : Bool)
  | trap (code tval : Nat)
  | wait
  deriving DecidableEq, Repr, Inhabited

/-- The pages of a global access. -/
def pagesOf (ea size : Nat) : List Nat := (List.range ((ea + size - 1) / 4096 - ea / 4096 + 1)).map (· + ea / 4096)

/-- The addresses at which the translation of an access is looked up: the first of each page, and every one on a page that a range
entry holds in part. -/
def State.pieces (s : State) (tlb : List Xlat) (vat ea size : Nat) : List Nat :=
  (pagesOf ea size).flatMap fun p =>
    if (tlbFind tlb vat (p * 4096)).isNone && s.splitPage vat p then
      ((List.range 4096).map (4096 * p + ·)).filter fun a => decide (ea ≤ a) && decide (a < ea + size)
    else [max ea (p * 4096)]

/-- The check of a global access: a missing translation first, then a missing right, then a page not yet cached. An access is
served by the L1 where every page it touches is cacheable (10 R207; log entry 105). -/
def State.accessGlobal (s : State) (tlb : List Xlat) (vat ea size : Nat) (r w : Bool) : Acc :=
  let xs := (s.pieces tlb vat ea size).map fun a => (a, s.xlat tlb vat a)
  if xs.any fun x => (tlbFind tlb vat x.1).isNone && s.walkHeld vat x.1 then .wait
  else match xs.find? (fun x => match x.2.1 with | none => true | some t => !t.resident) with
  | some x => .trap cMISS x.1
  | none =>
    match xs.find? (fun x => match x.2.1 with | none => false | some t => (r && !t.r) || (w && !t.w)) with
    | some x => .trap cPERM x.1
    | none =>
      if xs.any (fun x => !x.2.2) then .wait
      else
        let loc (a : Nat) : Nat := match xs.find? (fun x => x.1 / 4096 == a / 4096) with
          | some (_, some t, _) => t.loc + a % 4096
          | _ => 0
        .ok ((List.range size).map fun j => loc (ea + j))
          (xs.all fun x => match x.2.1 with | some t => t.cached | none => false)

/-- The address check of a load, store or atomic of a context (10 R201, R202, R203). An access that starts in the window of a core that is
retired traps there (20 R423); one that runs on into such a window leaves its own region at the window's first byte. -/
def State.access (s : State) (cx ea size : Nat) (r w : Bool) : Acc :=
  match regionOf ea with
  | none => .trap cMISS ea
  | some (reg, last) =>
    match reg with
    | .glob => if last < ea + size - 1 then .trap cMISS (last + 1) else s.accessGlobal (s.core (coreOf cx)).tlb (s.ctx cx).vatKey ea size r w
    | reg =>
      let k := regionCore (coreOf cx) reg
      if s.coreAbsent k then .trap cMISS ea
      else if last < ea + size - 1 then .trap cMISS (last + 1)
      else .ok ((List.range size).map fun j => spadLoc k ((ea + j) % 2 ^ 20)) false

/-- Whether bytes lie wholly inside one scratchpad of Table 10.1 (11 R231). -/
def inOneSpad (ea size : Nat) : Bool :=
  match regionOf ea with
  | some (.glob, _) => false
  | some (_, last) => decide (ea + size - 1 ≤ last)
  | none => false

/-- The location of a scratchpad address seen from a core. -/
def spadAddr (core ea : Nat) : Nat :=
  match regionOf ea with
  | some (reg, _) => spadLoc (regionCore core reg) (ea % 2 ^ 20)
  | none => 0

end Sys2Proof.Machine
end

