-- ==== Sys2Proof/Machine/Mem.lean ====
section
/-! DEFINITION. The two queues of a context (10 R205 to R210, R218 to R222): placing operations at issue, performing
them at their instants (14 R308 to R313), returning loads to their destinations (07 R51, R153). -/

namespace Sys2Proof.Machine

/-- The effective address of an LM, LP or LX instruction (10 R200). -/
def Ctx.ea (c : Ctx) (a : SReg) (off : BitVec 14) (scale : Nat) : Nat :=
  (c.sr a.val + BitVec.signExtend 64 off * BitVec.ofNat 64 scale).toNat

/- Counters -/

/-- The value of an outstanding-operation counter (07 R152, R153). -/
def Ctx.cnt (c : Ctx) (cls : Nat) : Nat := (c.outs.filter fun o => o.cls == cls).length

/-- Operations that count as complete leave: those done with every earlier one of their class (07 R153). -/
def settleOuts : List OutOp → List Nat → List OutOp
  | [], _ => []
  | o :: t, held =>
    if o.done && !held.contains o.cls then settleOuts t held else o :: settleOuts t (o.cls :: held)

/-- An operation of a context is complete. -/
def Ctx.markDone (c : Ctx) (id : Nat) : Ctx :=
  { c with outs := settleOuts (c.outs.map fun o => if o.id = id then { o with done := true } else o) [] }

/-- Poison records count the later operations of their class (10 R210). -/
def bumpRecs (cls : Nat) (l : LevelSt) : LevelSt :=
  { l with poison := l.poison.map fun r => if r.cls = cls then { r with after := r.after + 1 } else r }

/-- A new operation that a counter counts. -/
def Ctx.count (c : Ctx) (cls : Nat) (id : Nat) : Ctx :=
  { c with outs := c.outs ++ [{ id := id, cls := cls }], l0 := bumpRecs cls c.l0, l1 := bumpRecs cls c.l1 }

/- Queue places (10 Table 10.3) -/

def MOp.isEntry (o : MOp) : Bool := match o.kind with | .order _ _ _ e => e | _ => true
/-- Entries in use of a queue of 64. -/
def entriesOf (q : List MOp) : Nat := (q.filter (·.isEntry)).length

/-- An operation takes its place in the load queue or the store queue, counted by a counter or by none. -/
def Ctx.enq (c : Ctx) (load : Bool) (cls : Option Nat) (op : MOp) : Ctx :=
  let op := { op with id := c.nextOp, lvl := c.level }
  let c := { c with nextOp := c.nextOp + 1 }
  let c := match cls with | some k => c.count k op.id | none => c
  if load then { c with lq := c.lq ++ [op] } else { c with sq := c.sq ++ [op] }

/-- An ordering place in both queues: a mark, with what is done when it is reached (14 Table 14.1). -/
def Ctx.enqOrder (c : Ctx) (acq : Option Scope) (pod : Bool) (act : OrdAct) (entry : Bool) : Ctx :=
  let op : MOp := { kind := .order acq pod act entry, id := c.nextOp, lvl := c.level }
  { c with nextOp := c.nextOp + 1, lq := c.lq ++ [op], sq := c.sq ++ [op] }

/-- Release and acquire parts of an ordering (10 Table 10.7). -/
def ordRel : MemOrd → Bool | .release => true | .acqRel => true | _ => false
def ordAcq : MemOrd → Bool | .acquire => true | .acqRel => true | _ => false
/-- Scopes whose acquire empties the L1 (14 Table 14.2). -/
def scopeWide : Scope → Bool | .die => true | .module => true | .pod => true | _ => false

/- Single-copy atomic units (10 R204): unit 0 is the whole access, unit 1 single bytes, any other u the aligned units of
u bytes that the access covers wholly. -/

/-- The bytes that byte j is performed with. -/
def unitOf (op : MOp) (j : Nat) : List Nat :=
  if op.unit = 0 then List.range op.size
  else if op.unit = 1 then [j]
  else
    let a := (op.ea + j) / op.unit * op.unit
    if op.ea ≤ a ∧ a + op.unit ≤ op.ea + op.size then (List.range op.unit).map (· + (a - op.ea)) else [j]

/-- The bytes a selection performs: those selected and not yet performed, with all of their units. -/
def selected (op : MOp) (sel : Nat) : List Nat :=
  (List.range op.size).filter fun j => !op.did.testBit j && (unitOf op j).any sel.testBit

/-- The unit of a scalar access without a flag: the whole access where one aligned 4-byte unit holds it. -/
def scalarUnit (ea size : Nat) : Nat := if ea / 4 = (ea + size - 1) / 4 then 0 else 1

def maskOf (js : List Nat) : Nat := js.foldl (fun m j => if m.testBit j then m else m + 2 ^ j) 0

/- The L1 (14 R312, R313): images of 64-byte lines, of global memory only -/

def lineOf (loc : Nat) : Nat := loc / 64
def Core.hasLine (k : Core) (loc : Nat) : Bool := thas k.l1 (lineOf loc)
def Core.dropLine (k : Core) (loc : Nat) : Core := { k with l1 := tdel k.l1 (lineOf loc) }
def Core.emptyL1 (k : Core) : Core := { k with l1 := [] }
/-- Lines that the 384 KiB of an L1 hold (00 Table 0.3, 01 Table 1.1). -/
def l1Lines : Nat := 6144
/-- A full L1 gives up a line for a new one; which one no rule states: it is free (log entry 96). -/
def State.makeRoom (s : State) (core loc : Nat) : State :=
  let l := (s.core core).l1
  if (s.core core).hasLine loc || decide (l.length < l1Lines) then s
  else { s with free := s.free + 1 }.updCore core fun k => { k with l1 := l.eraseIdx ((Config.freeWord s.free).toNat % l.length) }
/-- A line filled from the home die's memory-side cache. -/
def State.fillLine (s : State) (core loc : Nat) : State :=
  let img := (List.range 64).map fun i => s.byte (lineOf loc * 64 + i)
  (s.makeRoom core loc).updCore core fun k => { k with l1 := tset k.l1 (lineOf loc) img }
/-- A byte as the L1 holds it. -/
def State.l1Byte (s : State) (core loc : Nat) : Byte := pick (tget (s.core core).l1 (lineOf loc)) (loc % 64)
/-- A performed store updates the issuing core's line when it is present. -/
def Core.storeLine (k : Core) (loc : Nat) (b : Byte) : Core :=
  if k.hasLine loc then { k with l1 := tset k.l1 (lineOf loc) (setAt (tget k.l1 (lineOf loc)) (loc % 64) b) } else k

/-- One byte read for a load, from the L1 as a hit or from memory, filling the line on a miss. -/
def State.loadByte (s : State) (core loc : Nat) (cached hit : Bool) : State × Byte :=
  if cached && !isSpad loc then
    if hit && (s.core core).hasLine loc then (s, s.l1Byte core loc)
    else (s.fillLine core loc, s.byte loc)
  else (s, s.byte loc)

/-- Whether a load reads byte j of its access: srest leaves out the images of s0 and k0 and bytes 641 to 767 (17 R363). -/
def MOp.readsByte (op : MOp) (j : Nat) : Bool :=
  match op.kind with
  | .load .srest => (decide (8 ≤ j) && decide (j < 512)) || (decide (528 ≤ j) && decide (j < 641))
  | _ => true

/-- The bytes of a load that a selection performs; bad is the lowest poisoned unit met (10 R210). -/
def State.loadBytes (s : State) (core : Nat) (hit : Bool) : MOp → List Nat → State × MOp
  | op, [] => (s, op)
  | op, j :: js =>
    if op.readsByte j then
      let loc := pick op.locs j
      let (s, b) := s.loadByte core loc op.cached hit
      let unit := (op.ea + j) / 32 * 32
      let op := if s.isBad loc then { op with bad := some (min (op.bad.getD unit) unit) }
        else { op with got := op.got ++ [(j, b)] }
      s.loadBytes core hit op js
    else s.loadBytes core hit op js

/- Returning results -/

/-- The bytes a returning load writes: register, byte of the register, value (10 R211 to R214, 17 R363). -/
def loadWrites (op : MOp) : List (RegId × Nat × Byte) :=
  match op.kind with
  | .load (.oreg d) => op.got.map fun x => (.o (Fin.ofNat 16 d), x.1, x.2)
  | .load (.row ph r) => op.got.map fun x => (.row ph r, x.1, x.2)
  | .load (.mx d b) => op.got.map fun x =>
      if x.1 % b = b - 1 then (.o (Fin.ofNat 16 (d + 1)), x.1 / b, x.2)
      else (.o (Fin.ofNat 16 d), (b - 1) * (x.1 / b) + x.1 % b, x.2)
  | .load .srest => op.got.map fun x =>
      if x.1 < 512 then (.s (Fin.ofNat 64 (x.1 / 8)), x.1 % 8, x.2)
      else if x.1 < 640 then (.k (Fin.ofNat 8 ((x.1 - 512) / 16)), (x.1 - 512) % 16, x.2)
      else (.p 0, 0, x.2)
  | .load (.scalar d sg) => scalar d sg
  | .amo _ _ _ d _ => scalar d true
  | _ => []
where
  /-- The eight bytes of a scalar destination; none when a byte was poisoned. -/
  scalar (d : Nat) (sg : Bool) : List (RegId × Nat × Byte) :=
    if op.bad.isSome then []
    else
      let v := leNat ((List.range op.size).map fun j => ((op.got.find? fun x => x.1 == j).map (·.2)).getD 0)
      let w := if sg then intBits 64 (sgn (8 * op.size) v) else v
      (leBytes 8 w).zipIdx.map fun x => (.s (Fin.ofNat 64 d), x.2, x.1)

/-- The aligned 4-byte units of the destination, in order. -/
def unitsOf (ws : List (RegId × Nat × Byte)) : List (RegId × Nat) := (ws.map fun w => (w.1, w.2.1 / 4)).eraseDups

/-- A number with one byte replaced. -/
def putByte (n j : Nat) (b : Byte) : Nat := n - n / 256 ^ j % 256 * 256 ^ j + b.toNat * 256 ^ j

/-- One byte of a register written. -/
def writeReg (x : Ctx × Core) (w : RegId × Nat × Byte) : Ctx × Core :=
  let (c, k) := x
  match w with
  | (.s n, j, b) => (c.putS n.val (BitVec.ofNat 64 (putByte (c.sr n.val).toNat j b)), k)
  | (.k n, j, b) => (c.putK n.val (BitVec.ofNat 128 (putByte (c.kr n.val).toNat j b)), k)
  | (.o n, j, b) => (c.putO n.val (BitVec.ofNat 1024 (putByte (c.or n.val).toNat j b)), k)
  | (.row ph r, j, b) => (c, k.setRow ph r (BitVec.ofNat 1024 (putByte (k.row ph r).toNat j b)))
  | (.p _, _, b) => ((List.range 8).foldl (fun c i => c.putP i (b.toNat.testBit i)) c, k)
  | (.lat _, _, _) => (c, k)
  | (.csr _, _, _) => (c, k)

/-- Bytes of a register or row; the predicates together are one byte of a save block (17 Table 17.3). -/
def regBytes : RegId → Nat
  | .s _ => 8 | .p _ => 1 | .k _ => 16 | .o _ => 128 | .row _ _ => 128 | .lat _ => 128 | .csr _ => 8
/-- The registers a load writes whole: their poison marks are cleared (20 Table 20.1). -/
def wholeRegs (op : MOp) : List RegId :=
  let rs := (loadWrites op).map (·.1)
  (rs.eraseDups.filter fun r => (rs.filter (· == r)).length == regBytes r).flatMap fun r =>
    match r with
    | .p _ => (List.range 8).map fun i => .p (Fin.ofNat 8 i)
    | r => [r]

/-- The counter class of an operation. -/
def Ctx.clsOf (c : Ctx) (id : Nat) : Nat := ((c.outs.find? fun o => o.id == id).map (·.cls)).getD 4

/-- A completed operation that met poison leaves a poison record at its level (10 R210). -/
def Ctx.recordPoison (c : Ctx) (op : MOp) : Ctx :=
  match op.bad with
  | none => c
  | some a =>
    let cls := c.clsOf op.id
    let r : PoisonRec := { cls := cls, addr := a, after := (c.outs.filter fun o => o.cls == cls && decide (op.id < o.id)).length }
    if op.lvl = 0 then { c with l0 := { c.l0 with poison := c.l0.poison ++ [r] } }
    else { c with l1 := { c.l1 with poison := c.l1.poison ++ [r] } }

/-- Whether an earlier load of the same counter is still to write a unit of a register: the later one's result is the one that stands when
both are complete (07 R153, R154), so it comes after it. -/
def Ctx.unitBehind (c : Ctx) (i : Nat) (op : MOp) (u : RegId × Nat) : Bool :=
  (c.rets.take i).any fun r => c.clsOf r.op.id == c.clsOf op.id &&
    (unitsOf (loadWrites r.op)).zipIdx.any fun x => x.1 == u && !r.given.testBit x.2

/-- Units of returning load number i reach the destination, but for those that an earlier one of its counter is still to write; with the
last of them the operation is complete. -/
def State.returnLoad (s : State) (cx i sel : Nat) : State :=
  let c := s.ctx cx
  match c.rets[i]? with
  | none => s
  | some r =>
    let ws := loadWrites r.op
    let us := unitsOf ws
    let free (u : (RegId × Nat) × Nat) : Bool := sel.testBit u.2 && !c.unitBehind i r.op u.1
    let now := (us.zipIdx.filter fun u => free u && !r.given.testBit u.2).map (·.1)
    let (c, k) := (ws.filter fun w => now.contains (w.1, w.2.1 / 4)).foldl writeReg (c, s.core (coreOf cx))
    let given := maskOf ((us.zipIdx.filter fun u => r.given.testBit u.2 || free u).map (·.2))
    let c :=
      if given + 1 = 2 ^ us.length then
        let c := { c with rets := c.rets.eraseIdx i, marks := c.marks.filter fun m => !(wholeRegs r.op).contains m }
        (c.recordPoison r.op).markDone r.op.id
      else { c with rets := setAt c.rets i { r with given := given } }
    (s.setCtx cx c).setCore (coreOf cx) k

/-- A performed load or atomic leaves its queue and returns; the results of a wheel that ended by a fault are discarded
(07 R163), and its poison record, where it met poison, is kept as ever (log entry 97). -/
def Ctx.toReturn (c : Ctx) (op : MOp) : Ctx :=
  let c := { c with lq := c.lq.tail }
  if c.phase = .faulting then (c.recordPoison op).markDone op.id else { c with rets := c.rets ++ [{ op := op }] }

/-- The new memory value of an atomic on w bytes; none where a failed compare writes nothing (10 Table 10.6). -/
def amoNew (op : AmoOp) (w old b expected : Nat) : Option Nat :=
  let m := 2 ^ (8 * w)
  match op with
  | .add => some ((old + b) % m)
  | .swap => some (b % m)
  | .cas => if old = expected % m then some (b % m) else none
  | .and => some (old &&& b % m)
  | .or => some (old ||| b % m)
  | .xor => some (old ^^^ b % m)
  | .max => some (if sgn (8 * w) old < sgn (8 * w) (b % m) then b % m else old)
  | .min => some (if sgn (8 * w) (b % m) < sgn (8 * w) old then b % m else old)

/- Compare-and-swaps that a later store has passed (14 R323; log entry 120) -/

/-- Whether an operation is a local compare-and-swap that a later store has passed. -/
def MOp.passed (o : MOp) : Bool := o.fails && match o.kind with | .amo _ _ _ _ _ => true | _ => false
/-- Whether every compare that a store has passed would fail now, and all that stands ahead of such a compare, loads and cl.inv, could be
performed now, in its order. -/
def State.failNow (s : State) (lq : List MOp) : Bool :=
  (lq.reverse.dropWhile fun o => !o.passed).all fun o => match o.kind with
    | .amo f b ex _ _ => o.fails && !s.isBad (pick o.locs 0) && !s.hbmWaits o.locs &&
        (amoNew f o.size (s.rd (pick o.locs 0) o.size) b.toNat ex.toNat).isNone
    | .load _ => !o.locs.any s.isBad && !s.hbmWaits o.locs
    | .clInv => true
    | _ => false
/-- A queue up to the last compare passed that has been seen to fail. -/
def fallen (lq : List MOp) : List MOp := (lq.reverse.dropWhile fun o => !(o.passed && !o.fall.isEmpty)).reverse
/-- Whether the head of a queue returns what it held when the compares passed were last seen to fail: one of them would succeed now. -/
def State.fallsBack (s : State) (c : Ctx) : Bool := !(fallen c.lq).isEmpty && !s.failNow (fallen c.lq)
/-- The bytes that an operation would return now. -/
def State.noteFall (s : State) (o : MOp) : MOp :=
  { o with fall := (List.range o.size).map fun j =>
      (j, s.byte (match o.kind with | .amo _ _ _ _ _ => pick o.locs 0 + j | _ => pick o.locs j)) }
/-- Where the compares passed fail at this instant, all of them or those seen to fail before, what stands in the queue up to them may still
return what it holds now. -/
def State.refall (s : State) (cx : Nat) : State :=
  let lq := (s.ctx cx).lq
  let n := if s.failNow lq then lq.length else if s.failNow (fallen lq) then (fallen lq).length else 0
  if lq.any (·.passed) then s.updCtx cx fun c => { c with lq := (c.lq.take n).map s.noteFall ++ c.lq.drop n } else s
/-- Bytes of a load as they stood then. -/
def MOp.fromFall (o : MOp) (js : List Nat) : MOp :=
  { o with got := o.got ++ (js.filter o.readsByte).map fun j => (j, ((o.fall.find? fun x => x.1 == j).map (·.2)).getD 0) }

/-- Bytes of the load at the head of its queue are performed (10 R207). -/
def State.performLoad (s : State) (cx sel : Nat) (hit : Bool) : State :=
  let c := s.ctx cx
  match c.lq with
  | op :: rest =>
    match op.kind with
    | .load _ =>
      if s.hbmWaits ((selected op sel).map (pick op.locs) |>.filter fun l => !(op.cached && hit && (s.core (coreOf cx)).hasLine l)) then s
      else
      let back := s.fallsBack c
      let (s, op') := if back then (s, op.fromFall (selected op sel)) else s.loadBytes (coreOf cx) hit op (selected op sel)
      let op' := { op' with did := maskOf ((List.range op.size).filter fun j => op.did.testBit j || (selected op sel).contains j) }
      let s := if op'.did + 1 = 2 ^ op.size then s.updCtx cx (·.toReturn op')
        else s.updCtx cx fun c => { c with lq := op' :: rest }
      if back then s else s.refall cx
    | .clInv =>
      let s := s.updCore (coreOf cx) fun k => if isSpad (pick op.locs 0) then k else k.dropLine (pick op.locs 0)
      s.updCtx cx fun c => { c with lq := rest }.markDone op.id
    | _ => s
  | [] => s

/-- Bytes of the store at the head of its queue are performed; with the last of them units written whole lose their
poison marks (10 Table 10.4). -/
def State.performStore (s : State) (cx sel : Nat) : State :=
  let c := s.ctx cx
  match c.sq with
  | op :: rest =>
    match op.kind with
    | .store =>
      let js := selected op sel
      if s.hbmWaits (js.map (pick op.locs)) then s
      else
      let s := js.foldl (fun s j =>
        let loc := pick op.locs j
        let b : Byte := pick op.data j
        let s := s.setByte loc b
        if isSpad loc then s else s.updCore (coreOf cx) (·.storeLine loc b)) s
      let did := maskOf ((List.range op.size).filter fun j => op.did.testBit j || js.contains j)
      if did + 1 = 2 ^ op.size then
        (s.healWhole op.locs).updCtx cx fun c => { c with sq := rest }.markDone op.id
      else s.updCtx cx fun c => { c with sq := { op with did := did } :: rest }
    | _ => s
  | [] => s

/-- The atomic at the head of its queue reads and writes its operand at one instant, and the issuer's L1 line goes (10 R207,
R220); a compare-and-swap that a later store has passed returns what it held when its compare failed, where it would succeed now, and
waits until it fails where it has not been seen to (14 R323; log entry 120). -/
def State.performAtomic (s : State) (cx : Nat) : State :=
  let c := s.ctx cx
  match c.lq with
  | op :: _ =>
    match op.kind with
    | .amo f b ex _ drop =>
      let loc := pick op.locs 0
      let old := s.rd loc op.size
      let new := amoNew f op.size old b.toNat ex.toNat
      let drops (s : State) : State := if isSpad loc then s else s.updCore (coreOf cx) (·.dropLine loc)
      if op.passed && s.fallsBack c then
        (drops s).updCtx cx (·.toReturn { op with got := op.fall })
      else if op.passed && new.isSome then s
      else if s.isBad loc && !s.hbmWaits op.locs then (drops s).updCtx cx (·.toReturn { op with bad := some (op.ea / 32 * 32) })
      else if s.hbmWaits op.locs then s
      else
        let s := drops (match new with
          | some v => s.setBytes ((leBytes op.size v).zipIdx.map fun (x : Byte × Nat) => (loc + x.2, x.1))
          | none => s)
        let gone (q : List MOp) := if drop && new.isNone then q.filter fun o => o.id != op.id + 1 else q
        (s.updCtx cx fun c =>
          let c := c.toReturn { op with got := (leBytes op.size old).zipIdx.map fun (x : Byte × Nat) => (x.2, x.1) }
          { c with lq := gone c.lq, sq := gone c.sq }).refall cx
    | _ => s
  | [] => s

/-- Whether a rule that waits for a far store's visibility at its target still waits for it: until it is performed, drained where it was
parked (17 R376). -/
def State.farOpen (s : State) (r : Nat) : Bool := thas s.fars r && !(tget s.fars r).performed
/-- Whether an ordering place has been reached: it heads both queues, and at scope pod every earlier far store of the
context is performed at its target (14 Table 14.2). -/
def State.orderReached (s : State) (cx : Nat) : Option (MOp × Option Scope × OrdAct) :=
  let c := s.ctx cx
  match c.lq, c.sq with
  | a :: _, b :: _ =>
    match a.kind with
    | .order acq pod act _ =>
      if a.id = b.id ∧ (!pod ∨ c.farSent.all fun r => !s.farOpen r) then some (a, acq, act)
      else none
    | _ => none
  | _, _ => none

/-- The acquire part of a place: the L1 is emptied where its scope asks for it. -/
def State.acquireAt (s : State) (core : Nat) (acq : Option Scope) : State :=
  match acq with
  | some sc => if scopeWide sc then s.updCore core (·.emptyL1) else s
  | none => s
/-- The place is left, with its acquire. -/
def State.leaveOrder (s : State) (cx : Nat) (acq : Option Scope) : State :=
  (s.updCtx cx fun c => { c with lq := c.lq.tail, sq := c.sq.tail }).acquireAt (coreOf cx) acq

end Sys2Proof.Machine
end

