-- ==== Sys2Proof/Machine/Embers.lean ====
section
/-! DEFINITION. The ember table (11 R224 to R250): tokens, states, creation, the status word, final states and what
follows from them; leases of the press (12 R254 to R257), which count embers. -/

namespace Sys2Proof.Machine

def EState.final : EState → Bool | .done => true | .faulted => true | .cancelled => true | _ => false
/-- Status codes (11 Table 11.4). -/
def EState.code : EState → Nat
  | .done => 0 | .faulted => 1 | .cancelled => 2 | .pending => 3 | .running => 4 | .orphaned => 5
def stSTALE : Nat := 0x10
def stNOTOWNER : Nat := 0x11
def stNOTFOUND : Nat := 0x12
def stBUSY : Nat := 0x13

/-- Kinds (11 Table 11.1). -/
def EcOp.kind : EcOp → Nat
  | .stat _ _ => 0 | .run _ _ _ => 0 | .drain _ _ => 0 | .zero _ => 0 | .copy _ _ _ => 1 | .coll => 2 | .cave => 3
/-- The engine queue of a kind: press, copy, collective (11 R230). -/
def EcOp.queue (o : EcOp) : Nat := min o.kind 2
/-- The scope of a kind (14 Table 14.3). -/
def EcOp.scope (o : EcOp) : Scope :=
  match o.kind with | 0 => .die | 1 => .die | 2 => .pod | _ => .module
/-- The accumulator bank a press command names. -/
def EcOp.bank : EcOp → Option Bool
  | .run b _ _ => some b | .drain b _ => some b | .zero b => some b | _ => none
/-- Bytes of the command block (11 R231). -/
def EcOp.blockSize (o : EcOp) : Nat := if o.kind = 1 then 128 else 64

def Core.ember (k : Core) (slot : Nat) : Option Ember := tget k.embers slot
def Core.setEmber (k : Core) (slot : Nat) (e : Ember) : Core := { k with embers := tset k.embers slot (some e) }
/-- The generation a slot gives next; 1 at reset (11 R225). -/
def Core.gen (k : Core) (slot : Nat) : Nat := if tget k.gens slot = 0 then 1 else tget k.gens slot
def tokenOf (slot gen : Nat) : Nat := gen * 128 + slot
def Ember.token (e : Ember) (slot : Nat) : Nat := tokenOf slot e.gen

/-- The live embers of a core. -/
def Core.live (k : Core) : List (Nat × Ember) := k.embers.filterMap fun x => x.2.map fun e => (x.1, e)

/-- The live ember a token names for a vat (11 R225); a fenced slot gives none (R250). -/
def Core.lookup (k : Core) (vat tok : Nat) : Option (Nat × Ember) :=
  let slot := tok % 128
  match k.ember slot with
  | some e => if e.gen = tok / 128 % 512 ∧ e.vat = vat ∧ !e.fenced then some (slot, e) else none
  | none => none

/-- The live ember of a vat with a name. -/
def Core.findName (k : Core) (vat : Nat) (name : BitVec 16) : Option (Nat × Ember) :=
  k.live.find? fun x => x.2.vat == vat && x.2.name == name

/-- The lowest free slot (11 R226). -/
def Core.freeSlot (k : Core) : Option Nat := firstFrom 128 0 fun i => (k.ember i).isNone && !k.fenced.contains i

/-- An ember whose engine is still to start it, or to take it up again after a pre-emption (11 R230, R232, R249). -/
def Ember.waiting (e : Ember) : Bool := !e.st.cur.final && (!e.began || e.stopped)
/-- Entries in use of an engine queue of a context. -/
def Core.queueLen (k : Core) (cx queue : Nat) : Nat :=
  (k.live.filter fun x => x.2.ctx == cx && x.2.op.queue == queue && !x.2.st.cur.final && !x.2.began).length

/-- The status word (11 Table 11.3). -/
def statusWord (code tok name cause : Nat) : Word := BitVec.ofNat 64 (tok * 2 ^ 32 + name * 2 ^ 16 + cause * 256 + code)
/-- The status word of a live ember in a state. -/
def Ember.status (e : Ember) (slot : Nat) (st : EState) : Word :=
  statusWord st.code (e.token slot) e.name.toNat
    (match st with | .faulted => e.cause | .cancelled => cCANCEL | _ => 0)
/-- The status word with another code; its cause field is 0 whatever the ember's state (log entry 98). -/
def Ember.statusAs (e : Ember) (slot code : Nat) : Word := statusWord code (e.token slot) e.name.toNat 0
def staleWord (tok : Nat) : Word := statusWord stSTALE tok 0 0

/- Leases -/

/-- Whether a command counted by a lease is not yet final. -/
def State.leaseBusy (s : State) (quad num : Nat) : Bool :=
  (List.range 4).any fun j => (s.core (4 * quad + j)).live.any fun x => x.2.lease == num && !x.2.st.cur.final

def Lease.isGranted (l : Lease) : Bool := match l.st with | .granted => true | .freeing g => g | _ => false
def Lease.freed (l : Lease) : Bool := match l.st with | .freeing _ => true | _ => false
/-- A lease that is requested, or freeing and still awaiting its grant (12 R255). -/
def Lease.requesting (l : Lease) : Bool := match l.st with | .requested => true | .freeing g => !g | _ => false

/-- Whether a lease has ended: it is freed, or its count is 32, and its counted commands are final. -/
def State.leaseOver (s : State) (quad : Nat) (l : Lease) : Bool := (l.freed || l.count == 32) && !s.leaseBusy quad l.num

/-- The next lease of a wheel, unless its commands are final and no further one can come: it ends without a grant (12 Table 12.2). -/
def State.liveNext (s : State) (quad : Nat) (w : WheelLease) : Option Lease := w.next.filter fun n => !s.leaseOver quad n

/-- Leases whose last counted command is final end; the image becomes invalid with a granted one, and a next lease becomes the
current one, unless it has ended too (12 Table 12.2, R255, R256). -/
def State.settleLeases (s : State) (quad : Nat) : State :=
  let q := s.quad quad
  let ended (w : WheelLease) : Bool := s.leaseOver quad w.cur
  if q.leases.any fun w => ended w || s.liveNext quad w != w.next then
    let freedImage := q.leases.any fun w => ended w && w.cur.isGranted
    let ls := q.leases.filterMap fun w =>
      if ended w then (s.liveNext quad w).map fun n => { w with cur := n, next := none, image := none }
      else some { w with next := s.liveNext quad w }
    s.setQuad quad { q with leases := ls, image := if freedImage then none else q.image,
                            endedAt := if freedImage then some s.now else q.endedAt }
  else s

/-- The leases of the wheel a context runs. -/
def Quad.leaseOf (q : Quad) (cx : Nat) (w : WheelId) : Option WheelLease := q.leases.find? fun l => l.ctx == cx && l.wheel == w
/-- The newest lease of a wheel. -/
def WheelLease.newest (w : WheelLease) : Lease := w.next.getD w.cur
/-- The leases of a quad with those of one wheel replaced. -/
def putLease (ls : List WheelLease) (w : WheelLease) : List WheelLease :=
  if ls.any (fun l => l.ctx == w.ctx && l.wheel == w.wheel) then
    ls.map fun l => if l.ctx == w.ctx && l.wheel == w.wheel then w else l
  else ls ++ [w]

/-- press.lease (12 Table 12.2). -/
def Quad.pressLease (q : Quad) (cx : Nat) (w : WheelId) : Quad :=
  let fresh : Lease := { num := q.leaseNum }
  match q.leaseOf cx w with
  | none => { q with leases := q.leases ++ [{ ctx := cx, wheel := w, cur := fresh }], leaseNum := q.leaseNum + 1 }
  | some l =>
    if l.cur.freed && l.next.isNone then
      { q with leases := putLease q.leases { l with next := some fresh }, leaseNum := q.leaseNum + 1 }
    else q

/-- press.free (12 Table 12.2): the newest unfreed lease is freed; a requested one with no command is withdrawn. -/
def Quad.pressFree (q : Quad) (cx : Nat) (w : WheelId) : Quad :=
  match q.leaseOf cx w with
  | none => q
  | some l =>
    match l.next with
    | some n =>
      if n.freed then q
      else if n.count = 0 then { q with leases := putLease q.leases { l with next := none } }
      else { q with leases := putLease q.leases { l with next := some { n with st := .freeing false } } }
    | none =>
      match l.cur.st with
      | .requested =>
        if l.cur.count = 0 then { q with leases := q.leases.filter fun x => !(x.ctx == cx && x.wheel == w) }
        else { q with leases := putLease q.leases { l with cur := { l.cur with st := .freeing false } } }
      | .granted => { q with leases := putLease q.leases { l with cur := { l.cur with st := .freeing true } } }
      | .freeing _ => q

/-- Whether a press command of a wheel would be counted (12 Table 12.2, the PRESS_LEASE row). -/
def Quad.leaseTakes (q : Quad) (cx : Nat) (w : WheelId) : Bool :=
  match q.leaseOf cx w with
  | some l => !l.newest.freed && decide (l.newest.count < 32)
  | none => false

/-- The newest lease counts one more command; its number. -/
def Quad.leaseCount (q : Quad) (cx : Nat) (w : WheelId) : Quad × Nat :=
  match q.leaseOf cx w with
  | none => (q, 0)
  | some l =>
    let n := { l.newest with count := l.newest.count + 1 }
    let l' := if l.next.isSome then { l with next := some n } else { l with cur := n }
    ({ q with leases := putLease q.leases l' }, n.num)

/- Banks and the deferred release of a claim (12 R257) -/

def Quad.bank (q : Quad) (b : Bool) : Bank := if b then q.bank1 else q.bank0
def Quad.setBank (q : Quad) (b : Bool) (k : Bank) : Quad := if b then { q with bank1 := k } else { q with bank0 := k }

/-- Press commands of a bank's holder issued before a deferred release that are not final (12 R257). -/
def State.bankBusy (s : State) (b : Bool) (k : Bank) : Bool :=
  match k.holder, k.release with
  | some (cx, w), some n => (s.core (coreOf cx)).live.any fun x =>
      x.2.issuer == w && x.2.ctx == cx && x.2.op.bank == some b && decide (x.2.order < n) && !x.2.st.cur.final
  | _, _ => true

/-- A bank whose deferred release has nothing left to wait for becomes free. -/
def State.settleBank (s : State) (quad : Nat) (b : Bool) : State :=
  let k := (s.quad quad).bank b
  if k.release.isSome && !s.bankBusy b k then
    s.updQuad quad fun q => q.setBank b { k with holder := none, release := none }
  else s

/- Final states -/

/-- The record of a final state: FAULTED with QUEUE_UE where an uncorrectable error struck the record before (11 R250). -/
def Ember.finish (e : Ember) (now : Nat) (st : EState) (cause faddr prog : Nat) : Ember :=
  let e := { e with cause0 := e.cause, faddr0 := e.faddr, prog0 := e.prog }
  if e.struck then { e with st := e.st.put now .faulted, cause := cQUEUE, faddr := 0, prog := 0 }
  else { e with st := e.st.put now st, cause := cause, faddr := faddr, prog := prog }

/-- A record as instructions of a cycle see it: one that became final in it as it stood before (11 R229). -/
def Ember.asSeen (e : Ember) (now : Nat) : Ember :=
  if e.st.at_ = now ∧ e.st.cur.final then { e with cause := e.cause0, faddr := e.faddr0, prog := e.prog0 } else e

/-- A final state known to the embers of one table that wait on it (11 R241, R242): after DONE they may start, otherwise
they are cancelled in the same cycle, and their own dependents after them. The work list holds vat, token, and whether
it ended DONE; the answer adds every token that became final on the way. -/
def cascade (now : Nat) : Nat → List (Nat × Nat × Bool) → Tbl (Option Ember) → Tbl (Option Ember) × List (Nat × Nat × Bool)
  | 0, _, t => (t, [])
  | _, [], t => (t, [])
  | fuel + 1, (vat, tok, ok) :: work, t =>
    let waits (e : Ember) : Bool := e.vat == vat && e.pred == tok && !e.predOk && !e.st.cur.final
    let deps := t.filterMap fun x => match x.2 with
      | some e => if waits e then some (vat, e.token x.1, false) else none
      | none => none
    let t' := t.map fun x => (x.1, x.2.map fun e =>
      if waits e then (if ok then { e with predOk := true } else { e.finish now .cancelled cCANCEL tok 0 with predOk := true }) else e)
    let r := cascade now fuel (work ++ if ok then [] else deps) t'
    (r.1, (vat, tok, ok) :: r.2)

/-- A pending dependence learns the final states (11 R241). -/
def Ctx.learn (c : Ctx) (l : List (Nat × Nat × Bool)) : Ctx :=
  l.foldl (fun c x => if c.vatKey = x.1 ∧ c.dep = .token x.2.1 then { c with dep := if x.2.2 then .ready x.2.1 else .cancelled x.2.1 } else c) c

/-- An ember reaches a final state; what waited for it, dependents, leases and deferred releases of banks, learns it. -/
def State.finishEmber (s : State) (core slot : Nat) (st : EState) (cause faddr prog : Nat) : State :=
  match (s.core core).ember slot with
  | none => s
  | some e =>
    if e.st.cur.final then s
    else
      let k := (s.core core).setEmber slot (e.finish s.now st cause faddr prog)
      let r := cascade s.now 160 [(e.vat, e.token slot, st == .done && !e.struck)] k.embers
      let s := s.setCore core { k with embers := r.1 }
      let s := (List.range 4).foldl (fun s j => s.updCtx (4 * core + j) (·.learn r.2)) s
      ((s.settleLeases (core / 4)).settleBank (core / 4) false).settleBank (core / 4) true

/-- Whether an ember's command reads with .snap. -/
def Ember.isSnap (e : Ember) : Bool :=
  match e.op with | .stat _ b => b | .run _ _ b => b | .copy _ _ b => b | _ => false

/-- An ember begins (11 Table 11.2), or goes on after a pre-emption. -/
def State.beginEmber (s : State) (core slot : Nat) : State :=
  s.updCore core fun k => match k.ember slot with
    | some e => k.setEmber slot { e with
        began := true, stopped := false, snap := if e.isSnap then e.snap else [],
        st := if e.st.cur = .pending then e.st.put s.now .running else if e.st.cur = .orphaned then e.st.put s.now .orphaned else e.st }
    | none => k

/-- Reaping frees the slot, and its generation advances, 511 followed by 1 (11 R225, R226). -/
def Core.reapSlot (k : Core) (slot : Nat) : Core :=
  match k.ember slot with
  | some e => { k with embers := tset k.embers slot none, gens := tset k.gens slot (if e.gen = 511 then 1 else e.gen + 1) }
  | none => k

/-- An ember whose order of issue comes before a place in its queue and that still holds its entry (11 R232). -/
def Core.heldBack (k : Core) (e : Ember) : Bool :=
  k.live.any fun x => x.2.ctx == e.ctx && x.2.op.queue == e.op.queue && decide (x.2.order < e.order) && x.2.waiting

/-- Whether an ember may start: captured, first of its queue, its predecessor DONE (11 R231, R232, R242). -/
def Core.mayStart (k : Core) (e : Ember) : Bool := e.waiting && e.captured && e.predOk && !k.heldBack e

/- Creation (11 R231) -/

/-- The traps of R231, in their order, and then PRESS_LEASE (12 R254). -/
def State.ecTrap (s : State) (h : EcHdr) (op : EcOp) : Option Trap :=
  let c := s.cc
  let ba := (c.sr h.a.val).toNat
  if ba % 64 ≠ 0 then some ⟨cALIGN, 2, ba⟩
  else if !inOneSpad ba op.blockSize then some ⟨cMISS, 2, ba⟩
  else if ((s.core (coreOf s.cur)).findName c.vatKey h.name).isSome then some ⟨cRANGE, 2, h.name.toNat⟩
  else if op.kind = 0 ∧ !(s.quad (quadOf s.cur)).leaseTakes s.cur c.wid then some ⟨cLEASE, 2, 0⟩
  else none

/-- The waits of R226 and R230. -/
def State.ecWait (s : State) (op : EcOp) : Bool :=
  let k := s.core (coreOf s.cur)
  k.freeSlot.isNone || decide (16 ≤ k.queueLen s.cur op.queue)

/-- The ember is created: slot, queue entry, predecessor, fork, token. -/
def State.newEmber (s : State) (h : EcHdr) (op : EcOp) (seed0 seed1 : Word) : State :=
  let c := s.cc
  let core := coreOf s.cur
  let k := s.core core
  let slot := k.freeSlot.getD 0
  let (q, lease) := if op.kind = 0 then (s.quad (quadOf s.cur)).leaseCount s.cur c.wid else (s.quad (quadOf s.cur), 0)
  let st : EState := match c.dep with | .cancelled _ => .cancelled | _ => .pending
  let e : Ember := {
    vat := c.vatKey, name := h.name, gen := k.gen slot, prio := h.prio.val, owner := s.cur % 4, wheel := c.wid,
    pred := match c.dep with | .token t => t | .cancelled t => t | .ready t => t | .none => 0,
    predOk := match c.dep with | .token _ => false | _ => true,
    cause := if st = .cancelled then cCANCEL else 0,
    faddr := match c.dep with | .cancelled t => t | _ => 0,
    op := op, uid := s.uid, seed0 := seed0, seed1 := seed1, ba := (c.sr h.a.val).toNat, ctx := s.cur, order := k.order, issued := s.now,
    lease := lease, issuer := c.wid, st := ⟨st, st, s.now⟩ }
  let s := ({ s with uid := s.uid + 1 }.setQuad (quadOf s.cur) q).setCore core { k.setEmber slot e with order := k.order + 1 }
  let s := s.updCur fun c => { c with dep := .none }.enqOrder none (op.kind == 2) (.fork core slot e.uid) false
  let s := if st = .cancelled then s.settleLeases (quadOf s.cur) else s
  s.landS 2 1 h.d (BitVec.ofNat 64 (e.token slot))

/-- The command block is captured, at the place of the ember that took it (11 R231); a poisoned unit ends the ember. -/
def State.captureEmber (s : State) (core slot uid : Nat) : State :=
  match ((s.core core).ember slot).filter fun e => e.uid == uid with
  | none => s
  | some e =>
    let locs := (List.range e.op.blockSize).map fun j => spadAddr core (e.ba + j)
    let s := s.updCore core fun k => k.setEmber slot { e with captured := true, cmd := s.bytesAt locs }
    match (List.range e.op.blockSize).find? fun j => s.isBad (pick locs j) with
    | some j => s.finishEmber core slot .faulted cPOISON ((e.ba + j) / 32 * 32) 0
    | none => s

/- Token instructions (11 R233 to R243) -/

/-- The join of an ember's final state: an acquire at its kind's scope (11 R247, 14 R316). -/
def Ctx.join (c : Ctx) (e : Ember) : Ctx := c.enqOrder (some e.op.scope) false .none false

/-- The ember a token names for the running context. -/
def State.tok (s : State) (tok : Nat) : Option (Nat × Ember) := (s.core (coreOf s.cur)).lookup s.cc.vatKey tok
/-- Whether the running context owns an ember. -/
def State.owns (s : State) (e : Ember) : Bool := e.owner == s.cur % 4

/-- emb.wait waits while its owned ember is not final (11 R235). -/
def State.embWaits (s : State) (a : SReg) : Bool :=
  match s.tok ((s.cc.sr a.val).toNat % 2 ^ 16) with
  | some (_, e) => s.owns e && !(e.st.seen s.now).final
  | none => false

/-- The trap of emb.wait.trap. -/
def State.embFault (s : State) (a : SReg) : Option Trap :=
  match s.tok ((s.cc.sr a.val).toNat % 2 ^ 16) with
  | some (slot, e) =>
    if s.owns e && e.st.seen s.now == .faulted then some ⟨cEMBER, 2, (e.status slot .faulted).toNat⟩ else none
  | none => none

/-- Reaping by the running context, with the reap record (11 R226, R243). -/
def State.reap (s : State) (slot : Nat) (e : Ember) : State :=
  (s.updCore (coreOf s.cur) (·.reapSlot slot)).updCur fun c => { c with reap := some (e.token slot, e) }

/-- What EMBER_FAULT does beside trapping: the ember is reaped (11 R235). -/
def State.embReapFaulted (s : State) (a : SReg) : State :=
  match s.tok ((s.cc.sr a.val).toNat % 2 ^ 16) with
  | some (slot, e) => if s.owns e && e.st.seen s.now == .faulted then s.reap slot e else s
  | none => s

def State.embWait (s : State) (d a : SReg) : State :=
  let t := (s.cc.sr a.val).toNat % 2 ^ 16
  match s.tok t with
  | none => s.landS 2 1 d (staleWord t)
  | some (slot, e) =>
    if s.owns e then
      let w := e.status slot (e.st.seen s.now)
      ((s.reap slot e).updCur (·.join e)).landS 2 1 d w
    else s.landS 2 1 d (e.statusAs slot stNOTOWNER)

def State.embTest (s : State) (d a : SReg) : State :=
  let t := (s.cc.sr a.val).toNat % 2 ^ 16
  match s.tok t with
  | none => s.landS 2 1 d (staleWord t)
  | some (slot, e) =>
    let st := e.st.seen s.now
    (if st.final then s.updCur (·.join e) else s).landS 2 1 d (e.status slot st)

/-- Whether an ember's engine began it in this cycle, so that an instruction sees it PENDING (11 R229). -/
def Ember.fresh (e : Ember) (now : Nat) : Bool := e.began && e.st.seen now == .pending
/-- Whether a run of a collective holds an ember. -/
def CollRun.holds (r : CollRun) (uid : Nat) : Bool := r.uid == uid || r.group.any fun x => x.2 == uid
/-- Whether an ember's engine began it in this cycle, an ORPHANED one too, and it has not ended since. -/
def Ember.beganNow (e : Ember) (now : Nat) : Bool :=
  !e.st.cur.final && (e.fresh now || (e.began && e.st.cur == .orphaned && e.st.prev == .orphaned && e.st.at_ == now))
/-- An ember that began in this cycle stands PENDING again, an ORPHANED one ORPHANED (11 R228). -/
def Ember.unbegun (e : Ember) (now : Nat) : Ember :=
  { e with began := false, st := if e.st.cur = .orphaned then e.st else e.st.put now .pending }
/-- Every ember that is live on a core or saved with its vat. -/
def State.allEmbers (s : State) : List Ember :=
  s.cores.flatMap (fun k => k.2.live.map (·.2)) ++ s.vats.flatMap fun v => v.2.saves.flatMap fun k => k.embers.filterMap (·.2)
/-- The embers that go back with some that began in this cycle: the other members of their collectives, and those of this cycle that an
ember which waits again holds back in its queue (11 R232), but for the one cancelled, which leaves its queue. -/
def State.goBack (s : State) (cancelled : Nat) (us : List Nat) : List Nat :=
  let all := s.allEmbers
  let group := (s.colls.filter fun r => us.any r.holds).map (·.uid)
  let behind := (all.filter fun y => y.beganNow s.now && all.any fun x =>
    us.contains x.uid && x.uid != cancelled && x.ctx == y.ctx && x.op.queue == y.op.queue && decide (x.order < y.order)).map (·.uid)
  (group ++ behind).foldl nsAdd us
/-- An ember that its engine began in this cycle is taken from it again: a cancel of this cycle found it PENDING (11 R229,
R237). A collective's other members, those saved with their vat in this cycle too, go on waiting for their group, and what such a member
holds back in its queue has not begun either (R232). -/
def State.unbegin (s : State) (core slot : Nat) (e : Ember) : State :=
  let here (k i : Nat) : Bool := k == core && i == slot
  if e.op.kind = 0 then s.updQuad (core / 4) fun q => { q with run := q.run.filter fun r => !here r.core r.slot }
  else if e.op.kind = 1 then s.updQuad (core / 4) fun q => { q with copies := q.copies.filter fun r => !here r.core r.slot }
  else
    let gone := Nat.repeat (s.goBack e.uid) (s.allEmbers.length + 1) [e.uid]
    let back (l : Tbl (Option Ember)) : Tbl (Option Ember) :=
      l.map fun x => (x.1, x.2.map fun y => if gone.contains y.uid then y.unbegun s.now else y)
    { s with
      colls := s.colls.filter fun r => !gone.contains r.uid,
      cores := s.cores.map fun k =>
        let c := { k.2 with embers := back k.2.embers }
        (k.1, { c with embers := c.embers.map fun x => (x.1, x.2.map fun y => { y with offered := y.offered && !c.heldBack y }) }),
      vats := s.vats.map fun v => (v.1, { v.2 with saves := v.2.saves.map fun k => { k with embers := back k.embers } }) }

/-- emb.cancel (11 Table 11.6); a final state reached in the same cycle stands and is shown (R229; log entry 98). -/
def State.embCancel (s : State) (d a : SReg) : State :=
  let t := (s.cc.sr a.val).toNat % 2 ^ 16
  match s.tok t with
  | none => s.landS 2 1 d (staleWord t)
  | some (slot, e) =>
    if !s.owns e then s.landS 2 1 d (e.statusAs slot stNOTOWNER)
    else if (e.st.seen s.now).final then s.landS 2 1 d (e.status slot (e.st.seen s.now))
    else if e.st.cur.final then s.landS 2 1 d (e.status slot e.st.cur)
    else if !e.began || e.fresh s.now then
      let s := (if e.began then s.unbegin (coreOf s.cur) slot e else s).finishEmber (coreOf s.cur) slot .cancelled cCANCEL 0 0
      let e := ((s.core (coreOf s.cur)).ember slot).getD e
      s.landS 2 1 d (e.status slot e.st.cur)
    else if 2 ≤ e.op.kind then s.landS 2 1 d (e.statusAs slot stBUSY)
    else
      (s.updCore (coreOf s.cur) fun k => k.setEmber slot { e with cancel := true, cancelAt := s.now }).landS 2 1 d
        (e.status slot .running)

def State.embDetach (s : State) (d a : SReg) : State :=
  let t := (s.cc.sr a.val).toNat % 2 ^ 16
  match s.tok t with
  | none => s.landS 2 1 d (staleWord t)
  | some (slot, e) =>
    if s.owns e then
      (s.updCore (coreOf s.cur) fun k => k.setEmber slot { e with owner := 4 }).landS 2 1 d (e.status slot (e.st.seen s.now))
    else s.landS 2 1 d (e.statusAs slot stNOTOWNER)

def State.embAdopt (s : State) (d : SReg) (name : BitVec 16) : State :=
  match ((s.core (coreOf s.cur)).findName s.cc.vatKey name).filter fun x => !x.2.fenced with
  | none => s.landS 2 1 d (statusWord stNOTFOUND 0 name.toNat 0)
  | some (slot, e) =>
    if e.owner = 4 then
      let st : EState := if e.began then .running else .pending
      let e' : Ember := { e with
        owner := s.cur % 4, wheel := s.cc.wid, st := if e.st.cur = .orphaned then e.st.put s.now st else e.st }
      let shown := if e.st.seen s.now = .orphaned then st else e.st.seen s.now
      (s.updCore (coreOf s.cur) fun k => k.setEmber slot e').landS 2 1 d (e.status slot shown)
    else s.landS 2 1 d (e.statusAs slot stNOTOWNER)

def State.embPrio (s : State) (d a : SReg) (n : Fin 4) : State :=
  let t := (s.cc.sr a.val).toNat % 2 ^ 16
  match s.tok t with
  | none => s.landS 2 1 d (staleWord t)
  | some (slot, e) =>
    if !s.owns e then s.landS 2 1 d (e.statusAs slot stNOTOWNER)
    else
      let st := e.st.seen s.now
      (if st.final then s else s.updCore (coreOf s.cur) fun k => k.setEmber slot { e with prio := n.val }).landS 2 1 d
        (e.status slot st)

/-- Four results of emb.info (11 R243). -/
def State.landQuad (s : State) (d : SReg) (w0 w1 w2 w3 : Word) : State :=
  let r (i : Nat) : SReg := Fin.ofNat 64 (d.val + i)
  (((s.landS 2 1 (r 0) w0).landS 2 1 (r 1) w1).landS 2 1 (r 2) w2).landS 2 1 (r 3) w3

/-- The fourth word of emb.info. -/
def Ember.infoWord (e : Ember) : Word :=
  BitVec.ofNat 64 (e.owner * 2 ^ 20 + e.op.kind * 2 ^ 18 + e.prio * 2 ^ 16 + e.pred)

def State.embInfo (s : State) (d a : SReg) : State :=
  let t := (s.cc.sr a.val).toNat % 2 ^ 16
  let show_ (slot : Nat) (e : Ember) :=
    let e := e.asSeen s.now
    s.landQuad d (e.status slot (e.st.seen s.now)) (BitVec.ofNat 64 e.faddr) (BitVec.ofNat 64 e.prog) e.infoWord
  match s.tok t with
  | some (slot, e) => show_ slot e
  | none =>
    match s.cc.reap with
    | some (rt, e) => if rt = t then show_ (t % 128) e else s.landQuad d (staleWord t) 0 0 0
    | none => s.landQuad d (staleWord t) 0 0 0

def State.embAfter (s : State) (d a : SReg) : State :=
  let t := (s.cc.sr a.val).toNat % 2 ^ 16
  match s.tok t with
  | none => (s.updCur fun c => { c with dep := .none }).landS 2 1 d (staleWord t)
  | some (slot, e) =>
    let st := e.st.seen s.now
    let dep : Dep := match e.st.cur with
      | .done => if st = .done then .none else .ready t
      | .faulted => .cancelled t
      | .cancelled => .cancelled t
      | _ => .token t
    let s := s.updCur fun c => { c with dep := dep }
    (if st.final then s.updCur (·.join e) else s).landS 2 1 d (e.status slot st)

end Sys2Proof.Machine
end

