-- ==== Sys2Proof/Machine/QuadObj.lean ====
section
/-! DEFINITION. The objects of a quad: accumulator-bank claims (12 R253, R257), the park store (03 R71 to R73, 08 R188
to R191), hoops (13 R291 to R297), byte barriers (13 R298 to R301) and molds (13 R302 to R304). -/

namespace Sys2Proof.Machine

/- Bank claims -/

/-- Whether a wheel of a context holds a bank. -/
def Bank.heldBy (b : Bank) (cx : Nat) (w : WheelId) : Bool := b.holder == some (cx, w)

/-- Whether a bank is held by another wheel: the claim waits (12 R257). -/
def State.claimWaits (s : State) (b : Bool) : Bool :=
  let k := (s.quad (quadOf s.cur)).bank b
  k.holder.isSome && !k.heldBy s.cur s.cc.wid

/-- press.claim: the wheel holds the bank; a deferred release is withdrawn; a bank that comes from another vat reads
+0 everywhere (12 R253, R257). -/
def State.claim (s : State) (b : Bool) : State :=
  let c := s.cc
  s.updQuad (quadOf s.cur) fun q =>
    let k := q.bank b
    let k := if k.lastVat = some c.vatKey then k else { k with acc := [], bad := [], lastVat := some c.vatKey }
    q.setBank b { k with holder := some (s.cur, c.wid), release := none }

/-- A deferred release by the wheel that holds a bank; a second one moves the mark to its own place (12 R257; log entry 134). -/
def State.releaseBank (s : State) (cx : Nat) (b : Bool) : State :=
  let n := (s.core (coreOf cx)).order
  (s.updQuad (quadOf cx) fun q => q.setBank b { q.bank b with release := some n }).settleBank (quadOf cx) b

/- Park store -/

/-- Used park slots of a vat on a quad. -/
def Quad.parksUsed (q : Quad) (vat : Nat) : Nat :=
  (q.parks.filter fun x => match x.2 with | some p => p.vat == vat | none => false).length
/-- Reserved slots that hold no parked pane, none of those that stand for a saved one among them (03 R71, R73). -/
def Quad.parkFree (q : Quad) (vat : Nat) : Nat := tget q.parkRes vat - q.parksUsed vat - tget q.parkHeld vat
/-- Free slots that a park may take, and that PARKFREE counts: one that an unpark frees is open from the next cycle on (08 R190; log entry
133). -/
def Quad.parkOpen (q : Quad) (vat now : Nat) : Nat :=
  let f := tget q.parkFreed vat
  q.parkFree vat - if f.1 = now then f.2 else 0
/-- An unpark frees a slot of a vat. -/
def Quad.noteUnpark (q : Quad) (vat now : Nat) : Quad :=
  { q with parkFreed := tupd q.parkFreed vat fun f => (now, if f.1 = now then f.2 + 1 else 1) }

/-- A park waits until a reserved slot is free for it: parks wait in the order in which they stalled (03 R72, R73). -/
def State.parkWaits (s : State) : Bool :=
  let q := s.quad (quadOf s.cur)
  let ahead := (tget q.parkQ s.cc.vatKey).takeWhile (· != s.cur)
  decide (q.parkOpen s.cc.vatKey s.now ≤ ahead.length)
/-- A stalled park takes its place. -/
def State.parkJoin (s : State) : State :=
  s.updQuad (quadOf s.cur) fun q =>
    let w := tget q.parkQ s.cc.vatKey
    if w.contains s.cur then q else { q with parkQ := tset q.parkQ s.cc.vatKey (w ++ [s.cur]) }
/-- A context leaves the queue of stalled parks. -/
def Quad.leaveParks (q : Quad) (cx : Nat) : Quad := { q with parkQ := q.parkQ.map fun x => (x.1, x.2.filter (· != cx)) }
/-- OPERAND_RANGE on an empty tag; DATA_POISON on a poisoned image (08 R191, 20 Table 20.1). -/
def State.unparkTrap (s : State) (slot tag : Nat) : Option Trap :=
  if !thas s.cc.tags tag then some ⟨cRANGE, slot, 0⟩
  else match tget (s.quad (quadOf s.cur)).parks (tget s.cc.tags tag) with
  | some p => if p.bad then some ⟨cPOISON, slot, 0⟩ else none
  | none => none

/-- pane.park of physical pane ph under a tag (08 R189), into the lowest free slot (log entry 99). -/
def State.park (s : State) (ph tag : Nat) : State :=
  let c := s.cc
  let q := s.quad (quadOf s.cur)
  let slot := (firstFrom 32 0 fun i => (tget q.parks i).isNone).getD 0
  let k := s.core (coreOf s.cur)
  let img := (List.range 64).map fun r => k.row ph r
  (s.setQuad (quadOf s.cur) { q.leaveParks s.cur with
    parks := tset q.parks slot (some { vat := c.vatKey, ctx := s.cur, wheel := c.wid, img := img }) }).updCur
      fun c => { c with tags := tset c.tags tag slot }

/-- pane.unpark into physical pane ph (08 R190): the slot is freed now, the rows arrive with latency 2. -/
def State.unpark (s : State) (slotNo ph tag : Nat) : State :=
  let q := s.quad (quadOf s.cur)
  let slot := tget s.cc.tags tag
  let img := match tget q.parks slot with | some p => p.img | none => []
  ((s.setQuad (quadOf s.cur) ({ q with parks := tset q.parks slot none }.noteUnpark s.cc.vatKey s.now)).updCur fun c => { c with tags := tdel c.tags tag }).land
    slotNo 2 { dest := .paneImg ph, img := img }

/- Hoops -/

def Quad.hoop (q : Quad) (i : Nat) : Stamped Hoop := tget q.hoops i
def State.putHoop (s : State) (quad i : Nat) (h : Hoop) : State :=
  s.updQuad quad fun q => { q with hoops := tset q.hoops i ((q.hoop i).put s.now h) }
def Hoop.slots (h : Hoop) : Nat := 2 ^ h.c
def Hoop.slotSize (h : Hoop) : Nat := 2 ^ (h.z + 8)
def Hoop.slotSt (h : Hoop) (i : Nat) : SlotSt := tget h.st i
/-- FILLED slots. -/
def Hoop.filled (h : Hoop) : Nat := ((List.range h.slots).filter fun i => h.slotSt i == .filled).length
/-- The write pointer: the first slot from rd that is not FILLED (13 R291). -/
def Hoop.wr (h : Hoop) : Nat :=
  match (List.range h.slots).find? fun i => h.slotSt ((h.rd + i) % h.slots) != .filled with
  | some i => (h.rd + i) % h.slots
  | none => h.rd

/-- A hoop as the running instruction sees it. -/
def State.hoopSeen (s : State) (i : Nat) : Hoop := ((s.quad (quadOf s.cur)).hoop i).seen s.now

/-- HOOP_RANGE on a hoop another vat owns, or on a free one except for hoop.init (13 R291), as it stood before this cycle
(R292). -/
def State.hoopOwnTrap (s : State) (i : Nat) (init : Bool) : Option Trap :=
  match (s.hoopSeen i).owner with
  | some v => if v = s.cc.vatKey then none else some ⟨cHOOP, 2, i⟩
  | none => if init then none else some ⟨cHOOP, 2, i⟩

/-- Where a hoop's ring lies: its base as a location, where the base and size are legal (13 R294). -/
def State.hoopBase (s : State) (base size ring : Nat) : Option Nat :=
  match regionOf base with
  | some (.glob, _) => none
  | some (_, last) =>
    if base % size = 0 ∧ base + ring - 1 ≤ last then some (spadAddr (coreOf s.cur) base) else none
  | none => none

/-- The traps of hoop.init (13 R294). -/
def State.hoopInitTrap (s : State) (i : Nat) (a b : Word) : Option Trap :=
  match s.hoopOwnTrap i true with
  | some t => some t
  | none =>
    let z := b.toNat % 16
    let c := b.toNat / 16 % 8
    if 2 ^ 7 ≤ b.toNat ∨ 8 < z ∨ c = 7 then some ⟨cRANGE, 2, 0⟩
    else if (s.hoopBase a.toNat (2 ^ (z + 8)) (2 ^ (z + 8 + c))).isNone then some ⟨cHOOP, 2, a.toNat⟩
    else none

/-- hoop.init (13 R294). Two of one cycle, by different vats, both see the hoop free and the later one takes it (log entry 100). -/
def State.hoopInit (s : State) (i : Nat) (a b : Word) : State :=
  let z := b.toNat % 16
  let c := b.toNat / 16 % 8
  s.putHoop (quadOf s.cur) i {
    owner := some s.cc.vatKey, base := (s.hoopBase a.toNat (2 ^ (z + 8)) (2 ^ (z + 8 + c))).getD 0, z := z, c := c }

/-- The word of hoop.query (13 R297). -/
def State.hoopWord (s : State) (i : Nat) : Word :=
  let h := s.hoopSeen i
  if h.owner = some s.cc.vatKey then
    BitVec.ofNat 64 (h.rd + h.wr * 2 ^ 8 + h.filled * 2 ^ 16 + h.c * 2 ^ 24 + h.z * 2 ^ 28 + 2 ^ 32)
  else 0

/-- hoop.rel: slot rd is RELEASING, rd advances, a mark is placed (13 R296). Of two of one cycle both see the same slot FILLED; the
second acts on the slot that rd has come to (log entry 118). What a later hoop.init does to the release is log entry 138. -/
def State.hoopRel (s : State) (i : Nat) : State :=
  let quad := quadOf s.cur
  let h := ((s.quad quad).hoop i).cur
  (s.putHoop quad i { h with st := tset h.st h.rd .releasing, rd := (h.rd + 1) % h.slots }).updCur
    fun c => c.enqOrder none false (.hoopRel quad i h.rd) false

/- Byte barriers -/

def Quad.bb (q : Quad) (i : Nat) : Stamped Bb := tget q.bbs i
def State.putBb (s : State) (quad i : Nat) (b : Bb) : State :=
  s.updQuad quad fun q => { q with bbs := tset q.bbs i ((q.bb i).put s.now b) }

/-- Completion when armed and arrived equals expected (13 R299). -/
def Bb.settle (b : Bb) : Bb :=
  if b.armed && b.arrived == b.expected then { b with phase := !b.phase, expected := 0, arrived := 0, armed := false } else b

/-- Arrivals counted; none where they would overflow (13 R300). -/
def Bb.arrive (b : Bb) (n : Nat) : Option Bb :=
  let a := b.arrived + n
  if (b.armed && decide (b.expected < a)) || decide (2 ^ 32 ≤ a) then none else some { b with arrived := a }.settle

/-- An expectation; none where it would overflow (13 R300, R301). -/
def Bb.expect (b : Bb) (n : Nat) : Option Bb :=
  let e := b.expected + n
  if 2 ^ 32 ≤ e ∨ e < b.arrived then none else some { b with expected := e, armed := true }.settle

/-- The barrier with its accepted arrivals applied in order (13 R301). -/
def Quad.bbAhead (q : Quad) (i : Nat) : Bb := (tget q.bbAcc i).foldl (fun b a => (b.arrive a.n).getD b) (q.bb i).cur

/-- HOOP_RANGE on a barrier another vat owns, BB_OVERFLOW on a broken one (13 R298, R300), as they stood before this cycle
(R299). -/
def State.bbOwnTrap (s : State) (i : Nat) : Option Trap :=
  let b := ((s.quad (quadOf s.cur)).bb i).seen s.now
  if b.owner.isSome ∧ b.owner ≠ some s.cc.vatKey then some ⟨cHOOP, 2, i⟩
  else if b.broken then some ⟨cBBOVF, 2, i⟩
  else none

def State.bbExpectTrap (s : State) (i n : Nat) : Option Trap :=
  match s.bbOwnTrap i with
  | some t => some t
  | none => if (((s.quad (quadOf s.cur)).bb i).cur.expect n).isNone then some ⟨cBBOVF, 2, i⟩ else none
def State.bbArriveTrap (s : State) (i n : Nat) : Option Trap :=
  match s.bbOwnTrap i with
  | some t => some t
  | none => if (((s.quad (quadOf s.cur)).bbAhead i).arrive n).isNone then some ⟨cBBOVF, 2, i⟩ else none

/-- bb.expect. Two vats that take a free barrier in one cycle both see it free; the later one has it (log entry 100). -/
def State.bbExpect (s : State) (d : SReg) (i n : Nat) : State :=
  let b := ((s.quad (quadOf s.cur)).bb i).cur
  let b' := ({ b with owner := some s.cc.vatKey }.expect n).getD b
  (s.putBb (quadOf s.cur) i b').landS 2 1 d (BitVec.ofNat 64 b.phase.toNat)

/-- bb.arrive: accepted, with its release placed (13 R301). -/
def State.bbArrive (s : State) (i n : Nat) : State :=
  let quad := quadOf s.cur
  let b := ((s.quad quad).bb i).cur
  let s := s.putBb quad i { b with owner := some s.cc.vatKey }
  let id := s.uid
  let s := { s with uid := id + 1 }
  (s.updQuad quad fun q => { q with bbAcc := tset q.bbAcc i (tget q.bbAcc i ++ [{ id := id, core := coreOf s.cur, n := n }]) }).updCur
    fun c => c.enqOrder none false (.bbArrive quad i id) false

/-- bb.wait waits until the phase differs (13 R301). -/
def State.bbWaits (s : State) (i : Nat) (a : Word) : Bool :=
  (((s.quad (quadOf s.cur)).bb i).seen s.now).phase == a.getLsbD 0
/-- A free barrier is taken. -/
def State.bbTake (s : State) (i : Nat) : State :=
  let b := ((s.quad (quadOf s.cur)).bb i).cur
  if b.owner.isNone then s.putBb (quadOf s.cur) i { b with owner := some s.cc.vatKey } else s
/-- bb.query. -/
def State.bbQuery (s : State) (d : SReg) (i : Nat) : State :=
  let b := ((s.quad (quadOf s.cur)).bb i).seen s.now
  let d1 : SReg := Fin.ofNat 64 (d.val + 1)
  if b.owner = some s.cc.vatKey then
    (s.landS 2 1 d (BitVec.ofNat 64 (b.expected * 2 ^ 32 + b.arrived))).landS 2 1 d1
      (BitVec.ofNat 64 (b.phase.toNat + 2 * b.armed.toNat + 4 * b.broken.toNat + 8))
  else (s.landS 2 1 d 0).landS 2 1 d1 0

/- Molds -/

def Mold.handle (m : Mold) : Nat := m.first * 256 + (m.count - 1)
/-- The mold a handle names among those the running wheel owns. -/
def State.ownedMold (s : State) (h : Nat) : Option Mold :=
  (s.core (coreOf s.cur)).molds.find? fun m =>
    m.vat == s.cc.vatKey && m.handle == h && m.st == .owned s.cur s.cc.wid
/-- Granules in molds. -/
def Core.moldGrans (k : Core) : List Nat := k.molds.flatMap fun m => (List.range m.count).map (· + m.first)
/-- The lowest run of n free reserved granules of a vat (13 Table 13.8). -/
def Core.moldRun (k : Core) (vat n : Nat) : Option Nat :=
  let res := tget k.moldRes vat
  firstFrom 256 0 fun f => (List.range n).all fun i => res.contains (f + i) && !k.moldGrans.contains (f + i)

/-- A core's molds with one replaced. -/
def Core.putMold (k : Core) (m m' : Mold) : Core := { k with molds := k.molds.map fun x => if x = m then m' else x }

/-- mold.get (13 Table 13.8). -/
def State.moldGet (s : State) (d : SReg) (n : Nat) : State :=
  let k := s.core (coreOf s.cur)
  let c := s.cc
  let mine : MoldSt := .owned s.cur c.wid
  if n = 0 then
    let gs := k.molds.filter fun m => m.vat == c.vatKey && m.st == .given c.vatKey c.wid.idx
    match gs.find? fun m => gs.all fun x => decide (m.order ≤ x.order) with
    | some m => (s.setCore (coreOf s.cur) (k.putMold m { m with st := mine })).landS 2 1 d (BitVec.ofNat 64 m.handle)
    | none => s.landS 2 1 d 0xFFFF
  else
    match k.moldRun c.vatKey n with
    | some f =>
      let m : Mold := { first := f, count := n, vat := c.vatKey, st := mine }
      (s.setCore (coreOf s.cur) { k with molds := k.molds ++ [m] }).landS 2 1 d (BitVec.ofNat 64 m.handle)
    | none => s.landS 2 1 d 0xFFFF

/-- mold.pass. -/
def State.moldPass (s : State) (h : Nat) : State :=
  match s.ownedMold h with
  | some m => s.updCore (coreOf s.cur) fun k =>
      { k.putMold m { m with st := .passed s.cur s.cc.wid, order := k.order } with order := k.order + 1 }
  | none => s
/-- mold.free. -/
def State.moldFree (s : State) (h : Nat) : State :=
  match s.ownedMold h with
  | some m => s.updCore (coreOf s.cur) fun k => { k with molds := k.molds.filter (· != m) }
  | none => s

end Sys2Proof.Machine
end

