-- ==== Sys2Proof/Machine/Sync.lean ====
section
/-! DEFINITION. Hardware semaphores (16 R339 to R343), gang barriers (01 R16 to R22, 07 R160), spawning (16 R338),
control registers (03 R75 to R79, 17 R360) and hardware loops (07 R149 to R151). -/

namespace Sys2Proof.Machine

/- Semaphores -/

def Die.sem (d : Die) (i : Nat) : Stamped Sem := tget d.sems i
def State.putSem (s : State) (die i : Nat) (v : Sem) : State :=
  s.updDie die fun d => { d with sems := tset d.sems i ((d.sem i).put s.now v) }
/-- The physical semaphore of a window index (16 R339). -/
def State.semOf (s : State) (i : Nat) : Nat := (s.vat s.cc.vatKey).desc.semBase + i

/-- OPERAND_RANGE outside the window, COUNTER_UE on a poisoned semaphore (16 R340, R343). -/
def State.semTrap (s : State) (i : Nat) : Option Trap :=
  if (s.vat s.cc.vatKey).desc.semCount ≤ i then some ⟨cRANGE, 3, i⟩
  else if ((s.die (dieOf s.cur)).sem (s.semOf i)).cur.bad then some ⟨cCOUNTER, 3, i⟩
  else none

/-- A signal applied (16 Table 16.3). -/
def Sem.signal (v : Sem) (n : Nat) : Sem :=
  if v.count + n < 2 ^ 32 then { v with count := v.count + n } else { v with count := 2 ^ 32 - 1, sat := true }
def State.signal (s : State) (die i n : Nat) : State :=
  let v := ((s.die die).sem i).cur
  if v.bad then s else s.putSem die i (v.signal n)

/-- sem.wait waits until this context is the oldest waiter and the count suffices (16 R340, R341). -/
def State.semWaits (s : State) (i n : Nat) : Bool :=
  let d := s.die (dieOf s.cur)
  let ws := tget d.waiters (s.semOf i)
  !(ws.head? == some s.cur || ws.isEmpty) || decide ((d.sem (s.semOf i)).cur.count < n)
/-- The waiting context joins the queue (16 R341). -/
def State.semJoin (s : State) (i : Nat) : State :=
  s.updDie (dieOf s.cur) fun d =>
    let ws := tget d.waiters (s.semOf i)
    if ws.contains s.cur then d else { d with waiters := tset d.waiters (s.semOf i) (ws ++ [s.cur]) }
/-- A context leaves every semaphore's queue. -/
def Die.leaveSems (d : Die) (cx : Nat) : Die := { d with waiters := d.waiters.map fun x => (x.1, x.2.filter (· != cx)) }
/-- sem.wait passes: its amount is taken, and an acquire at scope die is placed. -/
def State.semTake (s : State) (i n : Nat) : State :=
  let die := dieOf s.cur
  let v := ((s.die die).sem (s.semOf i)).cur
  ((s.putSem die (s.semOf i) { v with count := v.count - n, takenAt := some s.now }).updDie die (·.leaveSems s.cur)).updCur
    fun c => c.enqOrder (some .die) false .none false
/-- The word of sem.test (16 Table 16.3). -/
def State.semWord (s : State) (i : Nat) : Word :=
  let v := ((s.die (dieOf s.cur)).sem (s.semOf i)).seen s.now
  BitVec.ofNat 64 (v.count + v.sat.toNat * 2 ^ 32)

/- Barriers -/

/-- The unit of a scope that holds a context (01 Table 1.2). -/
def instOf (cx : Nat) : Scope → Nat
  | .lane => cx | .core => coreOf cx | .quad => quadOf cx | .die => dieOf cx | .module => modOf cx | .pod => 0

/-- The contexts that run wheels of a gang. -/
def State.gangCtxs (s : State) (vat g : Nat) : List Nat :=
  (s.ctxs.filter fun x => match x.2.wheel with
    | some w => w.vat == vat && (s.vat vat).gangOf w.idx == some g
    | none => false).map (·.1)

/-- Members whose arrival a barrier expects (01 R17, R19). -/
def State.barExpected (s : State) (vat g : Nat) (sc : Scope) (inst : Nat) : List Nat :=
  (s.gangCtxs vat g).filter fun cx => instOf cx sc == inst

/-- Whether a barrier completes at issue: scope lane, or a gang of one (01 R17, R18). -/
def State.barTrivial (s : State) (sc : Scope) : Bool := sc == .lane || (s.vat s.cc.vatKey).desc.gang == 0

/-- Whether a gang was broken before this cycle (01 R20, R21). -/
def Vat.brokenBefore (v : Vat) (g now : Nat) : Bool := thas v.broken g && decide (tget v.broken g < now)

/-- The traps of bar (01 R18, R20); an arrival of the cycle in which a fault breaks the gang comes first (R21). bar.lane completes at
issue in a broken gang too (log entry 117). -/
def State.barTrap (s : State) (sc : Scope) : Option Trap :=
  if sc = .lane ∨ s.cc.barOk = true then none
  else match (s.vat s.cc.vatKey).gangOf s.cc.wid.idx with
  | none => some ⟨cRANGE, 3, 0⟩
  | some g => if (s.vat s.cc.vatKey).brokenBefore g s.now then some ⟨cCANCEL, 3, 0⟩ else none

/-- Whether a member of a gang is halted or saved: no barrier of the gang releases (01 R22). -/
def State.gangHalted (s : State) (vat g : Nat) : Bool :=
  let v := s.vat vat
  let member (c : Ctx) : Bool := match c.wheel with | some w => w.vat == vat && v.gangOf w.idx == some g | none => false
  v.saves.any (fun k => k.ctxs.any fun x => member x.2) || s.ctxs.any fun x => x.2.phase == .halted && member x.2

/-- Instances that are satisfied release: their members' barriers may issue (01 R17, R19); of some gangs only. -/
def State.settleBarsIf (s : State) (vat : Nat) (ok : Nat → Bool) : State :=
  let v := s.vat vat
  let full (b : BarInst) : Bool := ok b.gang && !s.gangHalted vat b.gang && (s.barExpected vat b.gang b.scope b.inst).all fun cx => b.arrived.contains (s.ctx cx).wid.idx
  let done := v.bars.filter full
  let s := s.setVat vat { v with bars := v.bars.filter (!full ·) }
  done.foldl (fun s b => (s.barExpected vat b.gang b.scope b.inst).foldl (fun s cx =>
    s.updCtx cx fun c => { c with barIn := none, barOk := true }) s) s

/-- Instances of gangs that are not broken release where they are satisfied: a broken gang's never do (01 R20). -/
def State.settleBars (s : State) (vat : Nat) : State := s.settleBarsIf vat fun g => !thas (s.vat vat).broken g

/-- A waiting barrier whose release has been performed records its arrival once (07 R160). -/
def State.barArrive (s : State) (sc : Scope) : State :=
  let c := s.cc
  if !(c.lq.isEmpty && c.sq.isEmpty) || c.barIn.isSome || c.barOk ||
      ((sc == Scope.pod) && c.farSent.any s.farOpen) then s
  else match (s.vat c.vatKey).gangOf c.wid.idx with
  | none => s
  | some g =>
    let inst := instOf s.cur sc
    let s := s.updCur fun c => { c with barIn := some sc }
    let s := s.updVat c.vatKey fun v =>
      if v.bars.any fun b => b.gang == g && b.scope == sc && b.inst == inst then
        { v with bars := v.bars.map fun b =>
          if b.gang = g ∧ b.scope = sc ∧ b.inst = inst then { b with arrived := nsAdd b.arrived c.wid.idx } else b }
      else { v with bars := v.bars ++ [{ gang := g, scope := sc, inst := inst, arrived := [c.wid.idx] }] }
    s.settleBarsIf c.vatKey fun g => !(s.vat c.vatKey).brokenBefore g s.now

/-- bar issues: the mark and the acquire at its scope stand before the LD and ST slots (14 Table 14.1). -/
def State.barPass (s : State) (sc : Scope) : State :=
  s.updCur fun c => { c with barOk := false, barIn := none }.enqOrder (some sc) (sc == Scope.pod) .none false

/- Spawning -/

/-- The traps of wheel.spawn (16 R338); a vat that grants no further index (R353) has none left (log entry 101). -/
def State.spawnTrap (s : State) : Option Trap :=
  let v := s.vat s.cc.vatKey
  if v.desc.spawnLimit = 0 ∨ v.next = 2 ^ 32 ∨ v.lostLeader then some ⟨cRANGE, 3, 0⟩ else none
def State.spawnWaits (s : State) : Bool :=
  let v := s.vat s.cc.vatKey
  v.spawns.length == v.desc.spawnLimit
/-- WheelSpawn (16 R338). -/
def State.spawn (s : State) (arg : Word) (core : Bool) : State :=
  let c := s.cc
  let idx := (s.vat c.vatKey).next
  let s := s.updVat c.vatKey fun v => { v with
    next := idx + 1, spawned := v.spawned + 1,
    spawns := v.spawns ++ [{ idx := idx, arg := arg, core := if core then some (coreOf s.cur) else none, die := dieOf s.cur }] }
  let s := if core then s.updCore (coreOf s.cur) fun k =>
      { k with molds := k.molds.map fun m => if m.st = .passed s.cur c.wid then { m with st := .given c.vatKey idx } else m }
    else s
  s.updCur fun c => c.enqOrder none false (.spawn c.vatKey idx) false

/- Control registers -/

/-- The pod die number of a die (01 R10). -/
def State.podDie (s : State) (die : Nat) : Nat := 8 * ((s.modu (die / 8)).modcfg.toNat % 512) + die % 8
/-- PEERID: the lowest peer whose valid entry names the die (18 R387); 0 where none names it (log entry 149). -/
def State.peerId (s : State) (vat die : Nat) : Nat :=
  (((s.vat vat).peers.zipIdx.find? fun x => x.1.valid && x.1.target == s.podDie die).map (·.2)).getD 0

/-- Numbers of the user registers, and those that may be written (03 Table 3.5). -/
def csrUser (n : Nat) : Bool :=
  n < 5 || (0x10 ≤ n && n < 0x18) || (0x20 ≤ n && n < 0x25)
def csrUserRw (n : Nat) : Bool := n < 3
/-- Numbers of the privileged registers, and those that may be written (17 Table 17.2). -/
def csrPriv (n : Nat) : Bool := 0x100 ≤ n && n < 0x107
def csrPrivRw (n : Nat) : Bool := 0x100 ≤ n && n < 0x104

/-- A control register as the issuing bundle reads it (03 Table 3.5, 07 R157, 17 Table 17.2). PARKFREE counts a slot that an unpark frees
from the next cycle on (log entry 133). -/
def State.csrRead (s : State) (n : Nat) : Word :=
  let c := s.cc
  let core := coreOf s.cur
  let die := dieOf s.cur
  let v := s.vat c.vatKey
  let nat (x : Nat) : Word := BitVec.ofNat 64 x
  if n = 0x000 then c.fmt
  else if n = 0x001 then c.key
  else if n = 0x002 then c.status
  else if n = 0x003 then nat (s.now - (s.modu (die / 8)).resetAt)
  else if n = 0x004 then if v.desc.budget = 0 then BitVec.allOnes 64 else nat v.energy
  else if n = 0x010 then nat (s.cur % 4)
  else if n = 0x011 then nat (coreId core)
  else if n = 0x012 then nat (coreId core / 4)
  else if n = 0x013 then nat (die % 8)
  else if n = 0x014 then nat ((s.modu (die / 8)).modcfg.toNat % 512)
  else if n = 0x015 then nat (s.peerId c.vatKey die)
  else if n = 0x016 then nat (c.vatKey % 2 ^ 32)
  else if n = 0x017 then nat c.wid.idx
  else if n = 0x020 then nat c.panebase
  else if n = 0x021 then nat c.panecnt
  else if n = 0x022 then nat ((s.quad (quadOf s.cur)).parkOpen c.vatKey s.now)
  else if n = 0x023 then nat c.dictbase
  else if n = 0x024 then nat (2 + v.desc.sfu * 2 ^ 16)
  else if n = 0x100 then c.cause
  else if n = 0x101 then c.epc
  else if n = 0x102 then c.tval
  else if n = 0x103 then c.tvec
  else if n = 0x104 then c.saveptr
  else if n = 0x105 then nat c.level
  else if n = 0x106 then c.tbundle
  else 0

/-- PRIVILEGED at issue (02 Table 2.5, 03 R76, 20 R429). -/
def csrPrivTrap (level n : Nat) : Bool := (0x100 ≤ n && n < 0x200 && level == 0) || 0x200 ≤ n
/-- OPERAND_RANGE: a reserved number, or a write of a read-only register (03 R76, 07 R158, 17 R360). -/
def csrRangeTrap (n : Nat) (write : Bool) : Bool :=
  !(csrUser n || csrPriv n) || (write && !(csrUserRw n || csrPrivRw n))
/-- OPERAND_RANGE: a value the register does not accept (03 R77, R78, 17 Table 17.2). -/
def csrValueTrap (n : Nat) (v : Word) : Bool :=
  (n == 0 && !fmtLegal v) || (n == 2 && !statusLegal v) || ((n == 0x101 || n == 0x103) && v.getLsbD 0)

/-- A control-register write issues (07 R158). -/
def State.csrWrite (s : State) (n : Nat) (v : Word) : State :=
  if n = 0 then s.updCur fun c => c.writeFmt v
  else if n = 1 then s.land 3 1 { dest := .key, value := BitVec.setWidth 1024 v }
  else if n = 2 then s.land 3 1 { dest := .status, value := BitVec.setWidth 1024 v }
  else s.land 3 1 { dest := .csr n, value := BitVec.setWidth 1024 v }

/-- The base of a read-modify-write (07 R157). -/
def State.csrBase (s : State) (n : Nat) : Word := if n = 0 then s.cc.fmtBase else s.csrRead n

/- Loops and the next address -/

/-- The target of an offset counted in code words (05 R117). -/
def Ctx.target (c : Ctx) (off : Word) : Word := c.pc + 2 * off
/-- The fall-through address of the running bundle, or of the one whose issue is examined (07 R147). -/
def State.nextSeq (s : State) : Word := s.cc.pc + BitVec.ofNat 64 s.issue.len

/-- The traps of loop and loopi (07 R150). -/
def State.loopTrap (s : State) (stop : Word) : Option Trap :=
  let ls := s.cc.lv.loops
  let seq := s.nextSeq
  let last := match ls.getLast? with
    | some e => decide (e.start.toNat ≤ s.cc.pc.toNat) && decide (s.cc.pc.toNat < e.stop.toNat) && e.stop == seq
    | none => false
  if stop.toNat ≤ seq.toNat ∨ 4 ≤ ls.length ∨ (ls.any fun e => e.stop == stop) ∨ last = true then some ⟨cRANGE, 3, 0⟩ else none

/-- The bundle holds a taken branch. -/
def State.setBranch (s : State) (t : Word) : State := { s with issue := { s.issue with branch := some t } }
/-- The bundle holds a loop of a count. -/
def State.setLoop (s : State) (stop : Word) (n : Nat) : State :=
  { s with issue := { s.issue with loop := some { start := s.nextSeq, stop := stop, count := n } } }

/-- The stack with an exit's entry and every entry above it popped. -/
def popTo (ls : List Loop) (t : Word) : List Loop :=
  match ls with
  | [] => []
  | e :: rest => if e.stop = t then [] else e :: popTo rest t

/-- NextAddress (07 R151): the next address and the loop stack, bottom entry first. -/
def nextAddress (pc seq : Word) (branch : Option Word) (loop : Option Loop) (ls : List Loop) : Word × List Loop :=
  match branch with
  | some t => (t, popTo ls t)
  | none =>
    match loop with
    | some l => if l.count = 0 then (l.stop, ls) else (seq, ls ++ [l])
    | none =>
      match ls.getLast? with
      | some e =>
        if e.start.toNat ≤ pc.toNat ∧ pc.toNat < e.stop.toNat ∧ seq = e.stop then
          if e.count > 1 then (e.start, ls.dropLast ++ [{ e with count := e.count - 1 }]) else (seq, ls.dropLast)
        else (seq, ls)
      | none => (seq, ls)

end Sys2Proof.Machine
end

