-- ==== Sys2Proof/Machine/Slot.lean ====
section
/-! DEFINITION. What one slot of a bundle is at issue: its traps, its waits and its effect, and the checks of a bundle
made of such slots (02 R37, R40 to R44, 10 R203, 17 R356). -/

namespace Sys2Proof.Machine

/-- One slot's instruction as the issue logic sees it: the slot number, the predicate, the panes it names, whether its
register groups are aligned, what PRIVILEGED records at a level, the registers it reads, the entries it needs in the
load and the store queue and the counter it raises, its own traps and waits, the pages it accesses, what a waiting bundle leaves behind
(late: only when nothing else waits), what its trap does beside trapping, and its effect. -/
structure SlotOp where
  slot : Nat := 0
  pred : Option PReg := none
  panes : List PaneNo := []
  groups : Bool := true
  priv : Nat → Option Nat := fun _ => none
  srcs : Ctx → List RegId := fun _ => []
  lq : Nat := 0
  sq : Nat := 0
  cls : Option Nat := none
  trap : State → Option Trap := fun _ => none
  wait : State → Bool := fun _ => false
  pages : Ctx → List Nat := fun _ => []
  note : State → State := id
  late : Bool := false
  onTrap : Trap → State → State := fun _ s => s
  eff : State → State := id

/-- The predicate as the issuing bundle reads it; a slot with a false one has no effect and traps at no execution rule
(02 R37). -/
def SlotOp.active (o : SlotOp) (s : State) : Bool :=
  match o.pred with
  | some p => s.cc.pr p.val
  | none => true

/-- OPERAND_RANGE of 02 Table 2.5, order 5: a pane outside the window (03 R62), a misaligned group (03 R60). -/
def SlotOp.rangeBad (o : SlotOp) (s : State) : Bool :=
  o.panes.any (fun p => decide (s.cc.panecnt ≤ p.val)) || !o.groups

/-- The registers a slot reads, its predicate among them; the others only with a true predicate. -/
def SlotOp.reads (o : SlotOp) (s : State) : List RegId :=
  (match o.pred with | some p => [RegId.p p] | none => []) ++ if o.active s then o.srcs s.cc else []

/-- DATA_POISON on a read of a poisoned register (20 Table 20.1), then the slot's own traps. -/
def SlotOp.execTrap (o : SlotOp) (s : State) : Option Trap :=
  if (o.reads s).any s.cc.marks.contains then some ⟨cPOISON, o.slot, 0⟩
  else if o.active s then o.trap s
  else none

/-- The first trap of a list of slots, lowest slot first, under one rule. -/
def firstTrap (os : List SlotOp) (f : SlotOp → Option Trap) : Option (SlotOp × Trap) :=
  match os with
  | [] => none
  | o :: t => match f o with
    | some x => some (o, x)
    | none => firstTrap t f

/-- The trap of a bundle's slots, in the orders of 02 Table 2.5 and then the execution-time traps (02 R41). -/
def State.bundleTrap (s : State) (os : List SlotOp) : Option (SlotOp × Trap) :=
  match firstTrap os fun o => if o.rangeBad s then some ⟨cRANGE, o.slot, 0⟩ else none with
  | some x => some x
  | none =>
    match firstTrap os fun o => (o.priv s.cc.level).map fun v => ⟨cPRIV, o.slot, v⟩ with
    | some x => some x
    | none => firstTrap os fun o => o.execTrap s

/-- A full queue or a counter that would reach 255 (02 R44, 07 R153, 10 R205). -/
def State.queueWaits (s : State) (os : List SlotOp) : Bool :=
  let c := s.cc
  let on := os.filter (·.active s)
  let lq := on.foldl (fun n o => n + o.lq) 0
  let sq := on.foldl (fun n o => n + o.sq) 0
  let need (k : Nat) : Nat := (on.filter fun o => o.cls == some k).length
  (lq != 0 && decide (64 < entriesOf c.lq + lq)) || (sq != 0 && decide (64 < entriesOf c.sq + sq))
  || (List.range 4).any fun k => need k != 0 && decide (254 < c.cnt k + need k)

/-- Whether one slot waits (02 R44). -/
def SlotOp.waits (o : SlotOp) (s : State) : Bool := o.active s && o.wait s

/-- Whether a bundle of slots waits. -/
def State.bundleWaits (s : State) (os : List SlotOp) : Bool := s.queueWaits os || os.any (·.waits s)

/-- What a waiting bundle leaves behind: places in queues of waiters, and an arrival at a barrier once nothing else
of the bundle waits (07 R160, 16 R341). -/
def State.noteWaits (s : State) (os : List SlotOp) : State :=
  let early := os.filter fun o => !o.late && o.waits s
  if s.queueWaits os || !early.isEmpty then early.foldl (fun s o => o.note s) s
  else (os.filter fun o => o.late && o.waits s).foldl (fun s o => o.note s) s

/-- A context leaves the queues of waiters it stands in. -/
def State.leaveWaits (s : State) (cx : Nat) : State :=
  (s.updDie (dieOf cx) (·.leaveSems cx)).updQuad (quadOf cx) (·.leaveParks cx)

/-- A trap raised by a slot: nothing of the bundle takes effect (17 R356). -/
def State.raise (s : State) (o : SlotOp) (t : Trap) : State := ((o.onTrap t s).leaveWaits s.cur).takeTrap t

/-- One instruction. In a bundle that has passed its checks it has its effect where its predicate is true; alone, it is
a bundle of one slot that traps, waits or issues. -/
def runOp (o : SlotOp) (s : State) : Host.Outcome State Fault Refusal :=
  if s.issue.active then .next (if o.active s then o.eff s else s)
  else match s.bundleTrap [o] with
  | some (o, t) => .next (s.raise o t)
  | none =>
    if s.bundleWaits [o] then .next (s.noteWaits [o])
    else .next (if o.active s then o.eff s else s)

/-- The registers that reading a vector operand of n elements of size e reads. -/
def opndSrcs (c : Ctx) (e n : Nat) : Opnd → List RegId
  | .main .row p i => [.row (c.panebase + p.val) i.val]
  | .main d p i => ((List.range n).map fun j => RegId.row (c.panebase + p.val) (paneCell d i.val j e).1).eraseDups
  | .opr o => [.o o]
  | .lat l => [.lat l]
  | .imm _ => []

/-- The pane an operand names. -/
def opndPane : Opnd → List PaneNo
  | .main _ p _ => [p]
  | _ => []

/-- Scalar registers read. -/
def sSrcs (l : List SReg) : Ctx → List RegId := fun _ => l.map RegId.s

end Sys2Proof.Machine
end

