-- ==== Sys2Proof/Machine/Control.lean ====
section
/-! DEFINITION. The C slot (07 R147 to R163, 16 R338 to R341, 17 R360 to R363, R374): branches, loops, waits, control registers, barriers, wheel ends, semaphores, spawning and the system instructions. -/

namespace Sys2Proof.Machine

/-- A branch offset in bytes (05 R117). -/
def offBytes (c : Ctx) (off : BitVec 25) : Word := c.target (off.signExtend 64)

/-- ALIGN on an odd target (07 R148). -/
def jumpTrap (t : Word) : Option Trap := if t.getLsbD 0 then some ⟨cALIGN, 3, t.toNat⟩ else none

/-- The thresholds of a waitc: 255 waits for nothing (07 R154). -/
def waitcMet (c : Ctx) (ts : List Nat) : Bool :=
  ts.zipIdx.all fun (x : Nat × Nat) => x.1 == 255 || decide (c.cnt x.2 ≤ x.1)
/-- Whether thresholds that are met imply the completion of a poisoned operation (07 R153, 10 R210). -/
def recDue (ts : List Nat) (r : PoisonRec) : Bool :=
  match ts[r.cls]? with
  | some t => t != 255 && decide (t ≤ r.after)
  | none => false
/-- DATA_POISON at a waitc of the level (10 R210). -/
def waitcTrap (s : State) (ts : List Nat) : Option Trap :=
  if waitcMet s.cc ts then (s.cc.lv.poison.find? (recDue ts)).map fun r => ⟨cPOISON, 3, r.addr⟩ else none
/-- A DATA_POISON that a record raised clears the record; no other trap of the instruction does (10 R210). -/
def clearRec (p : PReg) (ts : List Nat) (t : Trap) (s : State) : State :=
  if t.code = cPOISON ∧ !s.cc.marks.contains (.p p) then
    s.updCur fun c => c.setLv { c.lv with poison := c.lv.poison.eraseP (recDue ts) }
  else s
/-- Thresholds of zero: every counter is 0 (17 R362). -/
def allZero : List Nat := [0, 0, 0, 0]

/-- A control-register instruction: PRIVILEGED and OPERAND_RANGE (03 R76, 07 R158, 17 R360). -/
def csrOp (p : PReg) (n : BitVec 12) (write : Bool) (srcs : List RegId) (v : State → Word) (eff : State → State) : SlotOp :=
  { slot := 3, pred := some p, srcs := fun _ => srcs,
    priv := fun l => if csrPrivTrap l n.toNat then some n.toNat else none,
    trap := fun s => if csrRangeTrap n.toNat write || (write && csrValueTrap n.toNat (v s)) then some ⟨cRANGE, 3, 0⟩ else none,
    eff := eff }

/-- A privileged instruction below its level (17 §17.3). -/
def privAt (opcode l : Nat) : Option Nat := if l = 0 then some opcode else none

/-- The block of ssave and srest (17 R363). -/
def saveBlock (s : State) (a : SReg) : Nat := (s.cc.saveptr + s.cc.sr a.val).toNat
/-- ALIGN and XLATE_MISS of the block (17 R363, 20 R423). -/
def saveTrap (s : State) (a : SReg) : Option Trap :=
  let b := saveBlock s a
  if b % 64 ≠ 0 then some ⟨cALIGN, 3, b⟩
  else match regionOf b with
  | none => some ⟨cMISS, 3, b⟩
  | some (.glob, _) => some ⟨cMISS, 3, b⟩
  | some (reg, last) =>
    if s.coreAbsent (regionCore (coreOf s.cur) reg) then some ⟨cMISS, 3, b⟩
    else if last < b + 767 then some ⟨cMISS, 3, last + 1⟩
    else none
/-- The locations of the block. -/
def saveLocs (s : State) (a : SReg) : List Nat :=
  (List.range 768).map fun j => spadAddr (coreOf s.cur) (saveBlock s a + j)
/-- The bytes ssave stores (17 Table 17.3). -/
def saveBytes (c : Ctx) : List Byte :=
  ((List.range 64).flatMap fun i => leBytes 8 (c.sr i).toNat) ++
  ((List.range 8).flatMap fun i => leBytes 16 (c.kr i).toNat) ++
  [BitVec.ofNat 8 ((List.range 8).foldl (fun a i => a + (c.pr i).toNat * 2 ^ i) 0)] ++ List.replicate 127 0
/-- Every register of the block. -/
def saveSrcs : List RegId :=
  ((List.range 64).map fun i => RegId.s (Fin.ofNat 64 i)) ++ (List.range 8).flatMap fun i => [RegId.k (Fin.ofNat 8 i), RegId.p (Fin.ofNat 8 i)]

/-- The semaphore index of a sem instruction. -/
def semIdx (s : State) (a : SReg) : Nat := (s.cc.sr a.val).toNat

/-- BR: a taken branch (07 R147). -/
def brOp (p : PReg) (off : BitVec 25) : SlotOp := { slot := 3, pred := some p, eff := fun s => s.setBranch (offBytes s.cc off) }
def execBr (p : PReg) (off : BitVec 25) (s : State) : Host.Outcome State Fault Refusal :=
  runOp (brOp p off) s

/-- CALL: a branch with a link (07 R147). -/
def callOp (p : PReg) (d : SReg) (off : BitVec 25) : SlotOp :=
  { slot := 3, pred := some p, eff := fun s => (s.landS 3 1 d s.nextSeq).setBranch (offBytes s.cc off) }
def execCall (p : PReg) (d : SReg) (off : BitVec 25) (s : State) : Host.Outcome State Fault Refusal :=
  runOp (callOp p d off) s

/-- JMP: a branch to a register, ALIGN on an odd one (07 R147, R148). -/
def jmpOp (p : PReg) (a : SReg) : SlotOp :=
  { slot := 3, pred := some p, srcs := sSrcs [a], trap := fun s => jumpTrap (s.cc.sr a.val),
    eff := fun s => s.setBranch (s.cc.sr a.val) }
def execJmp (p : PReg) (a : SReg) (s : State) : Host.Outcome State Fault Refusal :=
  runOp (jmpOp p a) s

/-- CALLR: a branch to a register with a link (07 R147, R148). -/
def callrOp (p : PReg) (d : SReg) (a : SReg) : SlotOp :=
  { slot := 3, pred := some p, srcs := sSrcs [a], trap := fun s => jumpTrap (s.cc.sr a.val),
    eff := fun s => (s.landS 3 1 d s.nextSeq).setBranch (s.cc.sr a.val) }
def execCallr (p : PReg) (d : SReg) (a : SReg) (s : State) : Host.Outcome State Fault Refusal :=
  runOp (callrOp p d a) s

/-- LOOP: a hardware loop counted by a register (07 R149, R150). -/
def loopOp (p : PReg) (a : SReg) (off : BitVec 25) : SlotOp :=
  { slot := 3, pred := some p, srcs := sSrcs [a], trap := fun s => s.loopTrap (offBytes s.cc off),
    eff := fun s => s.setLoop (offBytes s.cc off) (s.cc.sr a.val).toNat }
def execLoop (p : PReg) (a : SReg) (off : BitVec 25) (s : State) : Host.Outcome State Fault Refusal :=
  runOp (loopOp p a off) s

/-- LOOPI: a hardware loop counted by an immediate (07 R149, R150). -/
def loopiOp (p : PReg) (n : BitVec 12) (off : BitVec 25) : SlotOp :=
  { slot := 3, pred := some p, trap := fun s => s.loopTrap (offBytes s.cc off),
    eff := fun s => s.setLoop (offBytes s.cc off) n.toNat }
def execLoopi (p : PReg) (n : BitVec 12) (off : BitVec 25) (s : State) : Host.Outcome State Fault Refusal :=
  runOp (loopiOp p n off) s

/-- WAITC: waits for the outstanding-operation counters and raises poison records (07 R154, 10 R210). -/
def waitcOp (p : PReg) (t0 : BitVec 8) (t1 : BitVec 8) (t2 : BitVec 8) (t3 : BitVec 8) : SlotOp :=
  let ts := [t0.toNat, t1.toNat, t2.toNat, t3.toNat]
  { slot := 3, pred := some p, wait := fun s => !waitcMet s.cc ts, trap := fun s => waitcTrap s ts,
    onTrap := clearRec p ts }
def execWaitc (p : PReg) (t0 : BitVec 8) (t1 : BitVec 8) (t2 : BitVec 8) (t3 : BitVec 8) (s : State) : Host.Outcome State Fault Refusal :=
  runOp (waitcOp p t0 t1 t2 t3) s

/-- CSRR: sD ← REG (07 R156, R157). -/
def csrrOp (p : PReg) (n : BitVec 12) (d : SReg) : SlotOp := csrOp p n false [.csr n.toNat] (fun _ => 0) fun s => s.landS 3 1 d (s.csrRead n.toNat)
def execCsrr (p : PReg) (n : BitVec 12) (d : SReg) (s : State) : Host.Outcome State Fault Refusal :=
  runOp (csrrOp p n d) s

/-- CSRW: REG ← sA (07 R156, R158). -/
def csrwOp (p : PReg) (n : BitVec 12) (a : SReg) : SlotOp := csrOp p n true [.s a] (fun s => s.cc.sr a.val) fun s => s.csrWrite n.toNat (s.cc.sr a.val)
def execCsrw (p : PReg) (n : BitVec 12) (a : SReg) (s : State) : Host.Outcome State Fault Refusal :=
  runOp (csrwOp p n a) s

/-- CSRS: sD ← REG, then REG ← base OR sA (07 R156, R157). -/
def csrsOp (p : PReg) (n : BitVec 12) (a : SReg) (d : SReg) : SlotOp :=
  csrOp p n true [.s a, .csr n.toNat] (fun s => s.csrBase n.toNat ||| s.cc.sr a.val) fun s =>
    (s.landS 3 1 d (s.csrRead n.toNat)).csrWrite n.toNat (s.csrBase n.toNat ||| s.cc.sr a.val)
def execCsrs (p : PReg) (n : BitVec 12) (a : SReg) (d : SReg) (s : State) : Host.Outcome State Fault Refusal :=
  runOp (csrsOp p n a d) s

/-- CSRC: sD ← REG, then REG ← base AND NOT sA (07 R156, R157). -/
def csrcOp (p : PReg) (n : BitVec 12) (a : SReg) (d : SReg) : SlotOp :=
  csrOp p n true [.s a, .csr n.toNat] (fun s => s.csrBase n.toNat &&& ~~~(s.cc.sr a.val)) fun s =>
    (s.landS 3 1 d (s.csrRead n.toNat)).csrWrite n.toNat (s.csrBase n.toNat &&& ~~~(s.cc.sr a.val))
def execCsrc (p : PReg) (n : BitVec 12) (a : SReg) (d : SReg) (s : State) : Host.Outcome State Fault Refusal :=
  runOp (csrcOp p n a d) s

/-- BAR: a barrier of a scope: release, arrival, wait, acquire (01 R16 to R20, 07 R159, R160). -/
def barOp (p : PReg) (sc : Scope) : SlotOp :=
  { slot := 3, pred := some p, late := true, trap := fun s => s.barTrap sc,
    wait := fun s => !(s.barTrivial sc || s.cc.barOk), note := fun s => s.barArrive sc, eff := fun s => s.barPass sc }
def execBar (p : PReg) (sc : Scope) (s : State) : Host.Outcome State Fault Refusal :=
  runOp (barOp p sc) s

/-- BREAK: the precise trap BREAK (07 R161). -/
def brkOp (p : PReg) (imm : BitVec 16) : SlotOp := { slot := 3, pred := some p, trap := fun _ => some ⟨cBREAK, 3, imm.toNat⟩ }
def execBrk (p : PReg) (imm : BitVec 16) (s : State) : Host.Outcome State Fault Refusal :=
  runOp (brkOp p imm) s

/-- WHEEL_END: the wheel issues no further bundle; every pending result is delivered (07 R162). -/
def wheelEndOp (p : PReg) : SlotOp :=
  { slot := 3, pred := some p, eff := fun s =>
    (s.deliverAll s.cur).updCur fun c => { c with phase := .ending } }
def execWheelEnd (p : PReg) (s : State) : Host.Outcome State Fault Refusal :=
  runOp (wheelEndOp p) s

/-- WHEEL_SPAWN: queues a wheel (16 R338). -/
def wheelSpawnOp (p : PReg) (a : SReg) : SlotOp :=
  { slot := 3, pred := some p, srcs := sSrcs [a], trap := fun s => s.spawnTrap, wait := fun s => s.spawnWaits,
    eff := fun s => s.spawn (s.cc.sr a.val) false }
def execWheelSpawn (p : PReg) (a : SReg) (s : State) : Host.Outcome State Fault Refusal :=
  runOp (wheelSpawnOp p a) s

/-- WHEEL_SPAWN_CORE: queues a wheel for the same core (16 R338). -/
def wheelSpawnCoreOp (p : PReg) (a : SReg) : SlotOp :=
  { slot := 3, pred := some p, srcs := sSrcs [a], trap := fun s => s.spawnTrap, wait := fun s => s.spawnWaits,
    eff := fun s => s.spawn (s.cc.sr a.val) true }
def execWheelSpawnCore (p : PReg) (a : SReg) (s : State) : Host.Outcome State Fault Refusal :=
  runOp (wheelSpawnCoreOp p a) s

/-- SEM_SIG: a release at scope die, then the signal (16 R340). -/
def semSigOp (p : PReg) (a : SReg) (n : BitVec 16) : SlotOp :=
  { slot := 3, pred := some p, srcs := sSrcs [a], trap := fun s => s.semTrap (semIdx s a),
    eff := fun s => s.updCur fun c =>
      c.enqOrder none false (.signal (dieOf s.cur) (s.semOf (semIdx s a)) n.toNat) false }
def execSemSig (p : PReg) (a : SReg) (n : BitVec 16) (s : State) : Host.Outcome State Fault Refusal :=
  runOp (semSigOp p a n) s

/-- SEM_WAIT: waits in arrival order for a count and takes it (16 R340, R341). -/
def semWaitOp (p : PReg) (a : SReg) (n : BitVec 16) : SlotOp :=
  { slot := 3, pred := some p, srcs := sSrcs [a], trap := fun s => s.semTrap (semIdx s a),
    wait := fun s => s.semWaits (semIdx s a) n.toNat, note := fun s => s.semJoin (semIdx s a),
    eff := fun s => s.semTake (semIdx s a) n.toNat }
def execSemWait (p : PReg) (a : SReg) (n : BitVec 16) (s : State) : Host.Outcome State Fault Refusal :=
  runOp (semWaitOp p a n) s

/-- SEM_TEST: the count and the saturated bit (16 R340). -/
def semTestOp (p : PReg) (d : SReg) (a : SReg) : SlotOp :=
  { slot := 3, pred := some p, srcs := sSrcs [a], trap := fun s => s.semTrap (semIdx s a),
    eff := fun s => s.landS 3 1 d (s.semWord (semIdx s a)) }
def execSemTest (p : PReg) (d : SReg) (a : SReg) (s : State) : Host.Outcome State Fault Refusal :=
  runOp (semTestOp p d a) s

/-- TRET: returns from level 1 (17 R362). -/
def tretOp (p : PReg) : SlotOp :=
  { slot := 3, pred := some p, srcs := fun _ => [.csr 0x101], priv := privAt 0x30, wait := fun s => !waitcMet s.cc allZero,
    trap := fun s => waitcTrap s allZero, eff := State.trapReturn,
    onTrap := fun t s => if s.cc.marks.contains (.csr 0x101) then s else clearRec p allZero t s }
def execTret (p : PReg) (s : State) : Host.Outcome State Fault Refusal :=
  runOp (tretOp p) s

/-- XLAT_INV_RANGE: invalidates a range entry; the next bundle waits for its completion (17 R374). -/
def xlatInvRangeOp (p : PReg) (i : Fin 64) : SlotOp :=
  { slot := 3, pred := some p, priv := privAt 0x31,
    trap := fun s => if (s.vat s.cc.vatKey).desc.ranges ≤ i.val then some ⟨cRANGE, 3, i.val⟩ else none,
    eff := fun s => s.updCur fun c => { c with xinv := some (.range i.val) } }
def execXlatInvRange (p : PReg) (i : Fin 64) (s : State) : Host.Outcome State Fault Refusal :=
  runOp (xlatInvRangeOp p i) s

/-- XLAT_INV_PAGE: invalidates the translations of a page (17 R374). -/
def xlatInvPageOp (p : PReg) (a : SReg) : SlotOp :=
  { slot := 3, pred := some p, priv := privAt 0x31, srcs := sSrcs [a],
    eff := fun s => s.updCur fun c => { c with xinv := some (.page (s.cc.sr a.val).toNat) } }
def execXlatInvPage (p : PReg) (a : SReg) (s : State) : Host.Outcome State Fault Refusal :=
  runOp (xlatInvPageOp p a) s

/-- XLAT_INV_VAT: invalidates every translation of the vat (17 R374). -/
def xlatInvVatOp (p : PReg) : SlotOp :=
  { slot := 3, pred := some p, priv := privAt 0x31,
    eff := fun s => s.updCur fun c => { c with xinv := some .vat } }
def execXlatInvVat (p : PReg) (s : State) : Host.Outcome State Fault Refusal :=
  runOp (xlatInvVatOp p) s

/-- SSAVE: stores the trap save block (17 R363). -/
def ssaveOp (p : PReg) (a : SReg) : SlotOp :=
  { slot := 3, pred := some p, priv := privAt 0x32, sq := 1, cls := some 2, trap := fun s => saveTrap s a,
    srcs := fun _ => .s a :: saveSrcs,
    eff := fun s => s.updCur fun c => c.enq false (some 2)
      { kind := .store, ea := saveBlock s a, size := 768, unit := 4, locs := saveLocs s a, data := saveBytes c } }
def execSsave (p : PReg) (a : SReg) (s : State) : Host.Outcome State Fault Refusal :=
  runOp (ssaveOp p a) s

/-- SREST: loads the trap save block (17 R363). -/
def srestOp (p : PReg) (a : SReg) : SlotOp :=
  { slot := 3, pred := some p, priv := privAt 0x33, lq := 1, cls := some 1, trap := fun s => saveTrap s a,
    srcs := sSrcs [a],
    eff := fun s => s.updCur fun c => c.enq true (some 1)
      { kind := .load .srest, ea := saveBlock s a, size := 768, unit := 4, locs := saveLocs s a } }
def execSrest (p : PReg) (a : SReg) (s : State) : Host.Outcome State Fault Refusal :=
  runOp (srestOp p a) s

end Sys2Proof.Machine
end

