-- ==== Sys2Proof/Machine/Engine.lean ====
section
/-! DEFINITION. The E slot: press leases and claims (12 R254, R257), ember commands (11 R231, 12 R258, 13 R277, 18 R396, R406), token instructions (11 R233 to R243), hoops, byte barriers and molds (13 R291 to R304). -/

namespace Sys2Proof.Machine

/-- An ember command (11 R231): its traps, its waits, its creation; seed0 and seed1 are registers read at issue. -/
def ecOp (p : PReg) (h : EcHdr) (op : EcOp) (srcs : List SReg) (seed0 seed1 : Ctx → Word) : SlotOp :=
  { slot := 2, pred := some p, srcs := sSrcs (h.a :: srcs),
    trap := fun s => s.ecTrap h op, wait := fun s => s.ecWait op,
    eff := fun s => s.newEmber h op (seed0 s.cc) (seed1 s.cc) }
/-- A press command with a seed pair (12 R258). -/
def pressOp (p : PReg) (h : EcHdr) (op : EcOp) (b : SReg) : SlotOp :=
  { ecOp p h op [b, Fin.ofNat 64 (b.val + 1)] (fun c => c.sr b.val) (fun c => c.sr (b.val + 1)) with
    groups := b.val % 2 == 0 }
/-- A token instruction. -/
def tokOp (p : PReg) (a : SReg) (eff : State → State) : SlotOp :=
  { slot := 2, pred := some p, srcs := sSrcs [a], eff := eff }
/-- The low 32 bits of a scalar (13 R301). -/
def low32 (w : Word) : Nat := w.toNat % 2 ^ 32

/-- PRESS_LEASE: opens a lease, or a next one (12 R254). -/
def pressLeaseOp (p : PReg) : SlotOp :=
  { slot := 2, pred := some p, eff := fun s => s.updQuad (quadOf s.cur) (·.pressLease s.cur s.cc.wid) }
def execPressLease (p : PReg) (s : State) : Host.Outcome State Fault Refusal :=
  runOp (pressLeaseOp p) s

/-- PRESS_FREE: frees the newest lease (12 R254). -/
def pressFreeOp (p : PReg) : SlotOp :=
  { slot := 2, pred := some p, eff := fun s => (s.updQuad (quadOf s.cur) (·.pressFree s.cur s.cc.wid)).settleLeases (quadOf s.cur) }
def execPressFree (p : PReg) (s : State) : Host.Outcome State Fault Refusal :=
  runOp (pressFreeOp p) s

/-- PRESS_CLAIM: holds a bank (12 R257). -/
def pressClaimOp (p : PReg) (bank : Bool) : SlotOp := { slot := 2, pred := some p, wait := fun s => s.claimWaits bank, eff := fun s => s.claim bank }
def execPressClaim (p : PReg) (bank : Bool) (s : State) : Host.Outcome State Fault Refusal :=
  runOp (pressClaimOp p bank) s

/-- PRESS_RELEASE: marks a bank for deferred release (12 R257). -/
def pressReleaseOp (p : PReg) (bank : Bool) : SlotOp :=
  { slot := 2, pred := some p, trap := fun s =>
      if ((s.quad (quadOf s.cur)).bank bank).heldBy s.cur s.cc.wid then none else some ⟨cRANGE, 2, 0⟩,
    eff := fun s => s.releaseBank s.cur bank }
def execPressRelease (p : PReg) (bank : Bool) (s : State) : Host.Outcome State Fault Refusal :=
  runOp (pressReleaseOp p bank) s

/-- PRESS_STAT_NORTH: loads the stationary image, other axis north (12 R258, R266). -/
def pressStatNorthOp (p : PReg) (c : EcHdr) (b : SReg) (snap : Bool) : SlotOp := pressOp p c (.stat false snap) b
def execPressStatNorth (p : PReg) (c : EcHdr) (b : SReg) (snap : Bool) (s : State) : Host.Outcome State Fault Refusal :=
  runOp (pressStatNorthOp p c b snap) s

/-- PRESS_STAT_WEST: loads the stationary image from the west edge (12 R258, R266). -/
def pressStatWestOp (p : PReg) (c : EcHdr) (b : SReg) (snap : Bool) : SlotOp := pressOp p c (.stat true snap) b
def execPressStatWest (p : PReg) (c : EcHdr) (b : SReg) (snap : Bool) (s : State) : Host.Outcome State Fault Refusal :=
  runOp (pressStatWestOp p c b snap) s

/-- PRESS_RUN: streams a tile through the array (12 R258, R268). -/
def pressRunOp (p : PReg) (c : EcHdr) (b : SReg) (bank : Bool) (sparse : Bool) (snap : Bool) : SlotOp := pressOp p c (.run bank sparse snap) b
def execPressRun (p : PReg) (c : EcHdr) (b : SReg) (bank : Bool) (sparse : Bool) (snap : Bool) (s : State) : Host.Outcome State Fault Refusal :=
  runOp (pressRunOp p c b bank sparse snap) s

/-- PRESS_DRAIN: drains a bank (12 R258, R271). -/
def pressDrainOp (p : PReg) (c : EcHdr) (b : SReg) (bank : Bool) (acc : Bool) : SlotOp := pressOp p c (.drain bank acc) b
def execPressDrain (p : PReg) (c : EcHdr) (b : SReg) (bank : Bool) (acc : Bool) (s : State) : Host.Outcome State Fault Refusal :=
  runOp (pressDrainOp p c b bank acc) s

/-- PRESS_ZERO: zeroes a region of a bank (12 R258, R272). -/
def pressZeroOp (p : PReg) (c : EcHdr) (bank : Bool) : SlotOp := ecOp p c (.zero bank) [] (fun _ => 0) (fun _ => 0)
def execPressZero (p : PReg) (c : EcHdr) (bank : Bool) (s : State) : Host.Outcome State Fault Refusal :=
  runOp (pressZeroOp p c bank) s

/-- COPY: a copy without target (13 R277). -/
def copyOp (p : PReg) (c : EcHdr) (snap : Bool) : SlotOp := ecOp p c (.copy 0 false snap) [] (fun _ => 0) (fun _ => 0)
def execCopy (p : PReg) (c : EcHdr) (snap : Bool) (s : State) : Host.Outcome State Fault Refusal :=
  runOp (copyOp p c snap) s

/-- COPY_HOOP: a copy into a hoop (13 R277). -/
def copyHoopOp (p : PReg) (c : EcHdr) (hoop : Fin 64) (snap : Bool) : SlotOp := ecOp p c (.copy hoop.val false snap) [] (fun _ => 0) (fun _ => 0)
def execCopyHoop (p : PReg) (c : EcHdr) (hoop : Fin 64) (snap : Bool) (s : State) : Host.Outcome State Fault Refusal :=
  runOp (copyHoopOp p c hoop snap) s

/-- COPY_BB: a copy counted by a byte barrier (13 R277). -/
def copyBbOp (p : PReg) (c : EcHdr) (bb : Fin 64) (snap : Bool) : SlotOp := ecOp p c (.copy bb.val true snap) [] (fun _ => 0) (fun _ => 0)
def execCopyBb (p : PReg) (c : EcHdr) (bb : Fin 64) (snap : Bool) (s : State) : Host.Outcome State Fault Refusal :=
  runOp (copyBbOp p c bb snap) s

/-- COLL: a member of a collective (18 R396). -/
def collOp (p : PReg) (c : EcHdr) : SlotOp := ecOp p c .coll [] (fun _ => 0) (fun _ => 0)
def execColl (p : PReg) (c : EcHdr) (s : State) : Host.Outcome State Fault Refusal :=
  runOp (collOp p c) s

/-- CAVE_UPD: a cave update (18 R406). -/
def caveUpdOp (p : PReg) (c : EcHdr) (b : SReg) : SlotOp := ecOp p c .cave [b] (fun k => k.sr b.val) (fun _ => 0)
def execCaveUpd (p : PReg) (c : EcHdr) (b : SReg) (s : State) : Host.Outcome State Fault Refusal :=
  runOp (caveUpdOp p c b) s

/-- EMB_WAIT: waits for a final state and reaps (11 R235). -/
def embWaitOp (p : PReg) (d : SReg) (a : SReg) : SlotOp :=
  { tokOp p a fun s => s.embWait d a with wait := fun s => s.embWaits a }
def execEmbWait (p : PReg) (d : SReg) (a : SReg) (s : State) : Host.Outcome State Fault Refusal :=
  runOp (embWaitOp p d a) s

/-- EMB_WAIT_TRAP: as emb.wait, trapping with EMBER_FAULT on a FAULTED ember, which it reaps (11 R235). -/
def embWaitTrapOp (p : PReg) (d : SReg) (a : SReg) : SlotOp :=
  { tokOp p a fun s => s.embWait d a with
    wait := fun s => s.embWaits a, trap := fun s => s.embFault a, onTrap := fun t s => if t.code = cEMBER then s.embReapFaulted a else s }
def execEmbWaitTrap (p : PReg) (d : SReg) (a : SReg) (s : State) : Host.Outcome State Fault Refusal :=
  runOp (embWaitTrapOp p d a) s

/-- EMB_TEST: the status word (11 R236). -/
def embTestOp (p : PReg) (d : SReg) (a : SReg) : SlotOp := tokOp p a fun s => s.embTest d a
def execEmbTest (p : PReg) (d : SReg) (a : SReg) (s : State) : Host.Outcome State Fault Refusal :=
  runOp (embTestOp p d a) s

/-- EMB_CANCEL: cancels (11 R237). -/
def embCancelOp (p : PReg) (d : SReg) (a : SReg) : SlotOp := tokOp p a fun s => s.embCancel d a
def execEmbCancel (p : PReg) (d : SReg) (a : SReg) (s : State) : Host.Outcome State Fault Refusal :=
  runOp (embCancelOp p d a) s

/-- EMB_DETACH: detaches (11 R238). -/
def embDetachOp (p : PReg) (d : SReg) (a : SReg) : SlotOp := tokOp p a fun s => s.embDetach d a
def execEmbDetach (p : PReg) (d : SReg) (a : SReg) (s : State) : Host.Outcome State Fault Refusal :=
  runOp (embDetachOp p d a) s

/-- EMB_ADOPT: adopts by name (11 R239). -/
def embAdoptOp (p : PReg) (d : SReg) (name : BitVec 16) : SlotOp := { slot := 2, pred := some p, eff := fun s => s.embAdopt d name }
def execEmbAdopt (p : PReg) (d : SReg) (name : BitVec 16) (s : State) : Host.Outcome State Fault Refusal :=
  runOp (embAdoptOp p d name) s

/-- EMB_PRIO: sets a priority (11 R240). -/
def embPrioOp (p : PReg) (d : SReg) (a : SReg) (n : Fin 4) : SlotOp := tokOp p a fun s => s.embPrio d a n
def execEmbPrio (p : PReg) (d : SReg) (a : SReg) (n : Fin 4) (s : State) : Host.Outcome State Fault Refusal :=
  runOp (embPrioOp p d a n) s

/-- EMB_INFO: four words of a record (11 R243). -/
def embInfoOp (p : PReg) (d : SReg) (a : SReg) : SlotOp := { tokOp p a fun s => s.embInfo d a with groups := d.val % 4 == 0 }
def execEmbInfo (p : PReg) (d : SReg) (a : SReg) (s : State) : Host.Outcome State Fault Refusal :=
  runOp (embInfoOp p d a) s

/-- EMB_AFTER: names a predecessor for the next ember (11 R241). -/
def embAfterOp (p : PReg) (d : SReg) (a : SReg) : SlotOp := tokOp p a fun s => s.embAfter d a
def execEmbAfter (p : PReg) (d : SReg) (a : SReg) (s : State) : Host.Outcome State Fault Refusal :=
  runOp (embAfterOp p d a) s

/-- HOOP_INIT: sets up a ring of slots (13 R294). -/
def hoopInitOp (p : PReg) (hoop : Fin 64) (a : SReg) (b : SReg) : SlotOp :=
  { slot := 2, pred := some p, srcs := sSrcs [a, b],
    trap := fun s => s.hoopInitTrap hoop.val (s.cc.sr a.val) (s.cc.sr b.val),
    eff := fun s => s.hoopInit hoop.val (s.cc.sr a.val) (s.cc.sr b.val) }
def execHoopInit (p : PReg) (hoop : Fin 64) (a : SReg) (b : SReg) (s : State) : Host.Outcome State Fault Refusal :=
  runOp (hoopInitOp p hoop a b) s

/-- HOOP_AWAIT: waits for slot rd to be FILLED (13 R295). -/
def hoopAwaitOp (p : PReg) (d : SReg) (hoop : Fin 64) : SlotOp :=
  { slot := 2, pred := some p, trap := fun s => s.hoopOwnTrap hoop.val false,
    wait := fun s => (s.hoopSeen hoop.val).slotSt (s.hoopSeen hoop.val).rd != .filled,
    eff := fun s => (s.updCur fun c => c.enqOrder (some .quad) false .none false).landS 2 1 d
      (BitVec.ofNat 64 (s.hoopSeen hoop.val).rd) }
def execHoopAwait (p : PReg) (d : SReg) (hoop : Fin 64) (s : State) : Host.Outcome State Fault Refusal :=
  runOp (hoopAwaitOp p d hoop) s

/-- HOOP_REL: releases slot rd (13 R296). -/
def hoopRelOp (p : PReg) (hoop : Fin 64) : SlotOp :=
  { slot := 2, pred := some p, trap := fun s => match s.hoopOwnTrap hoop.val false with
      | some t => some t
      | none => if (s.hoopSeen hoop.val).slotSt (s.hoopSeen hoop.val).rd = .filled then none else some ⟨cHOOP, 2, hoop.val⟩,
    eff := fun s => s.hoopRel hoop.val }
def execHoopRel (p : PReg) (hoop : Fin 64) (s : State) : Host.Outcome State Fault Refusal :=
  runOp (hoopRelOp p hoop) s

/-- HOOP_QUERY: the state of a hoop (13 R297). -/
def hoopQueryOp (p : PReg) (d : SReg) (hoop : Fin 64) : SlotOp := { slot := 2, pred := some p, eff := fun s => s.landS 2 1 d (s.hoopWord hoop.val) }
def execHoopQuery (p : PReg) (d : SReg) (hoop : Fin 64) (s : State) : Host.Outcome State Fault Refusal :=
  runOp (hoopQueryOp p d hoop) s

/-- BB_EXPECT: adds to the expected count and arms (13 R301). -/
def bbExpectOp (p : PReg) (d : SReg) (bb : Fin 64) (a : SReg) : SlotOp :=
  { slot := 2, pred := some p, srcs := sSrcs [a],
    trap := fun s => s.bbExpectTrap bb.val (low32 (s.cc.sr a.val)),
    eff := fun s => s.bbExpect d bb.val (low32 (s.cc.sr a.val)) }
def execBbExpect (p : PReg) (d : SReg) (bb : Fin 64) (a : SReg) (s : State) : Host.Outcome State Fault Refusal :=
  runOp (bbExpectOp p d bb a) s

/-- BB_ARRIVE: a release, then arrivals (13 R301). -/
def bbArriveOp (p : PReg) (bb : Fin 64) (a : SReg) : SlotOp :=
  { slot := 2, pred := some p, srcs := sSrcs [a],
    trap := fun s => s.bbArriveTrap bb.val (low32 (s.cc.sr a.val)),
    eff := fun s => s.bbArrive bb.val (low32 (s.cc.sr a.val)) }
def execBbArrive (p : PReg) (bb : Fin 64) (a : SReg) (s : State) : Host.Outcome State Fault Refusal :=
  runOp (bbArriveOp p bb a) s

/-- BB_WAIT: waits for a phase (13 R301). -/
def bbWaitOp (p : PReg) (bb : Fin 64) (a : SReg) : SlotOp :=
  { slot := 2, pred := some p, srcs := sSrcs [a], trap := fun s => s.bbOwnTrap bb.val,
    wait := fun s => s.bbWaits bb.val (s.cc.sr a.val), note := fun s => s.bbTake bb.val,
    eff := fun s => (s.bbTake bb.val).updCur fun c => c.enqOrder (some .quad) false .none false }
def execBbWait (p : PReg) (bb : Fin 64) (a : SReg) (s : State) : Host.Outcome State Fault Refusal :=
  runOp (bbWaitOp p bb a) s

/-- BB_QUERY: the state of a byte barrier (13 R301). -/
def bbQueryOp (p : PReg) (d : SReg) (bb : Fin 64) : SlotOp := { slot := 2, pred := some p, groups := d.val % 2 == 0, eff := fun s => s.bbQuery d bb.val }
def execBbQuery (p : PReg) (d : SReg) (bb : Fin 64) (s : State) : Host.Outcome State Fault Refusal :=
  runOp (bbQueryOp p d bb) s

/-- MOLD_GET: allocates or takes a mold (13 R303). -/
def moldGetOp (p : PReg) (d : SReg) (a : SReg) : SlotOp :=
  { slot := 2, pred := some p, srcs := sSrcs [a],
    trap := fun s => if 256 < (s.cc.sr a.val).toNat then some ⟨cRANGE, 2, 0⟩ else none,
    eff := fun s => s.moldGet d (s.cc.sr a.val).toNat }
def execMoldGet (p : PReg) (d : SReg) (a : SReg) (s : State) : Host.Outcome State Fault Refusal :=
  runOp (moldGetOp p d a) s

/-- MOLD_PASS: passes a mold (13 R303). -/
def moldPassOp (p : PReg) (a : SReg) : SlotOp :=
  { slot := 2, pred := some p, srcs := sSrcs [a],
    trap := fun s => if (s.ownedMold ((s.cc.sr a.val).toNat % 2 ^ 16)).isNone then some ⟨cRANGE, 2, 0⟩ else none,
    eff := fun s => s.moldPass ((s.cc.sr a.val).toNat % 2 ^ 16) }
def execMoldPass (p : PReg) (a : SReg) (s : State) : Host.Outcome State Fault Refusal :=
  runOp (moldPassOp p a) s

/-- MOLD_FREE: frees a mold (13 R303). -/
def moldFreeOp (p : PReg) (a : SReg) : SlotOp :=
  { slot := 2, pred := some p, srcs := sSrcs [a],
    trap := fun s => if (s.ownedMold ((s.cc.sr a.val).toNat % 2 ^ 16)).isNone then some ⟨cRANGE, 2, 0⟩ else none,
    eff := fun s => s.moldFree ((s.cc.sr a.val).toNat % 2 ^ 16) }
def execMoldFree (p : PReg) (a : SReg) (s : State) : Host.Outcome State Fault Refusal :=
  runOp (moldFreeOp p a) s

end Sys2Proof.Machine
end

