-- ==== Sys2Proof/Machine/LoadStore.lean ====
section
/-! DEFINITION. The LD and ST slots (10 R200 to R223, 18 R391 to R395): loads, stores, MX forms, line operations, marks, fences, atomics and the far forms. -/

namespace Sys2Proof.Machine

/-- The address traps of an access, in their order (10 R203): ALIGN when an alignment is asked for, XLATE_MISS,
XLATE_PERM. -/
def memTrap (s : State) (slot ea size align : Nat) (r w : Bool) : Option Trap :=
  if align ≠ 0 ∧ ea % align ≠ 0 then some ⟨cALIGN, slot, ea⟩
  else match s.access s.cur ea size r w with
  | .trap c v => some ⟨c, slot, v⟩
  | _ => none
/-- The wait for a translation walk (10 R202). -/
def memWait (s : State) (ea size : Nat) (r w : Bool) : Bool := s.access s.cur ea size r w == .wait
/-- The locations of an access that passes, and whether the L1 may serve it. -/
def memLocs (s : State) (ea size : Nat) (r w : Bool) : List Nat × Bool :=
  match s.access s.cur ea size r w with
  | .ok l c => (l, c)
  | _ => ([], false)

/-- A load of any kind. -/
def loadOp (p : PReg) (cls : Nat) (srcs : List SReg) (ea : Ctx → Nat) (size align unit : Nat) (dst : Ctx → LDest) : SlotOp :=
  { slot := 5, pred := some p, lq := 1, cls := some cls, srcs := sSrcs srcs,
    trap := fun s => memTrap s 5 (ea s.cc) size align true false,
    wait := fun s => memWait s (ea s.cc) size true false,
    pages := fun c => pagesOf (ea c) size,
    eff := fun s =>
      let x := memLocs s (ea s.cc) size true false
      let u := if unit = 2 then scalarUnit (ea s.cc) size else unit
      s.updCur fun c => c.enq true (some cls)
        { kind := .load (dst c), ea := ea c, size := size, unit := u, locs := x.1, cached := x.2 } }
/-- A store of any kind, of the bytes its source holds at issue. -/
def storeOp (p : PReg) (srcs : Ctx → List RegId) (ea : Ctx → Nat) (size align unit : Nat) (data : Ctx → Core → List Byte) : SlotOp :=
  { slot := 6, pred := some p, sq := 1, cls := some 2, srcs := srcs,
    trap := fun s => memTrap s 6 (ea s.cc) size align false true,
    wait := fun s => memWait s (ea s.cc) size false true,
    pages := fun c => pagesOf (ea c) size,
    eff := fun s =>
      let x := memLocs s (ea s.cc) size false true
      let u := if unit = 2 then scalarUnit (ea s.cc) size else unit
      let k := s.core (coreOf s.cur)
      s.updCur fun c => c.enq false (some 2)
        { kind := .store, ea := ea c, size := size, unit := u, locs := x.1, cached := x.2, data := data c k } }

/-- A scalar load: unit code 2 stands for the scalar rule of 10 Table 10.2. -/
def ldScalar (p : PReg) (d a : SReg) (off : BitVec 14) (size align unit : Nat) (signed : Bool) : SlotOp :=
  loadOp p 1 [a] (fun c => c.ea a off size) size align unit fun _ => .scalar d.val signed
/-- A scalar store. -/
def stScalar (p : PReg) (d a : SReg) (off : BitVec 14) (size align unit : Nat) : SlotOp :=
  storeOp p (sSrcs [d, a]) (fun c => c.ea a off size) size align unit fun c _ => leBytes size (c.sr d.val).toNat
/-- Alignment and unit of an atomicity flag (10 Table 10.2). -/
def atAlign : Atomicity → Nat | .none => 0 | .w8 => 8 | .w16 => 16
def atUnit : Atomicity → Nat | .none => 4 | .w8 => 8 | .w16 => 16
/-- Block bytes and block count of an MX access (10 R214). -/
def mxB (el8 : Bool) : Nat := if el8 then 33 else 17
def mxNb (el8 : Bool) (w : VWidth) : Nat := if el8 then w.bits / 256 else w.bits / 128
/-- The bytes stmx stores (10 R214). -/
def mxBytes (c : Ctx) (d : OReg) (b nb : Nat) : List Byte :=
  let e := leBytes 128 (c.or d.val).toNat
  let sc := leBytes 128 (c.or (d.val + 1)).toNat
  (List.range nb).flatMap fun i => (e.drop ((b - 1) * i)).take (b - 1) ++ (sc.drop i).take 1
/-- The line of an address. -/
def lineEa (ea : Nat) : Nat := ea / 64 * 64
/-- The second register of an operand-file pair. -/
def opairHi (d : OReg) : OReg := Fin.ofNat 16 (d.val + 1)

/-- An atomic (10 R219 to R221): a release place before it, the operation, an acquire place after it. -/
def amoOp (op : AmoOp) (p : PReg) (sc : Scope) (o : MemOrd) (failAcq w8 : Bool) (d a b : SReg) : SlotOp :=
  let size := if w8 then 8 else 4
  { slot := 5, pred := some p, lq := 1, cls := some 3, srcs := sSrcs (if op = .cas then [a, b, d] else [a, b]),
    trap := fun s => memTrap s 5 (s.cc.sr a.val).toNat size size true true,
    wait := fun s => memWait s (s.cc.sr a.val).toNat size true true,
    pages := fun c => pagesOf (c.sr a.val).toNat size,
    eff := fun s =>
      let x := memLocs s (s.cc.sr a.val).toNat size true true
      s.updCur fun c =>
        let c := if ordRel o then c.enqOrder none (sc == .pod) .none false else c
        let c := c.enq true (some 3)
          { kind := .amo op (c.sr b.val) (c.sr d.val) d.val (op == .cas && ordAcq o && !failAcq),
            ea := (c.sr a.val).toNat, size := size, unit := 0, locs := x.1 }
        if ordAcq o then c.enqOrder (some sc) false .none false else c }

/-- The peer entry of a far address (18 R387). -/
def farPeer (s : State) (ea : Nat) : Option Peer :=
  match (s.vat s.cc.vatKey).peers[ea / 2 ^ 51 % 2 ^ 12]? with
  | some e => if e.valid then some e else none
  | none => none
/-- The checks of a far instruction, in their order (18 R392). -/
def farTrap (s : State) (slot ea size : Nat) (right : Peer → Bool) : Option Trap :=
  if ea < 2 ^ 63 then some ⟨cMISS, slot, ea⟩
  else if ea % size ≠ 0 then some ⟨cALIGN, slot, ea⟩
  else match farPeer s ea with
  | none => some ⟨cMISS, slot, ea⟩
  | some e => if right e then none else some ⟨cPERM, slot, ea⟩
/-- A far instruction that blocks its context from its issue to its response (18 R392, R394). -/
def Ctx.farBlock (c : Ctx) (slot : Nat) : Ctx :=
  { c with farWait := c.farWait ++ [{ op := c.nextOp, bundle := c.pc, slot := slot }] }
/-- fld (18 R392). -/
def farSize (w8 : Bool) : Nat := if w8 then 8 else 4
/-- famo (18 R392): Table 10.7 with scope pod. -/
def famoOp (op : AmoOp) (p : PReg) (o : MemOrd) (failAcq w8 : Bool) (d a b : SReg) : SlotOp :=
  let size := farSize w8
  { slot := 5, pred := some p, lq := 1, srcs := sSrcs (if op = .cas then [a, b, d] else [a, b]),
    trap := fun s => farTrap s 5 (s.cc.sr a.val).toNat size (·.a),
    eff := fun s => s.updCur fun c =>
      let c := if ordRel o then c.enqOrder none true .none false else c
      let c := (c.farBlock 5).enq true none
        { kind := .far (.amo op) (c.sr b.val) (c.sr d.val) d.val (op == .cas && ordAcq o && !failAcq),
          ea := (c.sr a.val).toNat, size := size, unit := 0 }
      if ordAcq o then c.enqOrder (some .pod) false .none false else c }

/-- LDB: sD ← sext(M8) (10 R211). -/
def ldbOp (p : PReg) (d : SReg) (a : SReg) (off : BitVec 14) : SlotOp := ldScalar p d a off 1 0 2 true
def execLdb (p : PReg) (d : SReg) (a : SReg) (off : BitVec 14) (s : State) : Host.Outcome State Fault Refusal :=
  runOp (ldbOp p d a off) s

/-- LDBU: sD ← zext(M8) (10 R211). -/
def ldbuOp (p : PReg) (d : SReg) (a : SReg) (off : BitVec 14) : SlotOp := ldScalar p d a off 1 0 2 false
def execLdbu (p : PReg) (d : SReg) (a : SReg) (off : BitVec 14) (s : State) : Host.Outcome State Fault Refusal :=
  runOp (ldbuOp p d a off) s

/-- LDH: sD ← sext(M16) (10 R211). -/
def ldhOp (p : PReg) (d : SReg) (a : SReg) (off : BitVec 14) : SlotOp := ldScalar p d a off 2 0 2 true
def execLdh (p : PReg) (d : SReg) (a : SReg) (off : BitVec 14) (s : State) : Host.Outcome State Fault Refusal :=
  runOp (ldhOp p d a off) s

/-- LDHU: sD ← zext(M16) (10 R211). -/
def ldhuOp (p : PReg) (d : SReg) (a : SReg) (off : BitVec 14) : SlotOp := ldScalar p d a off 2 0 2 false
def execLdhu (p : PReg) (d : SReg) (a : SReg) (off : BitVec 14) (s : State) : Host.Outcome State Fault Refusal :=
  runOp (ldhuOp p d a off) s

/-- LDW: sD ← sext(M32) (10 R211). -/
def ldwOp (p : PReg) (d : SReg) (a : SReg) (off : BitVec 14) : SlotOp := ldScalar p d a off 4 0 2 true
def execLdw (p : PReg) (d : SReg) (a : SReg) (off : BitVec 14) (s : State) : Host.Outcome State Fault Refusal :=
  runOp (ldwOp p d a off) s

/-- LDWU: sD ← zext(M32) (10 R211). -/
def ldwuOp (p : PReg) (d : SReg) (a : SReg) (off : BitVec 14) : SlotOp := ldScalar p d a off 4 0 2 false
def execLdwu (p : PReg) (d : SReg) (a : SReg) (off : BitVec 14) (s : State) : Host.Outcome State Fault Refusal :=
  runOp (ldwuOp p d a off) s

/-- LDD: sD ← M64 (10 R211). -/
def lddOp (p : PReg) (w8 : Bool) (d : SReg) (a : SReg) (off : BitVec 14) : SlotOp := if w8 then ldScalar p d a off 8 8 0 false else ldScalar p d a off 8 0 4 false
def execLdd (p : PReg) (w8 : Bool) (d : SReg) (a : SReg) (off : BitVec 14) (s : State) : Host.Outcome State Fault Refusal :=
  runOp (lddOp p w8 d a off) s

/-- STB: M8 ← sS (10 R211). -/
def stbOp (p : PReg) (d : SReg) (a : SReg) (off : BitVec 14) : SlotOp := stScalar p d a off 1 0 2
def execStb (p : PReg) (d : SReg) (a : SReg) (off : BitVec 14) (s : State) : Host.Outcome State Fault Refusal :=
  runOp (stbOp p d a off) s

/-- STH: M16 ← sS (10 R211). -/
def sthOp (p : PReg) (d : SReg) (a : SReg) (off : BitVec 14) : SlotOp := stScalar p d a off 2 0 2
def execSth (p : PReg) (d : SReg) (a : SReg) (off : BitVec 14) (s : State) : Host.Outcome State Fault Refusal :=
  runOp (sthOp p d a off) s

/-- STW: M32 ← sS (10 R211). -/
def stwOp (p : PReg) (d : SReg) (a : SReg) (off : BitVec 14) : SlotOp := stScalar p d a off 4 0 2
def execStw (p : PReg) (d : SReg) (a : SReg) (off : BitVec 14) (s : State) : Host.Outcome State Fault Refusal :=
  runOp (stwOp p d a off) s

/-- STD: M64 ← sS (10 R211). -/
def stdOp (p : PReg) (w8 : Bool) (d : SReg) (a : SReg) (off : BitVec 14) : SlotOp := if w8 then stScalar p d a off 8 8 0 else stScalar p d a off 8 0 4
def execStd (p : PReg) (w8 : Bool) (d : SReg) (a : SReg) (off : BitVec 14) (s : State) : Host.Outcome State Fault Refusal :=
  runOp (stdOp p w8 d a off) s

/-- LDV: the low W bits of oD (10 R212). -/
def ldvOp (p : PReg) (w : VWidth) (at_ : Atomicity) (d : OReg) (a : SReg) (off : BitVec 14) : SlotOp :=
  loadOp p 0 [a] (fun c => c.ea a off 32) (w.bits / 8) (atAlign at_) (atUnit at_) fun _ => .oreg d.val
def execLdv (p : PReg) (w : VWidth) (at_ : Atomicity) (d : OReg) (a : SReg) (off : BitVec 14) (s : State) : Host.Outcome State Fault Refusal :=
  runOp (ldvOp p w at_ d a off) s

/-- STV: stores the low W bits of oD (10 R212). -/
def stvOp (p : PReg) (w : VWidth) (at_ : Atomicity) (d : OReg) (a : SReg) (off : BitVec 14) : SlotOp :=
  storeOp p (fun _ => [.o d, .s a]) (fun c => c.ea a off 32) (w.bits / 8) (atAlign at_) (atUnit at_)
    fun c _ => leBytes (w.bits / 8) (c.or d.val).toNat
def execStv (p : PReg) (w : VWidth) (at_ : Atomicity) (d : OReg) (a : SReg) (off : BitVec 14) (s : State) : Host.Outcome State Fault Refusal :=
  runOp (stvOp p w at_ d a off) s

/-- LDP: the low W bits of a pane row (10 R213). -/
def ldpOp (p : PReg) (w : VWidth) (at_ : Atomicity) (pane : PaneNo) (row : Fin 64) (a : SReg) (off : BitVec 14) : SlotOp :=
  { loadOp p 0 [a] (fun c => c.ea a off 32) (w.bits / 8) (atAlign at_) (atUnit at_)
      (fun c => .row (c.panebase + pane.val) row.val) with panes := [pane] }
def execLdp (p : PReg) (w : VWidth) (at_ : Atomicity) (pane : PaneNo) (row : Fin 64) (a : SReg) (off : BitVec 14) (s : State) : Host.Outcome State Fault Refusal :=
  runOp (ldpOp p w at_ pane row a off) s

/-- STP: stores the low W bits of a pane row (10 R213). -/
def stpOp (p : PReg) (w : VWidth) (at_ : Atomicity) (pane : PaneNo) (row : Fin 64) (a : SReg) (off : BitVec 14) : SlotOp :=
  { storeOp p (fun c => [.row (c.panebase + pane.val) row.val, .s a]) (fun c => c.ea a off 32) (w.bits / 8) (atAlign at_)
      (atUnit at_) (fun c k => leBytes (w.bits / 8) (k.row (c.panebase + pane.val) row.val).toNat) with panes := [pane] }
def execStp (p : PReg) (w : VWidth) (at_ : Atomicity) (pane : PaneNo) (row : Fin 64) (a : SReg) (off : BitVec 14) (s : State) : Host.Outcome State Fault Refusal :=
  runOp (stpOp p w at_ pane row a off) s

/-- LDMX: interleaved MX blocks into a register pair (10 R214). -/
def ldmxOp (p : PReg) (el8 : Bool) (w : VWidth) (d : OReg) (a : SReg) (off : BitVec 14) : SlotOp :=
  { loadOp p 0 [a] (fun c => c.ea a off 1) (mxB el8 * mxNb el8 w) 0 4 (fun _ => .mx d.val (mxB el8)) with
    groups := d.val % 2 == 0 }
def execLdmx (p : PReg) (el8 : Bool) (w : VWidth) (d : OReg) (a : SReg) (off : BitVec 14) (s : State) : Host.Outcome State Fault Refusal :=
  runOp (ldmxOp p el8 w d a off) s

/-- STMX: a register pair as interleaved MX blocks (10 R214). -/
def stmxOp (p : PReg) (el8 : Bool) (w : VWidth) (d : OReg) (a : SReg) (off : BitVec 14) : SlotOp :=
  { storeOp p (fun _ => [.o d, .o (opairHi d), .s a]) (fun c => c.ea a off 1) (mxB el8 * mxNb el8 w) 0 4
      (fun c _ => mxBytes c d (mxB el8) (mxNb el8 w)) with groups := d.val % 2 == 0 }
def execStmx (p : PReg) (el8 : Bool) (w : VWidth) (d : OReg) (a : SReg) (off : BitVec 14) (s : State) : Host.Outcome State Fault Refusal :=
  runOp (stmxOp p el8 w d a off) s

/-- PREF: asks for the line of a cacheable address that translates with the read right; a page that the core has not cached
is translated before the fill (10 R215; log entry 11). -/
def prefOp (p : PReg) (a : SReg) (off : BitVec 14) : SlotOp :=
  { slot := 5, pred := some p, srcs := sSrcs [a],
    eff := fun s =>
      let ea := lineEa (s.cc.ea a off 64)
      let ask (loc : Option Nat) : State :=
        s.updCore (coreOf s.cur) fun k => { k with prefs := k.prefs ++ [{ vat := s.cc.vatKey, ea := ea, loc := loc }] }
      match s.access s.cur ea 64 true false with
      | .ok locs true => ask (some (pick locs 0))
      | .wait => ask none
      | _ => s }
def execPref (p : PReg) (a : SReg) (off : BitVec 14) (s : State) : Host.Outcome State Fault Refusal :=
  runOp (prefOp p a off) s

/-- CL_INV: removes a line from the L1 (10 R216). -/
def clInvOp (p : PReg) (a : SReg) (off : BitVec 14) : SlotOp :=
  { slot := 5, pred := some p, lq := 1, cls := some 2, srcs := sSrcs [a],
    trap := fun s => memTrap s 5 (lineEa (s.cc.ea a off 64)) 64 0 true false,
    wait := fun s => memWait s (lineEa (s.cc.ea a off 64)) 64 true false,
    pages := fun c => pagesOf (lineEa (c.ea a off 64)) 64,
    eff := fun s =>
      let ea := lineEa (s.cc.ea a off 64)
      let x := memLocs s ea 64 true false
      s.updCur fun c => c.enq true (some 2) { kind := .clInv, ea := ea, size := 64, unit := 0, locs := x.1 } }
def execClInv (p : PReg) (a : SReg) (off : BitVec 14) (s : State) : Host.Outcome State Fault Refusal :=
  runOp (clInvOp p a off) s

/-- CL_ZERO: 64 zero bytes to a line, its poison marks cleared (10 R217). -/
def clZeroOp (p : PReg) (a : SReg) (off : BitVec 14) : SlotOp := storeOp p (sSrcs [a]) (fun c => lineEa (c.ea a off 64)) 64 0 4 fun _ _ => List.replicate 64 0
def execClZero (p : PReg) (a : SReg) (off : BitVec 14) (s : State) : Host.Outcome State Fault Refusal :=
  runOp (clZeroOp p a off) s

/-- MARK: realigns the two queues (10 R218). -/
def markOp : SlotOp := { slot := 5, lq := 1, sq := 1, eff := fun s => s.updCur fun c => c.enqOrder none false .none true }
def execMark (s : State) : Host.Outcome State Fault Refusal :=
  runOp (markOp) s

/-- FENCE: a mark with the row of Table 10.7 (10 R222). -/
def fenceOp (p : PReg) (sc : Scope) (o : MemOrd) : SlotOp :=
  { slot := 6, pred := some p, lq := 1, sq := 1,
    eff := fun s => s.updCur fun c =>
      c.enqOrder (if ordAcq o then some sc else none) (ordRel o && sc == .pod) .none true }
def execFence (p : PReg) (sc : Scope) (o : MemOrd) (s : State) : Host.Outcome State Fault Refusal :=
  runOp (fenceOp p sc o) s

/-- AMO_ADD: atomic add (10 R219 to R221). -/
def amoAddOp (p : PReg) (sc : Scope) (o : MemOrd) (w8 : Bool) (d : SReg) (a : SReg) (b : SReg) : SlotOp := amoOp .add p sc o false w8 d a b
def execAmoAdd (p : PReg) (sc : Scope) (o : MemOrd) (w8 : Bool) (d : SReg) (a : SReg) (b : SReg) (s : State) : Host.Outcome State Fault Refusal :=
  runOp (amoAddOp p sc o w8 d a b) s

/-- AMO_SWAP: atomic swap (10 R219 to R221). -/
def amoSwapOp (p : PReg) (sc : Scope) (o : MemOrd) (w8 : Bool) (d : SReg) (a : SReg) (b : SReg) : SlotOp := amoOp .swap p sc o false w8 d a b
def execAmoSwap (p : PReg) (sc : Scope) (o : MemOrd) (w8 : Bool) (d : SReg) (a : SReg) (b : SReg) (s : State) : Host.Outcome State Fault Refusal :=
  runOp (amoSwapOp p sc o w8 d a b) s

/-- AMO_AND: atomic and (10 R219 to R221). -/
def amoAndOp (p : PReg) (sc : Scope) (o : MemOrd) (w8 : Bool) (d : SReg) (a : SReg) (b : SReg) : SlotOp := amoOp .and p sc o false w8 d a b
def execAmoAnd (p : PReg) (sc : Scope) (o : MemOrd) (w8 : Bool) (d : SReg) (a : SReg) (b : SReg) (s : State) : Host.Outcome State Fault Refusal :=
  runOp (amoAndOp p sc o w8 d a b) s

/-- AMO_OR: atomic or (10 R219 to R221). -/
def amoOrOp (p : PReg) (sc : Scope) (o : MemOrd) (w8 : Bool) (d : SReg) (a : SReg) (b : SReg) : SlotOp := amoOp .or p sc o false w8 d a b
def execAmoOr (p : PReg) (sc : Scope) (o : MemOrd) (w8 : Bool) (d : SReg) (a : SReg) (b : SReg) (s : State) : Host.Outcome State Fault Refusal :=
  runOp (amoOrOp p sc o w8 d a b) s

/-- AMO_XOR: atomic xor (10 R219 to R221). -/
def amoXorOp (p : PReg) (sc : Scope) (o : MemOrd) (w8 : Bool) (d : SReg) (a : SReg) (b : SReg) : SlotOp := amoOp .xor p sc o false w8 d a b
def execAmoXor (p : PReg) (sc : Scope) (o : MemOrd) (w8 : Bool) (d : SReg) (a : SReg) (b : SReg) (s : State) : Host.Outcome State Fault Refusal :=
  runOp (amoXorOp p sc o w8 d a b) s

/-- AMO_MAX: atomic max (10 R219 to R221). -/
def amoMaxOp (p : PReg) (sc : Scope) (o : MemOrd) (w8 : Bool) (d : SReg) (a : SReg) (b : SReg) : SlotOp := amoOp .max p sc o false w8 d a b
def execAmoMax (p : PReg) (sc : Scope) (o : MemOrd) (w8 : Bool) (d : SReg) (a : SReg) (b : SReg) (s : State) : Host.Outcome State Fault Refusal :=
  runOp (amoMaxOp p sc o w8 d a b) s

/-- AMO_MIN: atomic min (10 R219 to R221). -/
def amoMinOp (p : PReg) (sc : Scope) (o : MemOrd) (w8 : Bool) (d : SReg) (a : SReg) (b : SReg) : SlotOp := amoOp .min p sc o false w8 d a b
def execAmoMin (p : PReg) (sc : Scope) (o : MemOrd) (w8 : Bool) (d : SReg) (a : SReg) (b : SReg) (s : State) : Host.Outcome State Fault Refusal :=
  runOp (amoMinOp p sc o w8 d a b) s

/-- AMO_CAS: atomic compare and swap (10 R219 to R221). -/
def amoCasOp (p : PReg) (sc : Scope) (o : MemOrd) (failAcq : Bool) (w8 : Bool) (d : SReg) (a : SReg) (b : SReg) : SlotOp := amoOp .cas p sc o failAcq w8 d a b
def execAmoCas (p : PReg) (sc : Scope) (o : MemOrd) (failAcq : Bool) (w8 : Bool) (d : SReg) (a : SReg) (b : SReg) (s : State) : Host.Outcome State Fault Refusal :=
  runOp (amoCasOp p sc o failAcq w8 d a b) s

/-- FLD: a far load, which blocks its context (18 R392). -/
def fldOp (p : PReg) (w8 : Bool) (d : SReg) (a : SReg) (off : BitVec 14) : SlotOp :=
  { slot := 5, pred := some p, lq := 1, srcs := sSrcs [a],
    trap := fun s => farTrap s 5 (s.cc.ea a off 1) (farSize w8) (·.r),
    eff := fun s => s.updCur fun c => (c.farBlock 5).enq true none
      { kind := .far .ld 0 0 d.val false, ea := c.ea a off 1, size := farSize w8, unit := 0 } }
def execFld (p : PReg) (w8 : Bool) (d : SReg) (a : SReg) (off : BitVec 14) (s : State) : Host.Outcome State Fault Refusal :=
  runOp (fldOp p w8 d a off) s

/-- FST: a far store (18 R393). -/
def fstOp (p : PReg) (w8 : Bool) (d : SReg) (a : SReg) (off : BitVec 14) : SlotOp :=
  { slot := 6, pred := some p, sq := 1, cls := some 2, srcs := sSrcs [d, a],
    trap := fun s => farTrap s 6 (s.cc.ea a off 1) (farSize w8) (·.w),
    eff := fun s => s.updCur fun c => c.enq false (some 2)
      { kind := .far .st (c.sr d.val) 0 0 false, ea := c.ea a off 1, size := farSize w8, unit := 0 } }
def execFst (p : PReg) (w8 : Bool) (d : SReg) (a : SReg) (off : BitVec 14) (s : State) : Host.Outcome State Fault Refusal :=
  runOp (fstOp p w8 d a off) s

/-- FFENCE_FLAG: a mark, then a flag store after the earlier far stores to its target (18 R394). -/
def ffenceFlagOp (p : PReg) (w8 : Bool) (d : SReg) (a : SReg) (off : BitVec 14) : SlotOp :=
  { slot := 6, pred := some p, sq := 1, srcs := sSrcs [d, a],
    trap := fun s => farTrap s 6 (s.cc.ea a off 1) (farSize w8) (·.w),
    eff := fun s => s.updCur fun c => ((c.enqOrder none false .none false).farBlock 6).enq false none
      { kind := .far .flag (c.sr d.val) 0 0 false, ea := c.ea a off 1, size := farSize w8, unit := 0 } }
def execFfenceFlag (p : PReg) (w8 : Bool) (d : SReg) (a : SReg) (off : BitVec 14) (s : State) : Host.Outcome State Fault Refusal :=
  runOp (ffenceFlagOp p w8 d a off) s

/-- FAMO_ADD: far atomic add (18 R392). -/
def famoAddOp (p : PReg) (o : MemOrd) (w8 : Bool) (d : SReg) (a : SReg) (b : SReg) : SlotOp := famoOp .add p o false w8 d a b
def execFamoAdd (p : PReg) (o : MemOrd) (w8 : Bool) (d : SReg) (a : SReg) (b : SReg) (s : State) : Host.Outcome State Fault Refusal :=
  runOp (famoAddOp p o w8 d a b) s

/-- FAMO_SWAP: far atomic swap (18 R392). -/
def famoSwapOp (p : PReg) (o : MemOrd) (w8 : Bool) (d : SReg) (a : SReg) (b : SReg) : SlotOp := famoOp .swap p o false w8 d a b
def execFamoSwap (p : PReg) (o : MemOrd) (w8 : Bool) (d : SReg) (a : SReg) (b : SReg) (s : State) : Host.Outcome State Fault Refusal :=
  runOp (famoSwapOp p o w8 d a b) s

/-- FAMO_AND: far atomic and (18 R392). -/
def famoAndOp (p : PReg) (o : MemOrd) (w8 : Bool) (d : SReg) (a : SReg) (b : SReg) : SlotOp := famoOp .and p o false w8 d a b
def execFamoAnd (p : PReg) (o : MemOrd) (w8 : Bool) (d : SReg) (a : SReg) (b : SReg) (s : State) : Host.Outcome State Fault Refusal :=
  runOp (famoAndOp p o w8 d a b) s

/-- FAMO_OR: far atomic or (18 R392). -/
def famoOrOp (p : PReg) (o : MemOrd) (w8 : Bool) (d : SReg) (a : SReg) (b : SReg) : SlotOp := famoOp .or p o false w8 d a b
def execFamoOr (p : PReg) (o : MemOrd) (w8 : Bool) (d : SReg) (a : SReg) (b : SReg) (s : State) : Host.Outcome State Fault Refusal :=
  runOp (famoOrOp p o w8 d a b) s

/-- FAMO_CAS: far compare and swap (18 R392). -/
def famoCasOp (p : PReg) (o : MemOrd) (failAcq : Bool) (w8 : Bool) (d : SReg) (a : SReg) (b : SReg) : SlotOp := famoOp .cas p o failAcq w8 d a b
def execFamoCas (p : PReg) (o : MemOrd) (failAcq : Bool) (w8 : Bool) (d : SReg) (a : SReg) (b : SReg) (s : State) : Host.Outcome State Fault Refusal :=
  runOp (famoCasOp p o failAcq w8 d a b) s

end Sys2Proof.Machine
end

