-- ==== Sys2Proof/Machine/Scalar.lean ====
section
/-! DEFINITION. The A slot (07 R136 to R146): scalar arithmetic, compares, predicate logic, bit fields, moves between files. -/

namespace Sys2Proof.Machine

/-- A two-source scalar result of latency L. -/
def alu2 (p : PReg) (L : Nat) (d a b : SReg) (f : Word → Word → Word) : SlotOp :=
  { slot := 4, pred := some p, srcs := sSrcs [a, b], eff := fun s => s.landS 4 L d (f (s.cc.sr a.val) (s.cc.sr b.val)) }
/-- A one-source scalar result of latency 1. -/
def alu1 (p : PReg) (d a : SReg) (f : Word → Word) : SlotOp :=
  { slot := 4, pred := some p, srcs := sSrcs [a], eff := fun s => s.landS 4 1 d (f (s.cc.sr a.val)) }
/-- A predicate result of latency 1 from scalars. -/
def cmpS (p : PReg) (d : PReg) (srcs : List SReg) (f : Ctx → Bool) : SlotOp :=
  { slot := 4, pred := some p, srcs := sSrcs srcs, eff := fun s => s.landP 4 1 d (f s.cc) }
/-- A predicate result of latency 1 from predicates (07 R143). -/
def logicP (p : PReg) (d a b : PReg) (f : Bool → Bool → Bool) : SlotOp :=
  { slot := 4, pred := some p, srcs := fun _ => [.p a, .p b],
    eff := fun s => s.landP 4 1 d (f (s.cc.pr a.val) (s.cc.pr b.val)) }

/-- Shifts by a 64-bit unsigned count (07 Table 7.1). -/
def wordShl (x y : Word) : Word := if y.toNat < 64 then x <<< y.toNat else 0
def wordShr (x y : Word) : Word := if y.toNat < 64 then x >>> y.toNat else 0
def wordSar (x y : Word) : Word := x.sshiftRight (min y.toNat 63)
/-- Bits 127 to 64 of the exact signed product (07 Table 7.1). -/
def wordMulh (x y : Word) : Word := BitVec.ofInt 64 (x.toInt * y.toInt / (2 ^ 64 : Int))
/-- Leading zero bits. -/
def wordClz (x : Word) : Word := if x = 0 then 64 else BitVec.ofNat 64 (63 - Nat.log2 x.toNat)
/-- One bits. -/
def wordPopc (x : Word) : Word := BitVec.ofNat 64 ((List.range 64).filter x.getLsbD).length
/-- Cond (07 R141). -/
def condHolds (c : Cond) (x y : Word) : Bool :=
  match c with
  | .eq => x == y | .ne => x != y | .lt => x.slt y | .ge => !x.slt y | .ltu => x.ult y | .geu => !x.ult y
/-- An AI immediate, sign-extended (05 R120). -/
def sext25 (imm : BitVec 25) : Word := imm.signExtend 64
/-- A bit field of a word (07 R144). -/
def bitField (x : Word) (pos len : Nat) : Nat := x.toNat / 2 ^ pos % 2 ^ len
/-- A word with a bit field replaced. -/
def putField (x y : Word) (pos len : Nat) : Word :=
  let m : Word := BitVec.ofNat 64 ((2 ^ len - 1) * 2 ^ pos)
  (x &&& ~~~m) ||| ((y <<< pos) &&& m)
/-- The second register of a pair. -/
def pairHi (a : SReg) : SReg := Fin.ofNat 64 (a.val + 1)
/-- Element bits (07 Table 7.5). -/
def esizeBits : ESize → Nat | .e8 => 8 | .e16 => 16 | .e32 => 32 | .e64 => 64

/-- ADD: d ← a + b (07 R139). -/
def addOp (p : PReg) (d : SReg) (a : SReg) (b : SReg) : SlotOp := alu2 p 1 d a b fun x y => x + y
def execAdd (p : PReg) (d : SReg) (a : SReg) (b : SReg) (s : State) : Host.Outcome State Fault Refusal :=
  runOp (addOp p d a b) s

/-- SUB: d ← a − b (07 R139). -/
def subOp (p : PReg) (d : SReg) (a : SReg) (b : SReg) : SlotOp := alu2 p 1 d a b fun x y => x - y
def execSub (p : PReg) (d : SReg) (a : SReg) (b : SReg) (s : State) : Host.Outcome State Fault Refusal :=
  runOp (subOp p d a b) s

/-- AND: d ← a AND b (07 R139). -/
def andOp (p : PReg) (d : SReg) (a : SReg) (b : SReg) : SlotOp := alu2 p 1 d a b fun x y => x &&& y
def execAnd (p : PReg) (d : SReg) (a : SReg) (b : SReg) (s : State) : Host.Outcome State Fault Refusal :=
  runOp (andOp p d a b) s

/-- OR: d ← a OR b (07 R139). -/
def orOp (p : PReg) (d : SReg) (a : SReg) (b : SReg) : SlotOp := alu2 p 1 d a b fun x y => x ||| y
def execOr (p : PReg) (d : SReg) (a : SReg) (b : SReg) (s : State) : Host.Outcome State Fault Refusal :=
  runOp (orOp p d a b) s

/-- XOR: d ← a XOR b (07 R139). -/
def xorOp (p : PReg) (d : SReg) (a : SReg) (b : SReg) : SlotOp := alu2 p 1 d a b fun x y => x ^^^ y
def execXor (p : PReg) (d : SReg) (a : SReg) (b : SReg) (s : State) : Host.Outcome State Fault Refusal :=
  runOp (xorOp p d a b) s

/-- ANDN: d ← a AND NOT b (07 R139). -/
def andnOp (p : PReg) (d : SReg) (a : SReg) (b : SReg) : SlotOp := alu2 p 1 d a b fun x y => x &&& ~~~y
def execAndn (p : PReg) (d : SReg) (a : SReg) (b : SReg) (s : State) : Host.Outcome State Fault Refusal :=
  runOp (andnOp p d a b) s

/-- SHL: a << b, 0 from 64 on (07 R139). -/
def shlOp (p : PReg) (d : SReg) (a : SReg) (b : SReg) : SlotOp := alu2 p 1 d a b wordShl
def execShl (p : PReg) (d : SReg) (a : SReg) (b : SReg) (s : State) : Host.Outcome State Fault Refusal :=
  runOp (shlOp p d a b) s

/-- SHR: a >> b logical, 0 from 64 on (07 R139). -/
def shrOp (p : PReg) (d : SReg) (a : SReg) (b : SReg) : SlotOp := alu2 p 1 d a b wordShr
def execShr (p : PReg) (d : SReg) (a : SReg) (b : SReg) (s : State) : Host.Outcome State Fault Refusal :=
  runOp (shrOp p d a b) s

/-- SAR: a >> b arithmetic (07 R139). -/
def sarOp (p : PReg) (d : SReg) (a : SReg) (b : SReg) : SlotOp := alu2 p 1 d a b wordSar
def execSar (p : PReg) (d : SReg) (a : SReg) (b : SReg) (s : State) : Host.Outcome State Fault Refusal :=
  runOp (sarOp p d a b) s

/-- MIN: the signed smaller (07 R139). -/
def minOp (p : PReg) (d : SReg) (a : SReg) (b : SReg) : SlotOp := alu2 p 1 d a b fun x y => if x.sle y then x else y
def execMin (p : PReg) (d : SReg) (a : SReg) (b : SReg) (s : State) : Host.Outcome State Fault Refusal :=
  runOp (minOp p d a b) s

/-- MAX: the signed larger (07 R139). -/
def maxOp (p : PReg) (d : SReg) (a : SReg) (b : SReg) : SlotOp := alu2 p 1 d a b fun x y => if y.sle x then x else y
def execMax (p : PReg) (d : SReg) (a : SReg) (b : SReg) (s : State) : Host.Outcome State Fault Refusal :=
  runOp (maxOp p d a b) s

/-- LEA: a + (b << sh) (07 R139). -/
def leaOp (p : PReg) (d : SReg) (a : SReg) (b : SReg) (sh : Fin 16) : SlotOp := alu2 p 1 d a b fun x y => x + (y <<< sh.val)
def execLea (p : PReg) (d : SReg) (a : SReg) (b : SReg) (sh : Fin 16) (s : State) : Host.Outcome State Fault Refusal :=
  runOp (leaOp p d a b sh) s

/-- SEL: a when the predicate is true, else b (07 R139). -/
def selOp (p : PReg) (d : SReg) (a : SReg) (b : SReg) (q : PReg) : SlotOp :=
  { slot := 4, pred := some p, srcs := fun _ => [.s a, .s b, .p q],
    eff := fun s => s.landS 4 1 d (if s.cc.pr q.val then s.cc.sr a.val else s.cc.sr b.val) }
def execSel (p : PReg) (d : SReg) (a : SReg) (b : SReg) (q : PReg) (s : State) : Host.Outcome State Fault Refusal :=
  runOp (selOp p d a b q) s

/-- MUL: the low 64 bits of the product, latency 3 (07 R139). -/
def mulOp (p : PReg) (d : SReg) (a : SReg) (b : SReg) : SlotOp := alu2 p 3 d a b fun x y => x * y
def execMul (p : PReg) (d : SReg) (a : SReg) (b : SReg) (s : State) : Host.Outcome State Fault Refusal :=
  runOp (mulOp p d a b) s

/-- MULH: the high 64 bits of the signed product, latency 3 (07 R139). -/
def mulhOp (p : PReg) (d : SReg) (a : SReg) (b : SReg) : SlotOp := alu2 p 3 d a b wordMulh
def execMulh (p : PReg) (d : SReg) (a : SReg) (b : SReg) (s : State) : Host.Outcome State Fault Refusal :=
  runOp (mulhOp p d a b) s

/-- CLZ: leading zeros (07 R139). -/
def clzOp (p : PReg) (d : SReg) (a : SReg) : SlotOp := alu1 p d a wordClz
def execClz (p : PReg) (d : SReg) (a : SReg) (s : State) : Host.Outcome State Fault Refusal :=
  runOp (clzOp p d a) s

/-- POPC: one bits (07 R139). -/
def popcOp (p : PReg) (d : SReg) (a : SReg) : SlotOp := alu1 p d a wordPopc
def execPopc (p : PReg) (d : SReg) (a : SReg) (s : State) : Host.Outcome State Fault Refusal :=
  runOp (popcOp p d a) s

/-- ADDI: a + sext(imm) (07 R140). -/
def addiOp (p : PReg) (d : SReg) (a : SReg) (imm : BitVec 25) : SlotOp := alu1 p d a fun x => x + sext25 imm
def execAddi (p : PReg) (d : SReg) (a : SReg) (imm : BitVec 25) (s : State) : Host.Outcome State Fault Refusal :=
  runOp (addiOp p d a imm) s

/-- ANDI: a AND sext(imm) (07 R140). -/
def andiOp (p : PReg) (d : SReg) (a : SReg) (imm : BitVec 25) : SlotOp := alu1 p d a fun x => x &&& sext25 imm
def execAndi (p : PReg) (d : SReg) (a : SReg) (imm : BitVec 25) (s : State) : Host.Outcome State Fault Refusal :=
  runOp (andiOp p d a imm) s

/-- ORI: a OR sext(imm) (07 R140). -/
def oriOp (p : PReg) (d : SReg) (a : SReg) (imm : BitVec 25) : SlotOp := alu1 p d a fun x => x ||| sext25 imm
def execOri (p : PReg) (d : SReg) (a : SReg) (imm : BitVec 25) (s : State) : Host.Outcome State Fault Refusal :=
  runOp (oriOp p d a imm) s

/-- XORI: a XOR sext(imm) (07 R140). -/
def xoriOp (p : PReg) (d : SReg) (a : SReg) (imm : BitVec 25) : SlotOp := alu1 p d a fun x => x ^^^ sext25 imm
def execXori (p : PReg) (d : SReg) (a : SReg) (imm : BitVec 25) (s : State) : Host.Outcome State Fault Refusal :=
  runOp (xoriOp p d a imm) s

/-- SHLI: a << n (07 R140). -/
def shliOp (p : PReg) (d : SReg) (a : SReg) (n : Fin 64) : SlotOp := alu1 p d a fun x => x <<< n.val
def execShli (p : PReg) (d : SReg) (a : SReg) (n : Fin 64) (s : State) : Host.Outcome State Fault Refusal :=
  runOp (shliOp p d a n) s

/-- SHRI: a >> n logical (07 R140). -/
def shriOp (p : PReg) (d : SReg) (a : SReg) (n : Fin 64) : SlotOp := alu1 p d a fun x => x >>> n.val
def execShri (p : PReg) (d : SReg) (a : SReg) (n : Fin 64) (s : State) : Host.Outcome State Fault Refusal :=
  runOp (shriOp p d a n) s

/-- SARI: a >> n arithmetic (07 R140). -/
def sariOp (p : PReg) (d : SReg) (a : SReg) (n : Fin 64) : SlotOp := alu1 p d a fun x => x.sshiftRight n.val
def execSari (p : PReg) (d : SReg) (a : SReg) (n : Fin 64) (s : State) : Host.Outcome State Fault Refusal :=
  runOp (sariOp p d a n) s

/-- LCAT: (a << 25) OR zext(imm) (07 R140). -/
def lcatOp (p : PReg) (d : SReg) (a : SReg) (imm : BitVec 25) : SlotOp := alu1 p d a fun x => (x <<< 25) ||| imm.setWidth 64
def execLcat (p : PReg) (d : SReg) (a : SReg) (imm : BitVec 25) (s : State) : Host.Outcome State Fault Refusal :=
  runOp (lcatOp p d a imm) s

/-- LI: sext(imm) (07 R140). -/
def liOp (p : PReg) (d : SReg) (imm : BitVec 25) : SlotOp := { slot := 4, pred := some p, eff := fun s => s.landS 4 1 d (sext25 imm) }
def execLi (p : PReg) (d : SReg) (imm : BitVec 25) (s : State) : Host.Outcome State Fault Refusal :=
  runOp (liOp p d imm) s

/-- CMP: Cond(c, a, b) (07 R142). -/
def cmpOp (p : PReg) (c : Cond) (d : PReg) (a : SReg) (b : SReg) : SlotOp := cmpS p d [a, b] fun k => condHolds c (k.sr a.val) (k.sr b.val)
def execCmp (p : PReg) (c : Cond) (d : PReg) (a : SReg) (b : SReg) (s : State) : Host.Outcome State Fault Refusal :=
  runOp (cmpOp p c d a b) s

/-- CMPI_EQ: Cond(eq, a, sext(imm)) (07 R142). -/
def cmpiEqOp (p : PReg) (d : PReg) (a : SReg) (imm : BitVec 25) : SlotOp := cmpS p d [a] fun k => condHolds .eq (k.sr a.val) (sext25 imm)
def execCmpiEq (p : PReg) (d : PReg) (a : SReg) (imm : BitVec 25) (s : State) : Host.Outcome State Fault Refusal :=
  runOp (cmpiEqOp p d a imm) s

/-- CMPI_NE: Cond(ne, a, sext(imm)) (07 R142). -/
def cmpiNeOp (p : PReg) (d : PReg) (a : SReg) (imm : BitVec 25) : SlotOp := cmpS p d [a] fun k => condHolds .ne (k.sr a.val) (sext25 imm)
def execCmpiNe (p : PReg) (d : PReg) (a : SReg) (imm : BitVec 25) (s : State) : Host.Outcome State Fault Refusal :=
  runOp (cmpiNeOp p d a imm) s

/-- CMPI_LT: Cond(lt, a, sext(imm)) (07 R142). -/
def cmpiLtOp (p : PReg) (d : PReg) (a : SReg) (imm : BitVec 25) : SlotOp := cmpS p d [a] fun k => condHolds .lt (k.sr a.val) (sext25 imm)
def execCmpiLt (p : PReg) (d : PReg) (a : SReg) (imm : BitVec 25) (s : State) : Host.Outcome State Fault Refusal :=
  runOp (cmpiLtOp p d a imm) s

/-- CMPI_GE: Cond(ge, a, sext(imm)) (07 R142). -/
def cmpiGeOp (p : PReg) (d : PReg) (a : SReg) (imm : BitVec 25) : SlotOp := cmpS p d [a] fun k => condHolds .ge (k.sr a.val) (sext25 imm)
def execCmpiGe (p : PReg) (d : PReg) (a : SReg) (imm : BitVec 25) (s : State) : Host.Outcome State Fault Refusal :=
  runOp (cmpiGeOp p d a imm) s

/-- CMPI_LTU: Cond(ltu, a, sext(imm)) (07 R142). -/
def cmpiLtuOp (p : PReg) (d : PReg) (a : SReg) (imm : BitVec 25) : SlotOp := cmpS p d [a] fun k => condHolds .ltu (k.sr a.val) (sext25 imm)
def execCmpiLtu (p : PReg) (d : PReg) (a : SReg) (imm : BitVec 25) (s : State) : Host.Outcome State Fault Refusal :=
  runOp (cmpiLtuOp p d a imm) s

/-- CMPI_GEU: Cond(geu, a, sext(imm)) (07 R142). -/
def cmpiGeuOp (p : PReg) (d : PReg) (a : SReg) (imm : BitVec 25) : SlotOp := cmpS p d [a] fun k => condHolds .geu (k.sr a.val) (sext25 imm)
def execCmpiGeu (p : PReg) (d : PReg) (a : SReg) (imm : BitVec 25) (s : State) : Host.Outcome State Fault Refusal :=
  runOp (cmpiGeuOp p d a imm) s

/-- PAND: a AND b (07 R143). -/
def pandOp (p : PReg) (d : PReg) (a : PReg) (b : PReg) : SlotOp := logicP p d a b fun x y => x && y
def execPand (p : PReg) (d : PReg) (a : PReg) (b : PReg) (s : State) : Host.Outcome State Fault Refusal :=
  runOp (pandOp p d a b) s

/-- POR: a OR b (07 R143). -/
def porOp (p : PReg) (d : PReg) (a : PReg) (b : PReg) : SlotOp := logicP p d a b fun x y => x || y
def execPor (p : PReg) (d : PReg) (a : PReg) (b : PReg) (s : State) : Host.Outcome State Fault Refusal :=
  runOp (porOp p d a b) s

/-- PXOR: a XOR b (07 R143). -/
def pxorOp (p : PReg) (d : PReg) (a : PReg) (b : PReg) : SlotOp := logicP p d a b fun x y => x != y
def execPxor (p : PReg) (d : PReg) (a : PReg) (b : PReg) (s : State) : Host.Outcome State Fault Refusal :=
  runOp (pxorOp p d a b) s

/-- BFX: a field, sign-extended (07 R144). -/
def bfxOp (p : PReg) (d : SReg) (a : SReg) (pos : Fin 64) (len1 : Fin 64) : SlotOp := alu1 p d a fun x => BitVec.ofInt 64 (sgn (len1.val + 1) (bitField x pos.val (len1.val + 1)))
def execBfx (p : PReg) (d : SReg) (a : SReg) (pos : Fin 64) (len1 : Fin 64) (s : State) : Host.Outcome State Fault Refusal :=
  runOp (bfxOp p d a pos len1) s

/-- BFXU: a field, zero-extended (07 R144). -/
def bfxuOp (p : PReg) (d : SReg) (a : SReg) (pos : Fin 64) (len1 : Fin 64) : SlotOp := alu1 p d a fun x => BitVec.ofNat 64 (bitField x pos.val (len1.val + 1))
def execBfxu (p : PReg) (d : SReg) (a : SReg) (pos : Fin 64) (len1 : Fin 64) (s : State) : Host.Outcome State Fault Refusal :=
  runOp (bfxuOp p d a pos len1) s

/-- BFI: a with a field replaced (07 R144). -/
def bfiOp (p : PReg) (d : SReg) (a : SReg) (b : SReg) (pos : Fin 64) (len1 : Fin 64) : SlotOp := alu2 p 1 d a b fun x y => putField x y pos.val (len1.val + 1)
def execBfi (p : PReg) (d : SReg) (a : SReg) (b : SReg) (pos : Fin 64) (len1 : Fin 64) (s : State) : Host.Outcome State Fault Refusal :=
  runOp (bfiOp p d a b pos len1) s

/-- KPUT: a scalar pair into a lane mask (07 R145). -/
def kputOp (p : PReg) (d : KReg) (a : SReg) : SlotOp :=
  { slot := 4, pred := some p, srcs := sSrcs [a, pairHi a], groups := a.val % 2 == 0,
    eff := fun s => s.land 4 1 {
      dest := .kreg d.val, n := 128, en := 2 ^ 128 - 1,
      value := BitVec.ofNat 1024 ((s.cc.sr a.val).toNat + (s.cc.sr (pairHi a).val).toNat * 2 ^ 64) } }
def execKput (p : PReg) (d : KReg) (a : SReg) (s : State) : Host.Outcome State Fault Refusal :=
  runOp (kputOp p d a) s

/-- KGET: a lane mask into a scalar pair (07 R145). -/
def kgetOp (p : PReg) (d : SReg) (a : KReg) : SlotOp :=
  { slot := 4, pred := some p, srcs := fun _ => [.k a], groups := d.val % 2 == 0,
    eff := fun s => (s.landS 4 1 d (BitVec.ofNat 64 (s.cc.kr a.val).toNat)).landS 4 1 (pairHi d)
      (BitVec.ofNat 64 ((s.cc.kr a.val).toNat / 2 ^ 64)) }
def execKget (p : PReg) (d : SReg) (a : KReg) (s : State) : Host.Outcome State Fault Refusal :=
  runOp (kgetOp p d a) s

/-- OGET: one element of an operand-file register (07 R146). -/
def ogetOp (p : PReg) (e : ESize) (d : SReg) (a : OReg) (b : SReg) : SlotOp :=
  { slot := 4, pred := some p, srcs := fun _ => [.o a, .s b],
    eff := fun s =>
      let w := esizeBits e
      s.landS 4 1 d (BitVec.ofNat 64 ((s.cc.or a.val).toNat / 2 ^ (w * ((s.cc.sr b.val).toNat % (1024 / w))) % 2 ^ w)) }
def execOget (p : PReg) (e : ESize) (d : SReg) (a : OReg) (b : SReg) (s : State) : Host.Outcome State Fault Refusal :=
  runOp (ogetOp p e d a b) s

/-- OPUT: one element of an operand-file register written (07 R146). -/
def oputOp (p : PReg) (e : ESize) (d : OReg) (a : SReg) (b : SReg) : SlotOp :=
  { slot := 4, pred := some p, srcs := sSrcs [a, b],
    eff := fun s =>
      let w := esizeBits e
      let i := (s.cc.sr b.val).toNat % (1024 / w)
      s.land 4 1 {
        dest := .oreg d.val, esz := w, n := 1024 / w, en := 2 ^ i,
        value := BitVec.ofNat 1024 ((s.cc.sr a.val).toNat % 2 ^ w * 2 ^ (w * i)) } }
def execOput (p : PReg) (e : ESize) (d : OReg) (a : SReg) (b : SReg) (s : State) : Host.Outcome State Fault Refusal :=
  runOp (oputOp p e d a b) s

end Sys2Proof.Machine
end

