-- ==== Sys2Proof/Machine/Sfu.lean ====
section
/-! DEFINITION. The special functions of revision 1 (09 R192 to R199): the correctly rounded value of the mathematical
function. Algebraic functions and exact values are rounded exactly. A transcendental value is bracketed by integer
fixed-point arithmetic at rising precision until both ends of the bracket round alike. -/

namespace Sys2Proof.Machine

/-- The nine functions (09 Table 9.1). -/
inductive SfuFn where
  | exp2 | log2 | rcp | rsqrt | sqrt | tanh | sigmoid | sin2pi | cos2pi
  deriving DecidableEq, Repr, Inhabited

/-- Floor of the square root, from the bits of the result downwards. -/
def isqrtLoop (n : Nat) : Nat → Nat → Nat
  | 0, r => r
  | b + 1, r =>
    let c := r + 2 ^ b
    isqrtLoop n b (if c * c ≤ n then c else r)

def isqrt (n : Nat) : Nat := isqrtLoop n (Nat.log2 n / 2 + 1) 0

/-- The sum of pw / (2 k + 1) with pw divided each time by sq, signs alternating where alt holds. -/
def atanLoop (alt : Bool) (sq : Nat) : Nat → Nat → Int → Int → Int
  | 0, _, _, acc => acc
  | fuel + 1, k, pw, acc =>
    if pw = 0 then acc
    else
      let term := pw / (2 * k + 1 : Nat)
      atanLoop alt sq fuel (k + 1) (pw / (sq : Int)) (if alt && k % 2 == 1 then acc - term else acc + term)

/-- ln 2 with P fraction bits: twice the inverse hyperbolic tangent of 1/3. -/
def ln2F (P : Nat) : Int := atanLoop false 9 P 0 (2 * 2 ^ P / 3 : Nat) 0

/-- The inverse tangent of 1/q. -/
def atanInvF (P q : Nat) : Int := atanLoop true (q * q) P 0 (2 ^ P / q : Nat) 0

/-- Pi with P fraction bits. -/
def piF (P : Nat) : Int := 16 * atanInvF P 5 - 4 * atanInvF P 239

/-- Taylor sum: the term is multiplied each time by z and divided by (k + 1) and, for a step of two, (k + 2). -/
def taylorLoop (P : Nat) (z : Int) (two : Bool) : Nat → Nat → Int → Int → Int
  | 0, _, _, acc => acc
  | fuel + 1, k, term, acc =>
    if term = 0 then acc
    else
      let d : Nat := if two then (k + 1) * (k + 2) else k + 1
      let t := term * z / (2 ^ P : Nat) / (d : Int)
      taylorLoop P z two fuel (k + if two then 2 else 1) t (acc + t)

/-- e^z for small z. -/
def expF (P : Nat) (z : Int) : Int := taylorLoop P z false (P + 8) 0 (2 ^ P : Nat) (2 ^ P : Nat)

/-- sin z and cos z for small z. -/
def sinF (P : Nat) (z : Int) : Int := taylorLoop P (-(z * z / (2 ^ P : Nat))) true (P + 8) 1 z z
def cosF (P : Nat) (z : Int) : Int := taylorLoop P (-(z * z / (2 ^ P : Nat))) true (P + 8) 0 (2 ^ P : Nat) (2 ^ P : Nat)

/-- e^(-z) for z at least 0. -/
def expNegF (P : Nat) (z : Int) : Int :=
  let l := ln2F P
  let n := z / l
  expF P (-(z - n * l)) / (2 ^ n.toNat : Nat)

/-- ln (a / b) for a / b between 3/4 and 3/2: twice the inverse hyperbolic tangent of (a - b) / (a + b). -/
def lnRatioF (P : Nat) (a b : Nat) : Int :=
  let z : Int := ((a : Int) - b) * (2 ^ P : Nat) / ((a + b : Nat) : Int)
  let sq := z * z / (2 ^ P : Nat)
  let rec go : Nat → Nat → Int → Int → Int
    | 0, _, _, acc => acc
    | fuel + 1, k, pw, acc =>
      if pw = 0 then acc else go fuel (k + 1) (pw * sq / (2 ^ P : Nat)) (acc + pw / (2 * k + 1 : Nat))
  2 * go (P + 8) 0 z 0

/-- A dyadic m * 2^e with P fraction bits, rounded down. -/
def dyF (P : Nat) (m : Int) (e : Int) : Int :=
  let s := e + P
  if 0 ≤ s then m * (2 ^ s.toNat : Nat) else m / (2 ^ (-s).toNat : Nat)

/-- The nearest integer to m * 2^e, halves upwards, for e below 0. -/
def nearZ (m : Int) (e : Int) : Int :=
  let q : Nat := 2 ^ (-e).toNat
  (2 * m + q) / (2 * q : Nat)

/-- An approximation of a transcendental value, as an integer and a power of two; the error is below 2^16 units of
the integer. The argument is finite, not zero and of no exact value. -/
def sfuApprox (fn : SfuFn) (neg : Bool) (m : Nat) (e : Int) (P : Nat) : Int × Int :=
  let x := sInt neg m
  match fn with
  | .exp2 =>
    let n := nearZ x e
    let f := x - n * (2 ^ (-e).toNat : Nat)
    (expF P (dyF P f e * ln2F P / (2 ^ P : Nat)), n - P)
  | .log2 =>
    let l := Nat.log2 m
    let big := decide (3 * 2 ^ l < 2 * m)
    let (a, ex) := if big then (m, (l : Int) + 1) else (m, (l : Int))
    ((ex + e) * (2 ^ P : Nat) + lnRatioF P a (2 ^ ex.toNat) * (2 ^ P : Nat) / ln2F P, -P)
  | .tanh =>
    let z := min (dyF P m (e + 1)) (128 * 2 ^ P : Nat)
    let u := expNegF P z
    let y := ((2 ^ P : Nat) - u) * (2 ^ P : Nat) / ((2 ^ P : Nat) + u)
    (if neg then -y else y, -P)
  | .sigmoid =>
    let z := min (dyF P m e) (128 * 2 ^ P : Nat)
    let u := expNegF P z
    ((if neg then u else (2 ^ P : Nat)) * (2 ^ P : Nat) / ((2 ^ P : Nat) + u), -P)
  | .sin2pi => (trig false x e P, -P)
  | .cos2pi => (trig true x e P, -P)
  | _ => (0, 0)
where
  /-- sin or cos of 2 pi x for a dyadic x below an integer's grid. -/
  trig (cosine : Bool) (x : Int) (e : Int) (P : Nat) : Int :=
    let q := nearZ (4 * x) e
    let t := 4 * x - q * (2 ^ (-e).toNat : Nat)
    let z := dyF P t (e - 1) * piF P / (2 ^ P : Nat)
    match (q + if cosine then 1 else 0) % 4 with
    | 0 => sinF P z
    | 1 => cosF P z
    | 2 => -(sinF P z)
    | _ => -(cosF P z)

/-- The correctly rounded result of a value of no exact grid point, from brackets of rising precision. -/
def zivLoop (f : FpFmt) (approx : Nat → Int × Int) : List Nat → Nat × Flags
  | [] => (f.nan.getD 0, 0)
  | P :: rest =>
    let (v, e) := approx P
    let a := v.natAbs
    let err := 2 ^ 16
    if a ≤ err then zivLoop f approx rest
    else
      let neg := decide (v < 0)
      let (c1, _, t1) := roundGrid f.t f.emin .rne neg (a - err) 1 e
      let (c2, _, t2) := roundGrid f.t f.emin .rne neg (a + err) 1 e
      if c1 = c2 ∧ t1 = t2 then
        if c1 > f.maxCode then (f.pack neg (f.inf.getD 0), fOVF ||| fINX)
        else (f.pack neg c1, fINX ||| fIf t1 fUNF)
      else zivLoop f approx rest

/-- The precisions tried. -/
def zivSteps : List Nat := [96, 192, 384, 768, 1536]

/-- The canonical NaN with INV. -/
def sfuInvalid (f : FpFmt) : Nat × Flags := (f.nan.getD 0, fINV)

/-- The code of 1. -/
def fpOne (f : FpFmt) (neg : Bool) : Nat := (f.round false .rne neg 1 1 0).1

/-- A finite argument of sin2pi or cos2pi whose result is 0, 1 or -1: four times it is an integer. -/
def sfuQuarter (f : FpFmt) (cosine neg : Bool) (x4 : Int) : Nat × Flags :=
  match (x4 + if cosine then 1 else 0) % 4 with
  | 0 => (if cosine then 0 else f.pack neg 0, 0)
  | 1 => (fpOne f false, 0)
  | 2 => (if cosine then 0 else f.pack neg 0, 0)
  | _ => (fpOne f true, 0)

/-- A square root from its floor with 128 extra bits and a sticky bit. -/
def sfuSqrt (f : FpFmt) (m : Nat) (e : Int) : Nat × Flags :=
  let (m, e) := if e % 2 = 0 then (m, e) else (2 * m, e - 1)
  let n := m * 2 ^ 256
  let r := isqrt n
  f.round false .rne false (2 * r + if r * r = n then 0 else 1) 1 (e / 2 - 129)

/-- A reciprocal square root likewise. -/
def sfuRsqrt (f : FpFmt) (m : Nat) (e : Int) : Nat × Flags :=
  let (m, e) := if e % 2 = 0 then (m, e) else (2 * m, e - 1)
  let r := isqrt (2 ^ 512 / m)
  f.round false .rne false (2 * r + if r * r * m = 2 ^ 512 then 0 else 1) 1 (-(e / 2) - 257)

/-- A finite nonzero argument (09 R196, R197, R198). -/
def sfuFinite (fn : SfuFn) (f : FpFmt) (neg : Bool) (m : Nat) (e : Int) : Nat × Flags :=
  match fn with
  | .exp2 =>
    if floorLog2 m 1 + e ≥ 10 then f.round false .rne false 1 1 (if neg then -1024 else 1024)
    else if m * 2 ^ (e + 200).toNat % 2 ^ 200 = 0 then
      f.round false .rne false 1 1 (sInt neg (m * 2 ^ (e + 200).toNat / 2 ^ 200))
    else zivLoop f (sfuApprox .exp2 neg m e) zivSteps
  | .log2 =>
    if neg then sfuInvalid f
    else if m = 2 ^ Nat.log2 m then
      let k : Int := (Nat.log2 m : Int) + e
      f.round false .rne (decide (k < 0)) k.natAbs 1 0
    else zivLoop f (sfuApprox .log2 neg m e) zivSteps
  | .rcp => f.round false .rne neg 1 m (-e)
  | .rsqrt => if neg then sfuInvalid f else sfuRsqrt f m e
  | .sqrt => if neg then sfuInvalid f else sfuSqrt f m e
  | .tanh => zivLoop f (sfuApprox .tanh neg m e) zivSteps
  | .sigmoid => zivLoop f (sfuApprox .sigmoid neg m e) zivSteps
  | .sin2pi => trigFinite false neg m e
  | .cos2pi => trigFinite true neg m e
where
  /-- sin2pi and cos2pi. -/
  trigFinite (cosine neg : Bool) (m : Nat) (e : Int) : Nat × Flags :=
    if 0 ≤ e then sfuQuarter f cosine neg 0
    else if (4 * m) % 2 ^ (-e).toNat = 0 then
      sfuQuarter f cosine neg (sInt neg (4 * m / 2 ^ (-e).toNat))
    else zivLoop f (sfuApprox (if cosine then .cos2pi else .sin2pi) neg m e) zivSteps

/-- An infinity or a zero (09 Table 9.2). -/
def sfuSpecial (fn : SfuFn) (f : FpFmt) (isInf neg : Bool) : Nat × Flags :=
  let zero := f.pack neg 0
  let pinf := f.inf.getD 0
  match fn with
  | .exp2 => (if isInf then if neg then 0 else pinf else fpOne f false, 0)
  | .log2 => if isInf then if neg then sfuInvalid f else (pinf, 0) else (f.pack true pinf, 0)
  | .rcp => (if isInf then zero else f.pack neg pinf, 0)
  | .rsqrt => if isInf then if neg then sfuInvalid f else (0, 0) else (f.pack neg pinf, 0)
  | .sqrt => if isInf then if neg then sfuInvalid f else (pinf, 0) else (zero, 0)
  | .tanh => (if isInf then fpOne f neg else zero, 0)
  | .sigmoid =>
    (if isInf then if neg then 0 else fpOne f false else (f.round false .rne false 1 1 (-1)).1, 0)
  | .sin2pi => if isInf then sfuInvalid f else (zero, 0)
  | .cos2pi => if isInf then sfuInvalid f else (fpOne f false, 0)

/-- Revision 1 of one element (09 R196). -/
def sfu1 (fn : SfuFn) (f : FpFmt) : Val → Nat × Flags
  | .nan => (f.nan.getD 0, 0)
  | .inf neg => sfuSpecial fn f true neg
  | .fin neg m e => if m = 0 then sfuSpecial fn f false neg else sfuFinite fn f neg m e

end Sys2Proof.Machine
end

