-- ==== Sys2Proof/Machine/Operands.lean ====
section
/-! DEFINITION. Vector operands: every form of 03 Table 3.4 read as elements, immediates (03 R70), pane windows
(03 R61 to R65), and vector results on their way to their destinations and latches (02 R50, 03 R67, 08 R167). -/

namespace Sys2Proof

open Machine

/-- The floating-point format of a vector type. -/
def VType.fp : VType → FpFmt
  | .f32 => fmtF32 | .bf16 => fmtBf16 | .f16 => fmtF16 | _ => fmtF32

/-- The slot number of a vector header. -/
def VHdr.slot (h : VHdr) : Nat := if h.v1 then 1 else 0

/-- Elements of a size in a slot's width (08 R164). -/
def VHdr.n (h : VHdr) (e : Nat) : Nat := h.width.bits / e

/-- Latency by class: floating point or integer (02 Table 2.6). -/
def VType.lat (ty : VType) (fp int : Nat) : Nat := if ty.isFp then fp else int

/-- An element as a value of its type. -/
def VType.dec (ty : VType) (x : Nat) : Val :=
  match ty with
  | .f32 | .bf16 | .f16 => ty.fp.dec x
  | .ui8 => .fin false x 0
  | ty => Val.ofInt (sgn ty.bits x)

/-- An element as an integer, signed or in column 110b unsigned (08 R170). -/
def VType.int (ty : VType) (x : Nat) : Int := if ty = .ui8 then x else sgn ty.bits x

end Sys2Proof

namespace Sys2Proof.Machine

/-- An immediate as one element of a type (03 R70). -/
def immElem (ty : VType) (v : BitVec 15) : Nat :=
  match ty with
  | .f32 => (fmtF32.conv true .rne (fmtBf16.dec (2 * v.toNat))).1
  | .bf16 => (fmtBf16.conv true .rne (fmtBf16.dec (2 * v.toNat))).1
  | .f16 => (fmtF16.conv true .rne (fmtBf16.dec (2 * v.toNat))).1
  | .ui8 => v.toNat % 256
  | ty => intBits ty.bits v.toInt

/-- A whole pane row, operand-file register or latch, or the elements of a column or diagonal (03 R63, R66). -/
def readOpnd (c : Ctx) (k : Core) (e n : Nat) (imm : Nat) : Opnd → List Nat
  | .main .row p i => elems e n (k.row (c.panebase + p.val) i.val).toNat
  | .main d p i => (List.range n).map fun j =>
      let (row, col) := paneCell d i.val j e
      k.cell (c.panebase + p.val) row col e
  | .opr o => elems e n (c.or o.val).toNat
  | .lat l => elems e n (if l then c.lat1 else c.lat0).toNat
  | .imm _ => List.replicate n imm

/-- An operand read at a vector type. -/
def State.opnd (s : State) (ty : VType) (n : Nat) (op : Opnd) : List Nat :=
  let imm := match op with | .imm v => immElem ty v | _ => 0
  readOpnd s.cc (s.core (coreOf s.cur)) ty.bits n imm op

/-- An operand read at an element size, an immediate standing for a given value. -/
def State.opndRaw (s : State) (e n imm : Nat) (op : Opnd) : List Nat :=
  readOpnd s.cc (s.core (coreOf s.cur)) e n imm op

/-- The destination an operand names. -/
def destOf (c : Ctx) : Opnd → Dest
  | .main d p i => .pane (c.panebase + p.val) d i.val
  | .opr o => .oreg o.val
  | _ => .none

/-- The lane mask of a slot as read at issue, as enabled elements. -/
def State.en (s : State) (h : VHdr) (n : Nat) : Nat := (s.cc.kr h.mask.val).toNat % 2 ^ n

/-- A mask whose bit j governs elements 2j and 2j + 1 (03 R57, 4-bit elements). -/
def en4 (m n : Nat) : Nat := (List.range n).foldl (fun a i => if m.testBit (i / 2) then a + 2 ^ i else a) 0

/-- Flags of the enabled elements. -/
def enFlags (en : Nat) (rs : List (Nat × Flags)) : Flags :=
  rs.zipIdx.foldl (fun f x => if en.testBit x.2 then f ||| x.1.2 else f) 0

/-- A vector result issued: n elements of size e, delivered where enabled, the latch taking all (08 R167). -/
def State.landVec (s : State) (h : VHdr) (L e n en : Nat) (d : Opnd) (rs : List (Nat × Flags)) : State :=
  s.land h.slot L {
    dest := destOf s.cc d, esz := e, n := n, en := en,
    value := BitVec.ofNat 1024 (packElems e (rs.map (·.1))), lat := some h.v1, flags := enFlags en rs }

/-- An element-by-element operation of one source. -/
def State.vec1 (s : State) (h : VHdr) (L : Nat) (ty : VType) (d a : Opnd) (f : Nat → Nat × Flags) : State :=
  let n := h.n ty.bits
  s.landVec h L ty.bits n (s.en h n) d ((s.opnd ty n a).map f)

/-- An element-by-element operation of two sources. -/
def State.vec2 (s : State) (h : VHdr) (L : Nat) (ty : VType) (d a b : Opnd) (f : Nat → Nat → Nat × Flags) : State :=
  let n := h.n ty.bits
  s.landVec h L ty.bits n (s.en h n) d (List.zipWith f (s.opnd ty n a) (s.opnd ty n b))

/-- A compare into a lane mask (08 R172, R173). -/
def State.vecCmp (s : State) (h : VHdr) (L : Nat) (ty : VType) (d : KReg) (a b : Opnd) (f : Nat → Nat → Bool) : State :=
  let n := h.n ty.bits
  let bits := List.zipWith (fun x y => (f x y).toNat) (s.opnd ty n a) (s.opnd ty n b)
  s.land h.slot L { dest := .kreg d.val, n := n, en := s.en h n, value := BitVec.ofNat 1024 (packElems 1 bits) }

/- Element operations of 08 R169 to R175 -/

/-- Floating-point addition, subtraction, multiplication (08 R169). -/
def fpAdd (fmt : Word) (ty : VType) (x y : Nat) : Nat × Flags :=
  ty.fp.result (fmtSatf fmt) (arithMode fmt) ((ty.fp.dec x).add (arithMode fmt) (ty.fp.dec y))
def fpSub (fmt : Word) (ty : VType) (x y : Nat) : Nat × Flags :=
  ty.fp.result (fmtSatf fmt) (arithMode fmt) ((ty.fp.dec x).add (arithMode fmt) (ty.fp.dec y).neg)
def fpMul (fmt : Word) (ty : VType) (x y : Nat) : Nat × Flags :=
  ty.fp.result (fmtSatf fmt) (arithMode fmt) ((ty.fp.dec x).mul (ty.fp.dec y))
/-- Fused multiply-add; the invalid product comes before the NaN row (08 R169). -/
def fpFma (fmt : Word) (ty : VType) (x y z : Nat) : Nat × Flags :=
  let m := (ty.fp.dec x).mul (ty.fp.dec y)
  let a := m.1.add (arithMode fmt) (ty.fp.dec z)
  ty.fp.result (fmtSatf fmt) (arithMode fmt) (a.1, m.2 ||| a.2)

def intAdd (ty : VType) (x y : Nat) : Nat × Flags := ((x + y) % 2 ^ ty.bits, 0)
def intSub (ty : VType) (x y : Nat) : Nat × Flags := ((x + 2 ^ ty.bits - y) % 2 ^ ty.bits, 0)
def intMul (ty : VType) (x y : Nat) : Nat × Flags := (x * y % 2 ^ ty.bits, 0)
/-- Clamp with SATI when it changes the value (08 Table 8.3). -/
def intClamp (ty : VType) (i : Int) : Nat × Flags :=
  let lo := intLo ty.bits (ty != .ui8)
  let hi := intHi ty.bits (ty != .ui8)
  if i < lo then (intBits ty.bits lo, fSATI) else if i > hi then (intBits ty.bits hi, fSATI) else (intBits ty.bits i, 0)

/-- The smaller or the larger of two elements (08 R171). -/
def minMax (isMax : Bool) (ty : VType) (x y : Nat) : Nat × Flags :=
  if ty.isFp then
    if ty.fp.dec x == .nan || ty.fp.dec y == .nan then (ty.fp.nan.getD 0, 0)
    else if (ty.fp.dec y).totalLt (ty.fp.dec x) then (if isMax then x else y, 0) else (if isMax then y else x, 0)
  else if ty.int y < ty.int x then (if isMax then x else y, 0) else (if isMax then y else x, 0)

/-- Absolute value (08 R170, R171). -/
def elAbs (ty : VType) (x : Nat) : Nat × Flags :=
  if ty.isFp then (if ty.fp.dec x == .nan then ty.fp.nan.getD 0 else x % ty.fp.signBit, 0)
  else ((sgn ty.bits x).natAbs % 2 ^ ty.bits, 0)

/-- Comparison of elements; false with a NaN (08 R172). -/
def elCmp (ty : VType) (x y : Nat) : Option Ordering := (ty.dec x).cmp (ty.dec y)

/-- Shifts (08 Table 8.4). -/
def elShl (e x c : Nat) : Nat := if c < e then x * 2 ^ c % 2 ^ e else 0
def elShr (e x c : Nat) : Nat := if c < e then x / 2 ^ c else 0
def elSar (e x c : Nat) : Nat := intBits e (sgn e x / (2 ^ (min c (e - 1)) : Nat))

/- Reductions (08 R178, R179) -/

/-- One level of the binary tree. -/
def pairUp (node : Nat → Nat → Nat × Flags) : List (Option Nat) → List (Option Nat) × Flags
  | a :: b :: t =>
    let (r, f) := pairUp node t
    match a, b with
    | some x, some y => let (v, g) := node x y; (some v :: r, f ||| g)
    | some x, none => (some x :: r, f)
    | none, y => (y :: r, f)
  | l => (l, 0)

/-- The fixed binary tree over w elements, w a power of two. -/
def treeReduce (node : Nat → Nat → Nat × Flags) : Nat → List (Option Nat) → Option Nat × Flags
  | 0, l => (l.headD none, 0)
  | f + 1, l =>
    let (l', g) := pairUp node l
    let (r, h) := treeReduce node f l'
    (r, g ||| h)

/-- The enabled elements as leaves. -/
def leaves (en : Nat) (xs : List Nat) : List (Option Nat) :=
  xs.zipIdx.map fun x => if en.testBit x.2 then some x.1 else none

/-- A reduction broadcast to every enabled element of D. -/
def State.vecReduce (s : State) (h : VHdr) (ty : VType) (d a : Opnd) (widen : Nat → Nat)
    (node : Nat → Nat → Nat × Flags) (root : Nat → Nat × Flags) : State :=
  let n := h.n ty.bits
  let en := s.en h n
  let (r, f) := treeReduce node 7 (leaves en ((s.opnd ty n a).map widen))
  let (v, g) := match r with | some v => root v | none => (0, 0)
  s.landVec h 6 ty.bits n en d (List.replicate n (v, f ||| g))

/-- Node of the FP32 sum tree: RNE in FP32 (08 R179). -/
def sumNode (x y : Nat) : Nat × Flags := fmtF32.result false .rne ((fmtF32.dec x).add .rne (fmtF32.dec y))

end Sys2Proof.Machine
end

