-- ==== Sys2Proof/Machine/Vector.lean ====
section
/-! DEFINITION. The vector slots (08 R164 to R191): arithmetic, compares, mask logic, shifts, lane exchanges, reductions, conversions, MX blocks, keyed words and parking. -/

namespace Sys2Proof.Machine

/-- A vector slot: its panes, the registers it reads, its effect. -/
def vecOp (h : VHdr) (e : Nat) (dst : List Opnd) (src : List Opnd) (eff : State → State) : SlotOp :=
  { slot := h.slot, panes := (dst ++ src).flatMap opndPane,
    srcs := fun c => .k h.mask :: src.flatMap (opndSrcs c e (h.n e)), eff := eff }

/-- Two sources, element by element. -/
def vOp2 (h : VHdr) (L : Nat) (ty : VType) (d a b : Opnd) (f : Word → Nat → Nat → Nat × Flags) : SlotOp :=
  vecOp h ty.bits [d] [a, b] fun s => s.vec2 h L ty d a b (f s.cc.fmt)
/-- One source, element by element. -/
def vOp1 (h : VHdr) (L : Nat) (ty : VType) (d a : Opnd) (f : Nat → Nat × Flags) : SlotOp :=
  vecOp h ty.bits [d] [a] fun s => s.vec1 h L ty d a f
/-- A compare into a lane mask. -/
def vOpC (h : VHdr) (ty : VType) (d : KReg) (a b : Opnd) (f : Option Ordering → Bool) : SlotOp :=
  vecOp h ty.bits [] [a, b] fun s => s.vecCmp h (ty.lat 4 2) ty d a b fun x y => f (elCmp ty x y)
/-- Mask logic: all 128 bits (08 R174). -/
def kOp (v1 : Bool) (d a b : KReg) (f : Mask → Mask → Mask) : SlotOp :=
  { slot := if v1 then 1 else 0, srcs := fun _ => [.k a, .k b],
    eff := fun s => s.land (if v1 then 1 else 0) 2
      { dest := .kreg d.val, n := 128, en := 2 ^ 128 - 1, value := BitVec.setWidth 1024 (f (s.cc.kr a.val) (s.cc.kr b.val)) } }
/-- A lane exchange: element i of the result is element f i of A (08 R176). -/
def vOpX (h : VHdr) (ty : VType) (d a : Opnd) (f : Nat → Nat → Nat) : SlotOp :=
  vecOp h ty.bits [d] [a] fun s =>
    let n := h.n ty.bits
    let xs := s.opnd ty n a
    s.landVec h 3 ty.bits n (s.en h n) d ((List.range n).map fun i => (pick xs (f n i), 0))
/-- Every NaN written is the canonical one (04 R83). -/
def canonNan (ty : VType) (x : Nat) : Nat := if ty.isFp && ty.fp.dec x == .nan then ty.fp.nan.getD 0 else x
/-- vredmax and vredmin (08 R179). -/
def vOpM (h : VHdr) (ty : VType) (d a : Opnd) (isMax : Bool) : SlotOp :=
  vecOp h ty.bits [d] [a] fun s => s.vecReduce h ty d a id (minMax isMax ty) fun x => (canonNan ty x, 0)
/-- The sum of a reduction at a type (08 R179). -/
def redSum (h : VHdr) (ty : VType) (d a : Opnd) (s : State) : State :=
  match ty with
  | .f32 => s.vecReduce h ty d a id sumNode fun x => (canonNan .f32 x, 0)
  | .bf16 | .f16 => s.vecReduce h ty d a (fun x => (fmtF32.conv false .rne (ty.fp.dec x)).1) sumNode
      fun x => ty.fp.conv false .rne (fmtF32.dec x)
  | _ => s.vecReduce h ty d a id (intAdd ty) fun x => (x, 0)

/-- The control of vredmask: validity bits and contributor count (08 R180). -/
def rmCtl (s : State) (h : VHdr) (b : Opnd) : Nat × Nat :=
  let xs := s.opndRaw 32 (h.n 32) 0 b
  (pick xs 0 + pick xs 1 * 2 ^ 32, pick xs 2 % 256)
/-- The contributors of vredmask. -/
def rmVal (v t : Nat) : List Nat := (List.range t).filter v.testBit
/-- The pane and the row of a row form. -/
def rowForm : Opnd → Nat × Nat
  | .main _ p i => (p.val, i.val)
  | _ => (0, 0)
/-- One element of vredmask (08 R181). -/
def rmElem (ys : List Nat) (t : Nat) : Nat × Flags :=
  let vs := ys.map fmtF32.dec
  let nan := fmtF32.nan.getD 0
  if ys.isEmpty then (0, 0)
  else if vs.any (· == .nan) then (nan, 0)
  else if vs.contains (.inf false) && vs.contains (.inf true) then (nan, fINV)
  else match vs.find? (fun v => v == .inf false || v == .inf true) with
  | some (.inf neg) => (fmtF32.ofInf neg)
  | _ =>
    match vs.foldl (fun (a : Val) v => (a.add .rne v).1) (Val.fin false 0 0) with
    | .fin neg m e => if m = 0 then (0, 0) else fmtF32.round false .rne neg (m * t) ys.length e
    | _ => (nan, 0)

/-- The random word of element i: 32-bit lane i of the second register of the pair, as the top bits of a key
(05 R112, 08 R183). -/
def cvtKey (c : Ctx) (a : Opnd) (i : Nat) : BitVec 64 :=
  match a with
  | .opr o => BitVec.ofNat 64 ((c.or (o.val + 1)).toNat / 2 ^ (32 * i) % 2 ^ 32 * 2 ^ 32)
  | _ => 0
/-- Whether the mode in force is stochastic. -/
def cvtSr (c : Ctx) (ctl : CvtCtl) : Bool := ctl.rsel == 4 || (ctl.rsel == 7 && fmtRm c.fmt == 4)
/-- Registers that vcvt and vmxq read: the random words only under SR (05 R112). -/
def cvtSrcs (h : VHdr) (ctl : CvtCtl) (a : Opnd) (n : Nat) (c : Ctx) : List RegId :=
  .k h.mask :: opndSrcs c (fmtBits ctl.src.toNat) n a ++
    match a with | .opr o => if cvtSr c ctl then [.o (Fin.ofNat 16 (o.val + 1))] else [] | _ => []
/-- Elements of a conversion (08 R182). -/
def cvtN (h : VHdr) (ctl : CvtCtl) : Nat := h.width.bits / max (fmtBits ctl.src.toNat) (fmtBits ctl.dst.toNat)
/-- The effect of vcvt (08 R182, R183). -/
def cvtEff (h : VHdr) (d a : Opnd) (ctl : CvtCtl) (s : State) : State :=
  let c := s.cc
  let es := fmtBits ctl.src.toNat
  let ed := fmtBits ctl.dst.toNat
  let n := cvtN h ctl
  let mask := (c.kr h.mask.val).toNat
  let en := if es = 4 ∧ ed = 4 then en4 mask n else mask % 2 ^ n
  let conv (x : Nat × Nat) : Nat × Flags :=
    (fmtOf ctl.dst.toNat).conv (fmtSatf c.fmt) (rselMode c.fmt ctl.rsel (cvtKey c a x.2)) ((fmtOf ctl.src.toNat).dec x.1)
  s.landVec h 3 ed n en d ((s.opndRaw es n 0 a).zipIdx.map conv)
/-- The effect of vmxq (08 R185). -/
def mxqEff (h : VHdr) (d : OReg) (a : Opnd) (ctl : CvtCtl) (s : State) : State :=
  let c := s.cc
  let es := fmtBits ctl.src.toNat
  let n := h.width.bits / es
  let xs := (s.opndRaw es n 0 a).zipIdx.map fun (x : Nat × Nat) =>
    ((fpOf ctl.src.toNat).dec x.1, rselMode c.fmt ctl.rsel (cvtKey c a x.2))
  let blocks := (List.range (n / 32)).map fun b => mxQuantise (fpOf ctl.dst.toNat) ((xs.drop (32 * b)).take 32)
  let fl := blocks.foldl (fun f b => f ||| b.2.2) 0
  let ed := fmtBits ctl.dst.toNat
  let s := s.land h.slot 3 {
    dest := .oreg d.val, esz := ed, n := n, en := 2 ^ n - 1,
    value := BitVec.ofNat 1024 (packElems ed (blocks.flatMap (·.2.1))), lat := some h.v1, flags := fl }
  s.land h.slot 3 {
    dest := .oreg (d.val + 1), esz := 8, n := n / 32, en := 2 ^ (n / 32) - 1,
    value := BitVec.ofNat 1024 (packElems 8 (blocks.map (·.1))) }
/-- The effect of vmxdq (08 R186). -/
def mxdqEff (h : VHdr) (d : Opnd) (a : OReg) (ctl : CvtCtl) (s : State) : State :=
  let c := s.cc
  let ed := fmtBits ctl.dst.toNat
  let n := h.width.bits / ed
  let q := elems (fmtBits ctl.src.toNat) n (c.or a.val).toNat
  let sc := elems 8 (n / 32) (c.or (a.val + 1)).toNat
  s.landVec h 3 ed n (s.en h n) d (q.zipIdx.map fun (x : Nat × Nat) =>
    (fpOf ctl.dst.toNat).conv (fmtSatf c.fmt) (rselMode c.fmt ctl.rsel 0)
      (mxVal (fpOf ctl.src.toNat) (pick sc (x.2 / 32)) x.1))

/-- VADD: R169 on floating point, modulo 2^e on integers (08 R169, R170). -/
def vaddOp (h : VHdr) (ty : VType) (d : Opnd) (a : Opnd) (b : Opnd) : SlotOp :=
  vOp2 h (ty.lat 4 2) ty d a b fun fmt x y => if ty.isFp then fpAdd fmt ty x y else intAdd ty x y
def execVadd (h : VHdr) (ty : VType) (d : Opnd) (a : Opnd) (b : Opnd) (s : State) : Host.Outcome State Fault Refusal :=
  runOp (vaddOp h ty d a b) s

/-- VSUB: R169 on floating point, modulo 2^e on integers (08 R169, R170). -/
def vsubOp (h : VHdr) (ty : VType) (d : Opnd) (a : Opnd) (b : Opnd) : SlotOp :=
  vOp2 h (ty.lat 4 2) ty d a b fun fmt x y => if ty.isFp then fpSub fmt ty x y else intSub ty x y
def execVsub (h : VHdr) (ty : VType) (d : Opnd) (a : Opnd) (b : Opnd) (s : State) : Host.Outcome State Fault Refusal :=
  runOp (vsubOp h ty d a b) s

/-- VMUL: R169 on floating point, modulo 2^e on integers (08 R169, R170). -/
def vmulOp (h : VHdr) (ty : VType) (d : Opnd) (a : Opnd) (b : Opnd) : SlotOp :=
  vOp2 h 5 ty d a b fun fmt x y => if ty.isFp then fpMul fmt ty x y else intMul ty x y
def execVmul (h : VHdr) (ty : VType) (d : Opnd) (a : Opnd) (b : Opnd) (s : State) : Host.Outcome State Fault Refusal :=
  runOp (vmulOp h ty d a b) s

/-- VFMA: a × b + d with one rounding (08 R169). -/
def vfmaOp (h : VHdr) (ty : VType) (d : Opnd) (a : Opnd) (b : Opnd) : SlotOp :=
  vecOp h ty.bits [d] [a, b, d] fun s =>
    let n := h.n ty.bits
    let ab := List.zip (s.opnd ty n a) (s.opnd ty n b)
    s.landVec h 5 ty.bits n (s.en h n) d (List.zipWith (fun x z => fpFma s.cc.fmt ty x.1 x.2 z) ab (s.opnd ty n d))
def execVfma (h : VHdr) (ty : VType) (d : Opnd) (a : Opnd) (b : Opnd) (s : State) : Host.Outcome State Fault Refusal :=
  runOp (vfmaOp h ty d a b) s

/-- VADDS: a saturating sum (08 R170). -/
def vaddsOp (h : VHdr) (ty : VType) (d : Opnd) (a : Opnd) (b : Opnd) : SlotOp := vOp2 h 2 ty d a b fun _ x y => intClamp ty (ty.int x + ty.int y)
def execVadds (h : VHdr) (ty : VType) (d : Opnd) (a : Opnd) (b : Opnd) (s : State) : Host.Outcome State Fault Refusal :=
  runOp (vaddsOp h ty d a b) s

/-- VSUBS: a saturating difference (08 R170). -/
def vsubsOp (h : VHdr) (ty : VType) (d : Opnd) (a : Opnd) (b : Opnd) : SlotOp := vOp2 h 2 ty d a b fun _ x y => intClamp ty (ty.int x - ty.int y)
def execVsubs (h : VHdr) (ty : VType) (d : Opnd) (a : Opnd) (b : Opnd) (s : State) : Host.Outcome State Fault Refusal :=
  runOp (vsubsOp h ty d a b) s

/-- VMIN: the smaller (08 R171). -/
def vminOp (h : VHdr) (ty : VType) (d : Opnd) (a : Opnd) (b : Opnd) : SlotOp := vOp2 h (ty.lat 4 2) ty d a b fun _ => minMax false ty
def execVmin (h : VHdr) (ty : VType) (d : Opnd) (a : Opnd) (b : Opnd) (s : State) : Host.Outcome State Fault Refusal :=
  runOp (vminOp h ty d a b) s

/-- VMAX: the larger (08 R171). -/
def vmaxOp (h : VHdr) (ty : VType) (d : Opnd) (a : Opnd) (b : Opnd) : SlotOp := vOp2 h (ty.lat 4 2) ty d a b fun _ => minMax true ty
def execVmax (h : VHdr) (ty : VType) (d : Opnd) (a : Opnd) (b : Opnd) (s : State) : Host.Outcome State Fault Refusal :=
  runOp (vmaxOp h ty d a b) s

/-- VABS: the magnitude (08 R170, R171). -/
def vabsOp (h : VHdr) (ty : VType) (d : Opnd) (a : Opnd) : SlotOp := vOp1 h 2 ty d a (elAbs ty)
def execVabs (h : VHdr) (ty : VType) (d : Opnd) (a : Opnd) (s : State) : Host.Outcome State Fault Refusal :=
  runOp (vabsOp h ty d a) s

/-- VCMPEQ: a = b (08 R172). -/
def vcmpeqOp (h : VHdr) (ty : VType) (d : KReg) (a : Opnd) (b : Opnd) : SlotOp := vOpC h ty d a b (· == some .eq)
def execVcmpeq (h : VHdr) (ty : VType) (d : KReg) (a : Opnd) (b : Opnd) (s : State) : Host.Outcome State Fault Refusal :=
  runOp (vcmpeqOp h ty d a b) s

/-- VCMPLT: a < b (08 R172). -/
def vcmpltOp (h : VHdr) (ty : VType) (d : KReg) (a : Opnd) (b : Opnd) : SlotOp := vOpC h ty d a b (· == some .lt)
def execVcmplt (h : VHdr) (ty : VType) (d : KReg) (a : Opnd) (b : Opnd) (s : State) : Host.Outcome State Fault Refusal :=
  runOp (vcmpltOp h ty d a b) s

/-- VCMPLE: a ≤ b (08 R172). -/
def vcmpleOp (h : VHdr) (ty : VType) (d : KReg) (a : Opnd) (b : Opnd) : SlotOp := vOpC h ty d a b fun o => o == some .lt || o == some .eq
def execVcmple (h : VHdr) (ty : VType) (d : KReg) (a : Opnd) (b : Opnd) (s : State) : Host.Outcome State Fault Refusal :=
  runOp (vcmpleOp h ty d a b) s

/-- KAND: mask logic on all 128 bits (08 R174). -/
def kandOp (v1 : Bool) (d : KReg) (a : KReg) (b : KReg) : SlotOp := kOp v1 d a b fun x y => x &&& y
def execKand (v1 : Bool) (d : KReg) (a : KReg) (b : KReg) (s : State) : Host.Outcome State Fault Refusal :=
  runOp (kandOp v1 d a b) s

/-- KOR: mask logic on all 128 bits (08 R174). -/
def korOp (v1 : Bool) (d : KReg) (a : KReg) (b : KReg) : SlotOp := kOp v1 d a b fun x y => x ||| y
def execKor (v1 : Bool) (d : KReg) (a : KReg) (b : KReg) (s : State) : Host.Outcome State Fault Refusal :=
  runOp (korOp v1 d a b) s

/-- KXOR: mask logic on all 128 bits (08 R174). -/
def kxorOp (v1 : Bool) (d : KReg) (a : KReg) (b : KReg) : SlotOp := kOp v1 d a b fun x y => x ^^^ y
def execKxor (v1 : Bool) (d : KReg) (a : KReg) (b : KReg) (s : State) : Host.Outcome State Fault Refusal :=
  runOp (kxorOp v1 d a b) s

/-- KANDN: mask logic on all 128 bits (08 R174). -/
def kandnOp (v1 : Bool) (d : KReg) (a : KReg) (b : KReg) : SlotOp := kOp v1 d a b fun x y => x &&& ~~~y
def execKandn (v1 : Bool) (d : KReg) (a : KReg) (b : KReg) (s : State) : Host.Outcome State Fault Refusal :=
  runOp (kandnOp v1 d a b) s

/-- VSHL: Table 8.4 (08 R175). -/
def vshlOp (h : VHdr) (ty : VType) (d : Opnd) (a : Opnd) (b : Opnd) : SlotOp := vOp2 h 2 ty d a b fun _ x y => (elShl ty.bits x y, 0)
def execVshl (h : VHdr) (ty : VType) (d : Opnd) (a : Opnd) (b : Opnd) (s : State) : Host.Outcome State Fault Refusal :=
  runOp (vshlOp h ty d a b) s

/-- VSHR: Table 8.4 (08 R175). -/
def vshrOp (h : VHdr) (ty : VType) (d : Opnd) (a : Opnd) (b : Opnd) : SlotOp := vOp2 h 2 ty d a b fun _ x y => (elShr ty.bits x y, 0)
def execVshr (h : VHdr) (ty : VType) (d : Opnd) (a : Opnd) (b : Opnd) (s : State) : Host.Outcome State Fault Refusal :=
  runOp (vshrOp h ty d a b) s

/-- VSAR: Table 8.4 (08 R175). -/
def vsarOp (h : VHdr) (ty : VType) (d : Opnd) (a : Opnd) (b : Opnd) : SlotOp := vOp2 h 2 ty d a b fun _ x y => (elSar ty.bits x y, 0)
def execVsar (h : VHdr) (ty : VType) (d : Opnd) (a : Opnd) (b : Opnd) (s : State) : Host.Outcome State Fault Refusal :=
  runOp (vsarOp h ty d a b) s

/-- VAND: Table 8.4 (08 R175). -/
def vandOp (h : VHdr) (ty : VType) (d : Opnd) (a : Opnd) (b : Opnd) : SlotOp := vOp2 h 2 ty d a b fun _ x y => (x &&& y, 0)
def execVand (h : VHdr) (ty : VType) (d : Opnd) (a : Opnd) (b : Opnd) (s : State) : Host.Outcome State Fault Refusal :=
  runOp (vandOp h ty d a b) s

/-- VOR: Table 8.4 (08 R175). -/
def vorOp (h : VHdr) (ty : VType) (d : Opnd) (a : Opnd) (b : Opnd) : SlotOp := vOp2 h 2 ty d a b fun _ x y => (x ||| y, 0)
def execVor (h : VHdr) (ty : VType) (d : Opnd) (a : Opnd) (b : Opnd) (s : State) : Host.Outcome State Fault Refusal :=
  runOp (vorOp h ty d a b) s

/-- VXOR: Table 8.4 (08 R175). -/
def vxorOp (h : VHdr) (ty : VType) (d : Opnd) (a : Opnd) (b : Opnd) : SlotOp := vOp2 h 2 ty d a b fun _ x y => (x ^^^ y, 0)
def execVxor (h : VHdr) (ty : VType) (d : Opnd) (a : Opnd) (b : Opnd) (s : State) : Host.Outcome State Fault Refusal :=
  runOp (vxorOp h ty d a b) s

/-- VMOV: a move (08 R175). -/
def vmovOp (h : VHdr) (ty : VType) (d : Opnd) (a : Opnd) : SlotOp := vOp1 h 2 ty d a fun x => (x, 0)
def execVmov (h : VHdr) (ty : VType) (d : Opnd) (a : Opnd) (s : State) : Host.Outcome State Fault Refusal :=
  runOp (vmovOp h ty d a) s

/-- VBFLY: r[i] ← A[i xor m] (08 R176). -/
def vbflyOp (h : VHdr) (ty : VType) (d : Opnd) (a : Opnd) (m : BitVec 15) : SlotOp := vOpX h ty d a fun _ i => i ^^^ m.toNat
def execVbfly (h : VHdr) (ty : VType) (d : Opnd) (a : Opnd) (m : BitVec 15) (s : State) : Host.Outcome State Fault Refusal :=
  runOp (vbflyOp h ty d a m) s

/-- VROT: r[i] ← A[(i + m) mod n] (08 R176). -/
def vrotOp (h : VHdr) (ty : VType) (d : Opnd) (a : Opnd) (m : BitVec 15) : SlotOp := vOpX h ty d a fun n i => (i + m.toNat) % n
def execVrot (h : VHdr) (ty : VType) (d : Opnd) (a : Opnd) (m : BitVec 15) (s : State) : Host.Outcome State Fault Refusal :=
  runOp (vrotOp h ty d a m) s

/-- VBCAST: r[i] ← A[m] (08 R176). -/
def vbcastOp (h : VHdr) (ty : VType) (d : Opnd) (a : Opnd) (m : BitVec 15) : SlotOp := vOpX h ty d a fun _ _ => m.toNat
def execVbcast (h : VHdr) (ty : VType) (d : Opnd) (a : Opnd) (m : BitVec 15) (s : State) : Host.Outcome State Fault Refusal :=
  runOp (vbcastOp h ty d a m) s

/-- VPERM: r[i] ← A[B[i] mod n] (08 R176). -/
def vpermOp (h : VHdr) (d : Opnd) (a : Opnd) (b : Opnd) : SlotOp :=
  vecOp h 8 [d] [a, b] fun s =>
    let n := h.n 8
    let xs := s.opndRaw 8 n 0 a
    let ix := s.opndRaw 8 n 0 b
    s.landVec h 3 8 n (s.en h n) d ((List.range n).map fun i => (pick xs (pick ix i % n), 0))
def execVperm (h : VHdr) (d : Opnd) (a : Opnd) (b : Opnd) (s : State) : Host.Outcome State Fault Refusal :=
  runOp (vpermOp h d a b) s

/-- VREDSUM: the tree sum, broadcast (08 R178, R179). -/
def vredsumOp (h : VHdr) (ty : VType) (d : Opnd) (a : Opnd) : SlotOp := vecOp h ty.bits [d] [a] (redSum h ty d a)
def execVredsum (h : VHdr) (ty : VType) (d : Opnd) (a : Opnd) (s : State) : Host.Outcome State Fault Refusal :=
  runOp (vredsumOp h ty d a) s

/-- VREDMAX: the tree maximum, broadcast (08 R178, R179). -/
def vredmaxOp (h : VHdr) (ty : VType) (d : Opnd) (a : Opnd) : SlotOp := vOpM h ty d a true
def execVredmax (h : VHdr) (ty : VType) (d : Opnd) (a : Opnd) (s : State) : Host.Outcome State Fault Refusal :=
  runOp (vredmaxOp h ty d a) s

/-- VREDMIN: the tree minimum, broadcast (08 R178, R179). -/
def vredminOp (h : VHdr) (ty : VType) (d : Opnd) (a : Opnd) : SlotOp := vOpM h ty d a false
def execVredmin (h : VHdr) (ty : VType) (d : Opnd) (a : Opnd) (s : State) : Host.Outcome State Fault Refusal :=
  runOp (vredminOp h ty d a) s

/-- VREDMASK: the masked rescaling reduction (08 R180, R181). -/
def vredmaskOp (h : VHdr) (d : Opnd) (a : Opnd) (b : Opnd) : SlotOp :=
  { vecOp h 32 [d, a] [b] (fun s =>
      let n := h.n 32
      let (v, t) := rmCtl s h b
      let (p, x) := rowForm a
      let k := s.core (coreOf s.cur)
      let rows := (rmVal v t).map fun c => elems 32 n (k.row (s.cc.panebase + p) (x + c)).toNat
      s.landVec h 6 32 n (s.en h n) d ((List.range n).map fun i => rmElem (rows.map fun r => pick r i) t)) with
    trap := fun s =>
      let (v, t) := rmCtl s h b
      let (p, x) := rowForm a
      if t = 0 ∨ 64 < x + t then some ⟨cRANGE, h.slot, 0⟩
      else if (rmVal v t).any fun c => s.cc.marks.contains (.row (s.cc.panebase + p) (x + c)) then some ⟨cPOISON, h.slot, 0⟩
      else none }
def execVredmask (h : VHdr) (d : Opnd) (a : Opnd) (b : Opnd) (s : State) : Host.Outcome State Fault Refusal :=
  runOp (vredmaskOp h d a b) s

/-- VCVT: a conversion (08 R182, R183). -/
def vcvtOp (h : VHdr) (d : Opnd) (a : Opnd) (c : CvtCtl) : SlotOp :=
  { slot := h.slot, panes := opndPane d ++ opndPane a, srcs := cvtSrcs h c a (cvtN h c), eff := cvtEff h d a c }
def execVcvt (h : VHdr) (d : Opnd) (a : Opnd) (c : CvtCtl) (s : State) : Host.Outcome State Fault Refusal :=
  runOp (vcvtOp h d a c) s

/-- VMXQ: quantises MX blocks (08 R185). -/
def vmxqOp (h : VHdr) (d : OReg) (a : Opnd) (c : CvtCtl) : SlotOp :=
  { slot := h.slot, panes := opndPane a, groups := d.val % 2 == 0,
    srcs := cvtSrcs h c a (h.width.bits / fmtBits c.src.toNat), eff := mxqEff h d a c }
def execVmxq (h : VHdr) (d : OReg) (a : Opnd) (c : CvtCtl) (s : State) : Host.Outcome State Fault Refusal :=
  runOp (vmxqOp h d a c) s

/-- VMXDQ: dequantises MX blocks (08 R186). -/
def vmxdqOp (h : VHdr) (d : Opnd) (a : OReg) (c : CvtCtl) : SlotOp :=
  { slot := h.slot, panes := opndPane d, groups := a.val % 2 == 0,
    srcs := fun _ => [.k h.mask, .o a, .o (Fin.ofNat 16 (a.val + 1))], eff := mxdqEff h d a c }
def execVmxdq (h : VHdr) (d : Opnd) (a : OReg) (c : CvtCtl) (s : State) : Host.Outcome State Fault Refusal :=
  runOp (vmxdqOp h d a c) s

/-- VRAND: keyed random words (08 R187). -/
def vrandOp (h : VHdr) (d : Opnd) (a : Opnd) (b : Opnd) : SlotOp :=
  let o := vecOp h 32 [d] [a, b] fun s =>
    let n := h.n 32
    let im : Nat := match b with | .imm v => v.toNat | _ => 0
    let f (x y : Nat) : Nat × Flags := ((keyMix s.cc.key (BitVec.ofNat 64 (y * 2 ^ 32 + x))).toNat / 2 ^ 32, 0)
    s.landVec h 3 32 n (s.en h n) d (List.zipWith f (s.opndRaw 32 n 0 a) (s.opndRaw 32 n im b))
  { o with srcs := fun c => .csr 1 :: o.srcs c }
def execVrand (h : VHdr) (d : Opnd) (a : Opnd) (b : Opnd) (s : State) : Host.Outcome State Fault Refusal :=
  runOp (vrandOp h d a b) s

/-- PANE_PARK: parks a pane under a tag (08 R189, R191). -/
def paneParkOp (v1 : Bool) (pane : PaneNo) (tag : Fin 32) : SlotOp :=
  { slot := if v1 then 1 else 0, panes := [pane],
    srcs := fun c => (List.range 64).map fun r => .row (c.panebase + pane.val) r,
    trap := fun s => if thas s.cc.tags tag.val then some ⟨cRANGE, if v1 then 1 else 0, 0⟩ else none,
    wait := fun s => s.parkWaits, note := State.parkJoin, eff := fun s => s.park (s.cc.panebase + pane.val) tag.val }
def execPanePark (v1 : Bool) (pane : PaneNo) (tag : Fin 32) (s : State) : Host.Outcome State Fault Refusal :=
  runOp (paneParkOp v1 pane tag) s

/-- PANE_UNPARK: unparks a tag into a pane (08 R190, R191). -/
def paneUnparkOp (v1 : Bool) (pane : PaneNo) (tag : Fin 32) : SlotOp :=
  { slot := if v1 then 1 else 0, panes := [pane],
    trap := fun s => s.unparkTrap (if v1 then 1 else 0) tag.val,
    eff := fun s => s.unpark (if v1 then 1 else 0) (s.cc.panebase + pane.val) tag.val }
def execPaneUnpark (v1 : Bool) (pane : PaneNo) (tag : Fin 32) (s : State) : Host.Outcome State Fault Refusal :=
  runOp (paneUnparkOp v1 pane tag) s

end Sys2Proof.Machine
end

