-- ==== Sys2Proof/Machine/Special.lean ====
section
/-! DEFINITION. The special functions of revision 1 (09 R192 to R199), correctly rounded. -/

namespace Sys2Proof.Machine

/-- One special function, element by element, latency 8 (09 R195, R196). -/
def sfuOp (fn : SfuFn) (h : VHdr) (ty : VType) (d a : Opnd) : SlotOp :=
  vOp1 h 8 ty d a fun x => sfu1 fn ty.fp (ty.fp.dec x)

/-- VEXP2: exp2 (09 R196). -/
def vexp2Op (h : VHdr) (ty : VType) (d : Opnd) (a : Opnd) : SlotOp := sfuOp .exp2 h ty d a
def execVexp2 (h : VHdr) (ty : VType) (d : Opnd) (a : Opnd) (s : State) : Host.Outcome State Fault Refusal :=
  runOp (vexp2Op h ty d a) s

/-- VLOG2: log2 (09 R196). -/
def vlog2Op (h : VHdr) (ty : VType) (d : Opnd) (a : Opnd) : SlotOp := sfuOp .log2 h ty d a
def execVlog2 (h : VHdr) (ty : VType) (d : Opnd) (a : Opnd) (s : State) : Host.Outcome State Fault Refusal :=
  runOp (vlog2Op h ty d a) s

/-- VRCP: rcp (09 R196). -/
def vrcpOp (h : VHdr) (ty : VType) (d : Opnd) (a : Opnd) : SlotOp := sfuOp .rcp h ty d a
def execVrcp (h : VHdr) (ty : VType) (d : Opnd) (a : Opnd) (s : State) : Host.Outcome State Fault Refusal :=
  runOp (vrcpOp h ty d a) s

/-- VRSQRT: rsqrt (09 R196). -/
def vrsqrtOp (h : VHdr) (ty : VType) (d : Opnd) (a : Opnd) : SlotOp := sfuOp .rsqrt h ty d a
def execVrsqrt (h : VHdr) (ty : VType) (d : Opnd) (a : Opnd) (s : State) : Host.Outcome State Fault Refusal :=
  runOp (vrsqrtOp h ty d a) s

/-- VSQRT: sqrt (09 R196). -/
def vsqrtOp (h : VHdr) (ty : VType) (d : Opnd) (a : Opnd) : SlotOp := sfuOp .sqrt h ty d a
def execVsqrt (h : VHdr) (ty : VType) (d : Opnd) (a : Opnd) (s : State) : Host.Outcome State Fault Refusal :=
  runOp (vsqrtOp h ty d a) s

/-- VTANH: tanh (09 R196). -/
def vtanhOp (h : VHdr) (ty : VType) (d : Opnd) (a : Opnd) : SlotOp := sfuOp .tanh h ty d a
def execVtanh (h : VHdr) (ty : VType) (d : Opnd) (a : Opnd) (s : State) : Host.Outcome State Fault Refusal :=
  runOp (vtanhOp h ty d a) s

/-- VSIGMOID: sigmoid (09 R196). -/
def vsigmoidOp (h : VHdr) (ty : VType) (d : Opnd) (a : Opnd) : SlotOp := sfuOp .sigmoid h ty d a
def execVsigmoid (h : VHdr) (ty : VType) (d : Opnd) (a : Opnd) (s : State) : Host.Outcome State Fault Refusal :=
  runOp (vsigmoidOp h ty d a) s

/-- VSIN2PI: sin2pi (09 R196). -/
def vsin2piOp (h : VHdr) (ty : VType) (d : Opnd) (a : Opnd) : SlotOp := sfuOp .sin2pi h ty d a
def execVsin2pi (h : VHdr) (ty : VType) (d : Opnd) (a : Opnd) (s : State) : Host.Outcome State Fault Refusal :=
  runOp (vsin2piOp h ty d a) s

/-- VCOS2PI: cos2pi (09 R196). -/
def vcos2piOp (h : VHdr) (ty : VType) (d : Opnd) (a : Opnd) : SlotOp := sfuOp .cos2pi h ty d a
def execVcos2pi (h : VHdr) (ty : VType) (d : Opnd) (a : Opnd) (s : State) : Host.Outcome State Fault Refusal :=
  runOp (vcos2piOp h ty d a) s

end Sys2Proof.Machine
end

