-- ==== Sys2Proof/Machine/Issue.lean ====
section
/-! DEFINITION. Fetch (02 R27 to R33), the fate of a context's next bundle (02 R40 to R44), opening and closing a bundle,
and the choice of contexts (02 R45, R46). -/

namespace Sys2Proof.Machine

/-- The issue view of every slot instruction; machine events stand in no slot. -/
def slotOp : Instr → SlotOp
  | .vadd h ty d a b => vaddOp h ty d a b
  | .vsub h ty d a b => vsubOp h ty d a b
  | .vmul h ty d a b => vmulOp h ty d a b
  | .vfma h ty d a b => vfmaOp h ty d a b
  | .vadds h ty d a b => vaddsOp h ty d a b
  | .vsubs h ty d a b => vsubsOp h ty d a b
  | .vmin h ty d a b => vminOp h ty d a b
  | .vmax h ty d a b => vmaxOp h ty d a b
  | .vabs h ty d a => vabsOp h ty d a
  | .vcmpeq h ty d a b => vcmpeqOp h ty d a b
  | .vcmplt h ty d a b => vcmpltOp h ty d a b
  | .vcmple h ty d a b => vcmpleOp h ty d a b
  | .kand v1 d a b => kandOp v1 d a b
  | .kor v1 d a b => korOp v1 d a b
  | .kxor v1 d a b => kxorOp v1 d a b
  | .kandn v1 d a b => kandnOp v1 d a b
  | .vshl h ty d a b => vshlOp h ty d a b
  | .vshr h ty d a b => vshrOp h ty d a b
  | .vsar h ty d a b => vsarOp h ty d a b
  | .vand h ty d a b => vandOp h ty d a b
  | .vor h ty d a b => vorOp h ty d a b
  | .vxor h ty d a b => vxorOp h ty d a b
  | .vmov h ty d a => vmovOp h ty d a
  | .vbfly h ty d a m => vbflyOp h ty d a m
  | .vrot h ty d a m => vrotOp h ty d a m
  | .vbcast h ty d a m => vbcastOp h ty d a m
  | .vperm h d a b => vpermOp h d a b
  | .vredsum h ty d a => vredsumOp h ty d a
  | .vredmax h ty d a => vredmaxOp h ty d a
  | .vredmin h ty d a => vredminOp h ty d a
  | .vredmask h d a b => vredmaskOp h d a b
  | .vcvt h d a c => vcvtOp h d a c
  | .vmxq h d a c => vmxqOp h d a c
  | .vmxdq h d a c => vmxdqOp h d a c
  | .vrand h d a b => vrandOp h d a b
  | .panePark v1 pane tag => paneParkOp v1 pane tag
  | .paneUnpark v1 pane tag => paneUnparkOp v1 pane tag
  | .vexp2 h ty d a => vexp2Op h ty d a
  | .vlog2 h ty d a => vlog2Op h ty d a
  | .vrcp h ty d a => vrcpOp h ty d a
  | .vrsqrt h ty d a => vrsqrtOp h ty d a
  | .vsqrt h ty d a => vsqrtOp h ty d a
  | .vtanh h ty d a => vtanhOp h ty d a
  | .vsigmoid h ty d a => vsigmoidOp h ty d a
  | .vsin2pi h ty d a => vsin2piOp h ty d a
  | .vcos2pi h ty d a => vcos2piOp h ty d a
  | .add p d a b => addOp p d a b
  | .sub p d a b => subOp p d a b
  | .and p d a b => andOp p d a b
  | .or p d a b => orOp p d a b
  | .xor p d a b => xorOp p d a b
  | .andn p d a b => andnOp p d a b
  | .shl p d a b => shlOp p d a b
  | .shr p d a b => shrOp p d a b
  | .sar p d a b => sarOp p d a b
  | .min p d a b => minOp p d a b
  | .max p d a b => maxOp p d a b
  | .lea p d a b sh => leaOp p d a b sh
  | .sel p d a b q => selOp p d a b q
  | .mul p d a b => mulOp p d a b
  | .mulh p d a b => mulhOp p d a b
  | .clz p d a => clzOp p d a
  | .popc p d a => popcOp p d a
  | .addi p d a imm => addiOp p d a imm
  | .andi p d a imm => andiOp p d a imm
  | .ori p d a imm => oriOp p d a imm
  | .xori p d a imm => xoriOp p d a imm
  | .shli p d a n => shliOp p d a n
  | .shri p d a n => shriOp p d a n
  | .sari p d a n => sariOp p d a n
  | .li p d imm => liOp p d imm
  | .lcat p d a imm => lcatOp p d a imm
  | .cmp p c d a b => cmpOp p c d a b
  | .cmpiEq p d a imm => cmpiEqOp p d a imm
  | .cmpiNe p d a imm => cmpiNeOp p d a imm
  | .cmpiLt p d a imm => cmpiLtOp p d a imm
  | .cmpiGe p d a imm => cmpiGeOp p d a imm
  | .cmpiLtu p d a imm => cmpiLtuOp p d a imm
  | .cmpiGeu p d a imm => cmpiGeuOp p d a imm
  | .pand p d a b => pandOp p d a b
  | .por p d a b => porOp p d a b
  | .pxor p d a b => pxorOp p d a b
  | .bfx p d a pos len1 => bfxOp p d a pos len1
  | .bfxu p d a pos len1 => bfxuOp p d a pos len1
  | .bfi p d a b pos len1 => bfiOp p d a b pos len1
  | .kput p d a => kputOp p d a
  | .kget p d a => kgetOp p d a
  | .oget p e d a b => ogetOp p e d a b
  | .oput p e d a b => oputOp p e d a b
  | .br p off => brOp p off
  | .call p d off => callOp p d off
  | .jmp p a => jmpOp p a
  | .callr p d a => callrOp p d a
  | .loop p a off => loopOp p a off
  | .loopi p n off => loopiOp p n off
  | .waitc p t0 t1 t2 t3 => waitcOp p t0 t1 t2 t3
  | .csrr p n d => csrrOp p n d
  | .csrw p n a => csrwOp p n a
  | .csrs p n a d => csrsOp p n a d
  | .csrc p n a d => csrcOp p n a d
  | .bar p sc => barOp p sc
  | .brk p imm => brkOp p imm
  | .wheelEnd p => wheelEndOp p
  | .wheelSpawn p a => wheelSpawnOp p a
  | .wheelSpawnCore p a => wheelSpawnCoreOp p a
  | .semSig p a n => semSigOp p a n
  | .semWait p a n => semWaitOp p a n
  | .semTest p d a => semTestOp p d a
  | .tret p => tretOp p
  | .xlatInvRange p i => xlatInvRangeOp p i
  | .xlatInvPage p a => xlatInvPageOp p a
  | .xlatInvVat p => xlatInvVatOp p
  | .ssave p a => ssaveOp p a
  | .srest p a => srestOp p a
  | .ldb p d a off => ldbOp p d a off
  | .ldbu p d a off => ldbuOp p d a off
  | .ldh p d a off => ldhOp p d a off
  | .ldhu p d a off => ldhuOp p d a off
  | .ldw p d a off => ldwOp p d a off
  | .ldwu p d a off => ldwuOp p d a off
  | .ldd p w8 d a off => lddOp p w8 d a off
  | .stb p d a off => stbOp p d a off
  | .sth p d a off => sthOp p d a off
  | .stw p d a off => stwOp p d a off
  | .std p w8 d a off => stdOp p w8 d a off
  | .ldv p w at_ d a off => ldvOp p w at_ d a off
  | .stv p w at_ d a off => stvOp p w at_ d a off
  | .ldp p w at_ pane row a off => ldpOp p w at_ pane row a off
  | .stp p w at_ pane row a off => stpOp p w at_ pane row a off
  | .ldmx p el8 w d a off => ldmxOp p el8 w d a off
  | .stmx p el8 w d a off => stmxOp p el8 w d a off
  | .pref p a off => prefOp p a off
  | .clInv p a off => clInvOp p a off
  | .clZero p a off => clZeroOp p a off
  | .mark => markOp
  | .fence p sc o => fenceOp p sc o
  | .amoAdd p sc o w8 d a b => amoAddOp p sc o w8 d a b
  | .amoSwap p sc o w8 d a b => amoSwapOp p sc o w8 d a b
  | .amoCas p sc o failAcq w8 d a b => amoCasOp p sc o failAcq w8 d a b
  | .amoAnd p sc o w8 d a b => amoAndOp p sc o w8 d a b
  | .amoOr p sc o w8 d a b => amoOrOp p sc o w8 d a b
  | .amoXor p sc o w8 d a b => amoXorOp p sc o w8 d a b
  | .amoMax p sc o w8 d a b => amoMaxOp p sc o w8 d a b
  | .amoMin p sc o w8 d a b => amoMinOp p sc o w8 d a b
  | .fld p w8 d a off => fldOp p w8 d a off
  | .fst p w8 d a off => fstOp p w8 d a off
  | .ffenceFlag p w8 d a off => ffenceFlagOp p w8 d a off
  | .famoAdd p o w8 d a b => famoAddOp p o w8 d a b
  | .famoSwap p o w8 d a b => famoSwapOp p o w8 d a b
  | .famoCas p o failAcq w8 d a b => famoCasOp p o failAcq w8 d a b
  | .famoAnd p o w8 d a b => famoAndOp p o w8 d a b
  | .famoOr p o w8 d a b => famoOrOp p o w8 d a b
  | .pressLease p => pressLeaseOp p
  | .pressFree p => pressFreeOp p
  | .pressClaim p bank => pressClaimOp p bank
  | .pressRelease p bank => pressReleaseOp p bank
  | .pressStatNorth p c b snap => pressStatNorthOp p c b snap
  | .pressStatWest p c b snap => pressStatWestOp p c b snap
  | .pressRun p c b bank sparse snap => pressRunOp p c b bank sparse snap
  | .pressDrain p c b bank acc => pressDrainOp p c b bank acc
  | .pressZero p c bank => pressZeroOp p c bank
  | .copy p c snap => copyOp p c snap
  | .copyHoop p c hoop snap => copyHoopOp p c hoop snap
  | .copyBb p c bb snap => copyBbOp p c bb snap
  | .coll p c => collOp p c
  | .caveUpd p c b => caveUpdOp p c b
  | .embWait p d a => embWaitOp p d a
  | .embWaitTrap p d a => embWaitTrapOp p d a
  | .embTest p d a => embTestOp p d a
  | .embCancel p d a => embCancelOp p d a
  | .embDetach p d a => embDetachOp p d a
  | .embAdopt p d name => embAdoptOp p d name
  | .embPrio p d a n => embPrioOp p d a n
  | .embInfo p d a => embInfoOp p d a
  | .embAfter p d a => embAfterOp p d a
  | .hoopInit p hoop a b => hoopInitOp p hoop a b
  | .hoopAwait p d hoop => hoopAwaitOp p d hoop
  | .hoopRel p hoop => hoopRelOp p hoop
  | .hoopQuery p d hoop => hoopQueryOp p d hoop
  | .bbExpect p d bb a => bbExpectOp p d bb a
  | .bbArrive p bb a => bbArriveOp p bb a
  | .bbWait p bb a => bbWaitOp p bb a
  | .bbQuery p d bb => bbQueryOp p d bb
  | .moldGet p d a => moldGetOp p d a
  | .moldPass p a => moldPassOp p a
  | .moldFree p a => moldFreeOp p a
  | _ => {}

/- Fetch -/

/-- What a fetch gives. -/
inductive Fetch where
  | trap (t : Trap)
  | wait
  | ok (bundle len : Nat)
  deriving DecidableEq, Repr, Inhabited

/-- The translation of a code word, with the fates of 02 R30: slot 7 records a fetch trap (17 R356). -/
inductive CodeAcc where
  | trap (code tval : Nat)
  | wait
  | ok (loc : Nat)
  deriving DecidableEq, Repr, Inhabited

/-- The location of what is fetched at an address: the two bytes of a code word, which needs execute, or one byte of the literal map. -/
def State.codeAcc (s : State) (cx va : Nat) (exec : Bool) : CodeAcc :=
  match regionOf va with
  | none => .trap cMISS va
  | some (.glob, _) =>
    if (tlbFind (s.core (coreOf cx)).tlb (s.ctx cx).vatKey va).isNone && s.walkHeld (s.ctx cx).vatKey va then .wait
    else match s.xlat (s.core (coreOf cx)).tlb (s.ctx cx).vatKey va with
    | (none, _) => .trap cMISS va
    | (some t, cached) =>
      if !t.resident then .trap cMISS va
      else if exec && !t.x then .trap cPERM va
      else if exec && (s.xlat (s.core (coreOf cx)).tlb (s.ctx cx).vatKey (va + 1)).1.isNone then .trap cMISS va
      else if !cached || s.hbmBusy (t.loc + va % 4096) then .wait
      else .ok (t.loc + va % 4096)
  | some _ => .trap (if exec then cPERM else cMISS) va

/-- Whether an address holds a code word of the segment (02 R30). -/
def inSegment (d : Desc) (va : Nat) : Bool := decide (d.code ≤ va) && decide (va + 2 ≤ d.code + d.codeLen)

/-- Whether a bundle starts within 64 bytes after a byte that a store has written: it may see old code words (02 R30). -/
def Vat.codeOpen (v : Vat) (start : Nat) : Bool := v.codeOld.any fun x => decide (x.1 ≤ start) && decide (start ≤ x.1 + 64)

/-- A code word of a bundle: the new one, or in such a bundle, word by word, the old one (02 R30; log entry 8). Elsewhere it is the new one
as soon as the store is performed, before a mark or release has ordered it too (log entry 124). -/
def State.codeWord (s : State) (v : Vat) (start va loc : Nat) : Nat :=
  let old := v.codeOpen start && Config.freeBit (s.free + (va - start) / 2)
  let byte (i : Nat) : Byte := if old && thas v.codeOld (va + i) then tget v.codeOld (va + i) else s.byte (loc + i)
  (byte 0).toNat + 256 * (byte 1).toNat

/-- The literal map's bit of a code word (02 R31): a trap, a wait, or the bit. -/
def State.mapBit (s : State) (cx : Nat) (d : Desc) (va : Nat) : CodeAcc :=
  let i := (va - d.code) / 2
  match s.codeAcc cx (d.map + i / 8) false with
  | .ok loc => .ok ((s.byte loc).toNat / 2 ^ (i % 8) % 2)
  | r => r

/-- The first of a list of code-word accesses that traps, in address order whatever its cause (02 R41; log entry 102), then a
wait, else all of them. -/
def codeAll : List CodeAcc → Fetch ⊕ List Nat
  | [] => .inr []
  | .trap c v :: _ => .inl (.trap ⟨c, 7, v⟩)
  | .wait :: t => match codeAll t with
    | .inl (.trap x) => .inl (.trap x)
    | _ => .inl .wait
  | .ok l :: t => match codeAll t with
    | .inr ls => .inr (l :: ls)
    | r => r

/-- The fetch of a context's next bundle: translation first, then the conditions of ILLEGAL_CODEWORD (02 R28, R30,
R31, R40). An escape word that is itself illegal traps before any word after it is looked at (R41; log entry 103). The orders among
several illegal words of one literal, and of a map byte without translation, are the model's (log entry 144). -/
def State.fetch (s : State) (cx : Nat) : Fetch :=
  let c := s.ctx cx
  let v := s.vat c.vatKey
  let d := v.desc
  let pc := c.pc.toNat
  let bad (va : Nat) : Fetch := .trap ⟨cCODEWORD, 7, va⟩
  match s.codeAcc cx pc true with
  | .trap code va => .trap ⟨code, 7, va⟩
  | .wait => .wait
  | .ok loc =>
    if !inSegment d pc then bad pc
    else match s.mapBit cx d pc with
    | .trap code va => .trap ⟨code, 7, va⟩
    | .wait => .wait
    | .ok 0 =>
      let w := s.codeWord v pc pc loc
      if w < 0x1000 then
        if d.dictSize ≤ w then bad pc
        else
          let q := s.quad (quadOf cx)
          if q.dictBad.contains (c.dictbase + w) then .trap ⟨cPOISON, 7, 0⟩
          else .ok (tget q.dict (c.dictbase + w)).toNat 2
      else if w = 0xF000 then
        let vas := (List.range 24).map fun j => (c.pc + BitVec.ofNat 64 (2 * j + 2)).toNat
        match codeAll (vas.map fun va => s.codeAcc cx va true) with
        | .inl r => r
        | .inr locs =>
          match vas.find? fun va => !inSegment d va with
          | some va => bad va
          | none =>
            match codeAll (vas.map fun va => s.mapBit cx d va) with
            | .inl r => r
            | .inr bits =>
              match (vas.zip bits).find? fun x => x.2 == 0 with
              | some x => bad x.1
              | none =>
                .ok (wordsBundle ((vas.zip locs).map fun x => s.codeWord v pc x.1 x.2)) 50
      else bad pc
    | .ok _ => bad pc

/- The fate of the next bundle -/

/-- What would happen if the context issued now. -/
inductive Fate where
  | wait (slots : List (Nat × Instr))
  | trap (slots : List (Nat × Instr)) (slot : Option Nat) (t : Trap)
  | go (len : Nat) (slots : List (Nat × Instr))
  deriving DecidableEq, Repr

/-- The slots of a bundle as issue sees them. -/
def opsOf (slots : List (Nat × Instr)) : List SlotOp := slots.map fun x => slotOp x.2

/-- Fetch, decode and check: the orders of 02 Table 2.5, execution-time traps, waits. The context is the current one
and its due results have been delivered. -/
def State.fate (s : State) : Fate :=
  if s.cc.phase ≠ .running ∨ s.cc.xinv.isSome ∨ !s.cc.farWait.isEmpty then .wait []
  else match s.fetch s.cur with
  | .trap t => .trap [] none t
  | .wait => .wait []
  | .ok b len =>
    match decodeBundle b with
    | .illegalOpcode slot opcode => .trap [] none ⟨cOPCODE, slot, opcode⟩
    | .illegalBundle slot => .trap [] none ⟨cBUNDLE, slot, 0⟩
    | .ok slots =>
      let u := { s with issue := { s.issue with len := len } }
      match u.bundleTrap (opsOf slots) with
      | some (o, t) => .trap slots (some o.slot) t
      | none => if u.bundleWaits (opsOf slots) then .wait slots else .go len slots

/-- The state in which a context's next bundle would issue. -/
def State.atIssue (s : State) (cx : Nat) : State := { s with cur := cx }.deliverDue cx

/-- Whether a context is ready (02 R45). -/
def State.ready (s : State) (cx : Nat) : Bool :=
  match (s.atIssue cx).fate with
  | .wait _ => false
  | _ => true

/-- The order in which a bundle's slots take effect: control registers and barriers first, then the vector slots, A,
LD, ST, a wheel.spawn, which does not see what E passes (02 R42), E, and the other control instructions (14 Table 14.1). -/
def drainRank (x : Nat × Instr) : Nat :=
  match x.1, x.2 with
  | 3, .csrr _ _ _ => 0
  | 3, .csrw _ _ _ => 0
  | 3, .csrs _ _ _ _ => 0
  | 3, .csrc _ _ _ _ => 0
  | 3, .bar _ _ => 0
  | 0, _ => 1
  | 1, _ => 2
  | 4, _ => 3
  | 5, _ => 4
  | 6, _ => 5
  | 3, .wheelSpawn _ _ => 6
  | 3, .wheelSpawnCore _ _ => 6
  | 2, _ => 7
  | _, _ => 8
def drainOrder (slots : List (Nat × Instr)) : List (Nat × Instr) :=
  (List.range 9).flatMap fun r => slots.filter fun x => drainRank x == r

/-- Whether a core may issue in this cycle: powered, in service, nothing issued yet (02 R42, 20 R422, R423, R428). -/
def State.coreLive (s : State) (core : Nat) : Bool :=
  let k := s.core core
  !k.gated && !k.retired && !(s.quad (core / 4)).isolated && !(s.modu (core / 1024)).halted
  && !(s.die (core / 128)).trip && k.issuedAt != some s.now && decide (k.selAt ≤ s.now)

/-- A detected logic error waits for the core's next bundle (20 R418). -/
def State.parityHit (s : State) (core : Nat) : Bool := s.parity.contains (core, true)

/-- Slots that ask something of their quad that one cycle gives out in COREID order: a park slot, a bank, the arming of a byte
barrier. -/
def asksQuad (x : Nat × Instr) : Bool :=
  match x.2 with
  | .panePark _ _ _ => true
  | .pressClaim _ _ => true
  | .bbExpect _ _ _ _ => true
  | _ => false
/-- A quad notes that a core's bundle has asked something of it in a cycle. -/
def Quad.note (q : Quad) (now core : Nat) (slots : List (Nat × Instr)) : Quad :=
  if slots.any asksQuad then
    { q with asked := some (now, match q.asked with | some x => if x.1 = now then max x.2 (core % 4) else core % 4 | none => core % 4) }
  else q

/-- The bundle is open: results and FMT count one bundle, its slots stand to be executed. -/
def State.openBundle (s : State) (len : Nat) (slots : List (Nat × Instr)) : State :=
  let s := s.updQuad (quadOf s.cur) (·.note s.now (coreOf s.cur) slots)
  let s := s.updCur fun c => { c.countDown with seq := c.seq + 1 }
  { s with issue := { active := true, cx := s.cur, len := len, slots := drainOrder slots } }

/-- The bundle is closed: the next address and the loop stack follow NextAddress (07 R151). -/
def State.closeBundle (s : State) : State :=
  let i := s.issue
  let s := { s with issue := {} }
  if i.ret then s
  else s.updCtx i.cx fun c =>
    let x := nextAddress c.pc (c.pc + BitVec.ofNat 64 i.len) i.branch i.loop c.lv.loops
    { c.setLv { c.lv with loops := x.2 } with pc := x.1 }

/-- Three free bits: a slot number that the specification does not state (log entry 12). -/
def freeSlotNo (n : Nat) : Nat :=
  (Config.freeBit n).toNat + 2 * (Config.freeBit (n + 1)).toNat + 4 * (Config.freeBit (n + 2)).toNat

/-- The next bundle of the current context issues, traps or waits. -/
def State.issueNext (s : State) (core : Nat) : State :=
  let hit := s.parityHit core
  match s.fate with
  | .wait slots => (s.noteWaits (opsOf slots)).updCore core fun k => { k with switching := true }
  | .trap slots slot t =>
    let s := s.updCore core fun k => { k with issuedAt := some s.now }
    match slot.bind fun n => (opsOf slots).find? fun o => o.slot == n with
    | some o => s.raise o t
    | none => (s.leaveWaits s.cur).takeTrap t
  | .go len slots =>
    let s := s.updCore core fun k => { k with issuedAt := some s.now }
    let s := { s with parity := s.parity.filter fun x => x.1 != core, free := s.free + 64 }
    if hit then ((s.leaveWaits s.cur).takeTrap ⟨cPOISON, freeSlotNo s.free, 0⟩)
    else s.openBundle len slots

/-- BUNDLE_ISSUE (02 R42 to R45): the selected context's next bundle; one that cannot issue makes a switch point. -/
def execBundleIssue (core : Nat) (s : State) : Host.Outcome State Fault Refusal :=
  if s.issue.active || !s.coreLive core || (s.core core).switching then .next s
  else .next ((s.atIssue (4 * core + (s.core core).sel)).issueNext core)

/-- The contexts of a core are examined in an order until one is ready; what waits enters its queues and records its arrival
meanwhile (07 R160, 16 R341; log entry 25). -/
def State.examine (s : State) (core : Nat) : List Nat → State × Option Nat
  | [] => (s, none)
  | c :: t =>
    let cx := 4 * core + c
    if (s.ctx cx).phase ≠ .running then s.examine core t
    else
      let u := s.atIssue cx
      match u.fate with
      | .wait slots => { u.noteWaits (opsOf slots) with cur := s.cur }.examine core t
      | _ => (s, some c)

/-- CONTEXT_SELECT (02 R45): from a switch point on, the first ready context in the order c + 1, c + 2, c + 3, c is chosen; a
different context issues from two cycles later. The next order counts from the context chosen, whether or not it still can
issue then (log entry 104). -/
def execContextSelect (core : Nat) (s : State) : Host.Outcome State Fault Refusal :=
  let k := s.core core
  if s.issue.active || !s.coreLive core || !k.switching then .next s
  else match s.examine core ([1, 2, 3, 0].map fun i => (k.sel + i) % 4) with
  | (s, some c) => .next (s.updCore core fun k => { k with
      sel := c, switching := false, selAt := if c = k.sel then k.selAt else s.now + 2 })
  | (s, none) => .next s

/-- RESULT_DELIVERY (02 R47): results whose count has run out reach their registers. -/
def execResultDelivery (cx : Nat) (s : State) : Host.Outcome State Fault Refusal :=
  if s.issue.active then .next s else .next (s.deliverDue cx)

/-- FMT_WRITE_EFFECT (02 R54): a pending FMT write whose count has run out takes effect. -/
def execFmtWriteEffect (cx : Nat) (s : State) : Host.Outcome State Fault Refusal :=
  if s.issue.active then .next s else .next (s.updCtx cx (·.fmtDue))

end Sys2Proof.Machine
end

