-- ==== Sys2Proof/Machine/MemEvents.lean ====
section
/-! DEFINITION. Events of the memory system (10 R205 to R222, 17 R373, R374) and of far operations (18 R380 to R395):
performing and returning queued operations, walks and invalidations, far requests, their targets and their answers. -/

namespace Sys2Proof.Machine

/- Where a wheel is -/

/-- The context that runs a wheel. -/
def State.findWheel (s : State) (w : WheelId) : Option Nat := (s.ctxs.find? fun x => x.2.wheel == some w).map (·.1)
/-- A wheel's context changed, running or saved (17 R367). -/
def State.updWheel (s : State) (w : WheelId) (f : Ctx → Ctx) : State :=
  match s.findWheel w with
  | some cx => s.updCtx cx f
  | none => s.updVat w.vat fun v => { v with
      saves := v.saves.map fun k => { k with ctxs := k.ctxs.map fun x => if x.2.wheel = some w then (x.1, f x.2) else x } }

/- Routes (18 R381, R382) -/

def State.linkUp (s : State) (a b : Nat) : Bool :=
  !(tget (s.die a).links (b % 8)).down && !(tget (s.die b).links (a % 8)).down && !(s.die a).isolated && !(s.die b).isolated && !(s.modu (a / 8)).halted
/-- A die is on its plane while one of its ports is up. -/
def State.planeUp (s : State) (a : Nat) : Bool := (s.die a).portUp.any (·.2) && !(s.die a).isolated && !(s.modu (a / 8)).halted
/-- Whether a route of 18 Table 18.1 is up between two dies: the first of its row, or the one taken when a hop is down. -/
def State.routeVia (s : State) (a b : Nat) (second : Bool) : Bool :=
  if a = b then !second && !(s.die a).isolated
  else if a / 8 = b / 8 then !second && s.linkUp a b
  else if a % 8 = b % 8 then !second && s.planeUp a && s.planeUp b
  else
    let via1 := a / 8 * 8 + b % 8
    let via2 := b / 8 * 8 + a % 8
    if second then s.planeUp a && s.planeUp via2 && s.linkUp via2 b else s.linkUp a via1 && s.planeUp via1 && s.planeUp b
/-- Whether a route between two dies is up. -/
def State.routeUp (s : State) (a b : Nat) : Bool := s.routeVia a b false || s.routeVia a b true
/-- The die that a pod die number names (01 R10, 21 R437). -/
def State.dieOfPod (s : State) (t : Nat) : Option Nat :=
  (s.mods.find? fun x => x.2.modcfg.getLsbD 63 && x.2.modcfg.toNat % 512 == t / 8).map fun x => 8 * x.1 + t % 8

/- Sending -/

/-- A far operation at the head of its queue is sent (18 R392 to R394). -/
def State.sendFar (s : State) (cx : Nat) (op : MOp) (f : FarOp) (b ex : Word) (d : Nat) (drop : Bool) : State :=
  let c := s.ctx cx
  let e := ((s.vat c.vatKey).peers[op.ea / 2 ^ 51 % 2 ^ 12]?).getD default
  let id := s.uid
  let r : FarReq := {
    ctx := cx, wheel := c.wid, op := f, ea := op.ea, size := op.size, die := e.target, domain := e.domain,
    win := op.ea / 2 ^ 43 % 2 ^ 8, off := op.ea % 2 ^ 43, b := b, expected := ex, d := d, opId := op.id,
    sentAt := s.now, drop := drop, fails := op.fails }
  let s := { s with fars := tset s.fars id r, uid := id + 1 }
  match f with
  | .st => s.updCtx cx fun c => { c with sq := c.sq.tail, farSent := c.farSent ++ [id] }
  | _ => s.updCtx cx fun c => { c with farWait := c.farWait.map fun w => if w.op = op.id then { w with req := some id } else w }

/-- Whether a blocked far operation has been sent. -/
def Ctx.sentFar (c : Ctx) (op : Nat) : Bool := c.farWait.any fun w => w.op == op && w.req.isSome

/-- The blocked far operation is over, with a trap or none. -/
def Ctx.overFar (c : Ctx) (op : Nat) (fault : Option (Nat × Nat)) : Ctx :=
  { c with farWait := c.farWait.map fun w => if w.op = op then { w with closed := true, fault := fault } else w,
           lq := c.lq.filter fun o => o.id != op, sq := c.sq.filter fun o => o.id != op }

/-- Whether a context takes the completion trap of a far instruction: it runs, it has been halted in this very cycle, when the
trap still comes first (17 R359), or its wheel.end has issued (log entry 119). -/
def Ctx.takesFar (c : Ctx) (now : Nat) : Bool := c.phase == .running || c.phase == .ending || (c.phase == .halted && c.haltAt == now)
/-- When every far instruction of the blocked bundle is over the context goes on, or takes the completion trap of the
lowest slot (17 R356, 18 R392). -/
def State.settleFar (s : State) (cx : Nat) : State :=
  let c := s.ctx cx
  if c.takesFar s.now ∧ !c.farWait.isEmpty ∧ c.farWait.all (·.closed) then
    let s' := s.setCtx cx { c with farWait := [] }
    let at_ (n : Nat) := c.farWait.find? fun w => w.slot == n && w.fault.isSome
    match (at_ 5).orElse fun _ => at_ 6 with
    | some w => match w.fault with
      | some (code, ea) => s'.takeTrapAt cx ⟨code, w.slot, ea⟩ c.pc w.bundle
      | none => s'
    | none => s'
  else if c.phase = .faulting ∧ c.farWait.all (·.closed) then s.setCtx cx { c with farWait := [] }
  else s
/-- As `settleFar`, for the context of a wheel, where it runs. -/
def State.settleFarOf (s : State) (w : WheelId) : State :=
  match s.findWheel w with
  | some cx => s.settleFar cx
  | none => s

/-- A flag fence at the head of the store queue: earlier far stores to the same die still unperformed hold it; a pending
far-store record is raised instead of the flag store (18 R394). -/
def State.reachFlag (s : State) (cx : Nat) (op : MOp) (b : Word) : State :=
  let c := s.ctx cx
  let target := (((s.vat c.vatKey).peers[op.ea / 2 ^ 51 % 2 ^ 12]?).getD default).target
  let held := c.farSent.any fun r => s.farOpen r && (tget s.fars r).die == target && !(tget s.fars r).timedOut
  if c.sentFar op.id || held then s
  else match c.farRec with
  | some (code, ea) => (s.setCtx cx { c.overFar op.id (some (code, ea)) with farRec := none }).settleFar cx
  | none => s.sendFar cx op .flag b 0 0 false

/- Events of the queues -/

/-- Bytes that a store is about to change in the vat's code segment are remembered (02 R30). -/
def State.noteCode (s : State) (cx sel : Nat) : State :=
  match (s.ctx cx).sq with
  | op :: _ =>
    let d := (s.vat (s.ctx cx).vatKey).desc
    if op.ea < d.code + d.codeLen ∧ d.code < op.ea + op.size ∧ !(isSpad (pick op.locs 0)) then
      let js := (selected op sel).filter fun j => decide (d.code ≤ op.ea + j) && decide (op.ea + j < d.code + d.codeLen)
      s.updVat (s.ctx cx).vatKey fun v => { v with
        codeOld := js.foldl (fun t j => tset t (op.ea + j) (s.byte (pick op.locs j))) v.codeOld }
    else s
  | [] => s

/-- A translation cached by a list of them (17 R373). -/
def putXlat (l : List Xlat) (x : Xlat) : List Xlat := l.filter (fun y => !(y.vat == x.vat && y.page == x.page)) ++ [x]

/-- A line asked for by a pref is filled, or its request dropped: where its page was not translated at issue, it is walked now, and
the request is dropped unless the page is resident, readable and cacheable (10 R215, 14 R312; log entry 11). -/
def State.endPref (s : State) (core i : Nat) (drop : Bool) : State :=
  match (s.core core).prefs[i]? with
  | none => s
  | some p =>
    let gone := s.updCore core fun k => { k with prefs := k.prefs.eraseIdx i }
    if drop then gone
    else match p.loc with
    | some loc => if s.hbmBusy loc then s else gone.fillLine core loc
    | none =>
      if s.walkHeld p.vat p.ea then s
      else match s.walk p.vat p.ea with
      | some x =>
        if x.r && x.resident && x.cached && !s.splitPage p.vat x.page then
          if s.hbmBusy (x.loc + p.ea % 4096) then s
          else (gone.updCore core fun k => { k with tlb := putXlat k.tlb x }).fillLine core (x.loc + p.ea % 4096)
        else gone
      | none => gone

/-- The selection's bit that lets a store go before compare-and-swaps of its context (14 R323). -/
def passBit : Nat := 4096
/-- The store queue waits at the acquire of a compare-and-swap with a relaxed failure, wherever that stands in the load queue: the
store behind goes first, and the compare then fails (14 R323; log entry 120). A queue with no such place stays. -/
def State.passPlace (s : State) (cx : Nat) : State :=
  let c := s.ctx cx
  match c.sq with
  | b :: _ =>
    let place := match b.kind with | .order _ _ _ _ => true | _ => false
    let able (op : MOp) : Bool := place && b.id == op.id + 1 && match op.kind with
      | .amo _ _ _ _ drop => drop && !op.fails
      | .far _ _ _ _ drop => drop && !op.fails && !c.farWait.any fun w => w.op == op.id && match w.req with
          | some r => (tget s.fars r).answered || (tget s.fars r).timedOut
          | none => false
      | _ => false
    match c.lq.find? able with
    | none => s
    | some op =>
      let gone (q : List MOp) := (q.filter fun o => o.id != op.id + 1).map fun o => if o.id = op.id then { o with fails := true, fall := [] } else o
      let s := (s.setCtx cx { c with lq := gone c.lq, sq := gone c.sq }).refall cx
      match c.farWait.find? fun w => w.op == op.id with
      | some w => match w.req with
        | some r => { s with fars := tset s.fars r { tget s.fars r with fails := true } }
        | none => s
      | none => s
  | [] => s

/-- LOAD_COMPLETE (10 R207, 07 R51): ret 0 performs bytes of the oldest load, or sends a far load; ret n returns units of
the n-th load that is on its way; a number past those ends a pref of the core, by a fill or, with hit, by a drop. -/
def execLoadComplete (cx ret sel : Nat) (hit : Bool) (s : State) : Host.Outcome State Fault Refusal :=
  if s.stopped (modOf cx) then .next s
  else if (s.ctx cx).rets.length < ret then .next (s.endPref (coreOf cx) (ret - 1 - (s.ctx cx).rets.length) hit)
  else if ret ≠ 0 then .next (s.returnLoad cx (ret - 1) sel)
  else match (s.ctx cx).lq with
  | op :: _ => match op.kind with
    | .far .ld b e d dr => if (s.ctx cx).sentFar op.id then .next s else .next (s.sendFar cx op .ld b e d dr)
    | _ => .next (s.performLoad cx sel hit)
  | [] => .next s

/-- STORE_PERFORMED (10 R207): bytes of the oldest store are performed, or a far store or flag store is sent; with passBit in the
selection the oldest store first goes before the compare-and-swaps that hold it (14 R323). -/
def execStorePerformed (cx sel : Nat) (s : State) : Host.Outcome State Fault Refusal :=
  if s.stopped (modOf cx) then .next s
  else
    let s := if sel.testBit passBit then s.passPlace cx else s
    match (s.ctx cx).sq with
  | op :: _ => match op.kind with
    | .far .st b e d dr => .next (s.sendFar cx op .st b e d dr)
    | .far .flag b _ _ _ => .next (s.reachFlag cx op b)
    | _ => .next ((s.noteCode cx sel).performStore cx sel)
  | [] => .next s

/-- ATOMIC_PERFORMED (10 R220): the oldest atomic is performed, or a far atomic is sent. -/
def execAtomicPerformed (cx : Nat) (s : State) : Host.Outcome State Fault Refusal :=
  if s.stopped (modOf cx) then .next s
  else match (s.ctx cx).lq with
  | op :: _ => match op.kind with
    | .far (.amo f) b e d dr => if (s.ctx cx).sentFar op.id then .next s else .next (s.sendFar cx op (.amo f) b e d dr)
    | _ => .next (s.performAtomic cx)
  | [] => .next s

/-- What is done when an ordering place is reached (14 Table 14.1). A hoop.rel that hoop.init has overtaken frees its slot only where that is
RELEASING again (log entry 138). -/
def State.doOrder (s : State) (a : OrdAct) : State :=
  match a with
  | .none => s
  | .fork core slot uid => s.captureEmber core slot uid
  | .signal die sem n => s.signal die sem n
  | .bbArrive quad bb id => s.updQuad quad fun q => { q with
      bbAcc := tupd q.bbAcc bb fun l => l.map fun x => if x.id = id then { x with rel := some s.now } else x }
  | .hoopRel quad hoop slot =>
    let h := ((s.quad quad).hoop hoop).cur
    if h.slotSt slot = .releasing then s.putHoop quad hoop { h with rel := tset h.rel slot s.now } else s
  | .spawn vat idx => s.updVat vat fun v => { v with
      spawns := v.spawns.map fun x => if x.idx = idx then { x with released := true } else x }

/-- The first place that a wheel which has ended left in a context's queues, once the far stores it waits for are performed. -/
def State.leftReached (s : State) (cx : Nat) : Option LeftPlace :=
  ((s.core (coreOf cx)).left.find? fun p => p.ctx == cx).filter fun p => p.far.all fun r => !s.farOpen r
/-- Such a place is performed. -/
def State.performLeft (s : State) (p : LeftPlace) : State :=
  ((s.updCore (coreOf p.ctx) fun k => { k with left := k.left.erase p }).acquireAt (coreOf p.ctx) p.acq).doOrder p.act

/-- Whether a context's next bundle waits for a barrier alone, and its arrival is not recorded yet (07 R160). -/
def State.arrives (s : State) (cx : Nat) : Bool :=
  let c := s.ctx cx
  c.phase == .running && c.barIn.isNone && !c.barOk && !s.issue.active && s.coreLive (coreOf cx) &&
    let u := s.atIssue cx
    match u.fate with
    | .wait slots =>
      let os := opsOf slots
      !u.queueWaits os && !os.any (fun o => !o.late && o.waits u) && os.any fun o => o.late && o.waits u
    | _ => false
/-- Such a bundle performs its release and records its arrival, whether or not its core looks at it (07 R160). -/
def State.arriveBar (s : State) (cx : Nat) : State :=
  let u := s.atIssue cx
  match u.fate with
  | .wait slots => { u.noteWaits (opsOf slots) with cur := s.cur }
  | _ => s

/-- MARK_PERFORMED (10 R218, R222; 14 R311): the ordering place at the head of both queues is reached and left, or one that a wheel left
behind (07 R162); or the release of a barrier is performed at which a bundle waits, and its arrival recorded (07 R160). -/
def execMarkPerformed (cx : Nat) (s : State) : Host.Outcome State Fault Refusal :=
  if s.stopped (modOf cx) then .next s
  else match s.leftReached cx with
  | some p => .next (s.performLeft p)
  | none => match s.orderReached cx with
    | some (_, acq, act) => .next ((s.leaveOrder cx acq).doOrder act)
    | none => .next (if s.arrives cx then s.arriveBar cx else s)

/- Translation -/

/-- Copy engines are numbered from here on: engineUnit + quad. -/
def engineUnit : Nat := 2 ^ 40

/-- TRANSLATION_WALK (17 R373): a core or a copy engine caches the translation of a page; an absent one is never
cached. -/
def execTranslationWalk (unit vat va : Nat) (s : State) : Host.Outcome State Fault Refusal :=
  match s.walk vat va with
  | none => .next s
  | some x =>
    if s.splitPage vat x.page || s.walkHeld vat va then .next s
    else if engineUnit ≤ unit then .next (s.updQuad (unit - engineUnit) fun q => { q with tlb := putXlat q.tlb x })
    else .next (s.updCore unit fun k => { k with tlb := putXlat k.tlb x })

/-- Whether an invalidation covers a cached translation (17 Table 17.7): that of range entry i covers what it gave and, since only
the new entry is used from then on (17 R373), every page that the entry as it stands reaches. -/
def State.invCovers (s : State) (vat : Nat) (x : XInv) (t : Xlat) : Bool :=
  match x with
  | .range i =>
    let e := s.rangeEntry vat i
    t.range == some i || (e.valid && decide (e.base < (t.page + 1) * 4096) && decide (t.page * 4096 ≤ e.limit))
  | .page va => t.range.isNone && t.page * 4096 / t.size == va / t.size
  | .vat => true
/-- Every core and copy engine of the module drops what an invalidation of a vat covers (17 R374). -/
def State.invalidate (s : State) (vat : Nat) (x : XInv) : State :=
  let keep (l : List Xlat) := l.filter fun t => !(t.vat == vat && s.invCovers vat x t)
  { s with cores := s.cores.map fun k => (k.1, { k.2 with tlb := keep k.2.tlb }),
           quads := s.quads.map fun q => (q.1, { q.2 with tlb := keep q.2.tlb }) }

/-- XLAT_INV_COMPLETE (17 R374). -/
def execXlatInvComplete (cx : Nat) (s : State) : Host.Outcome State Fault Refusal :=
  if s.stopped (modOf cx) then .next s
  else match (s.ctx cx).xinv with
  | some x => .next ((s.invalidate (s.ctx cx).vatKey x).updCtx cx fun c => { c with xinv := none })
  | none => .next s

/- Far targets (18 R388, R389) -/

/-- Bytes of a vat's space that translate to a resident page with the rights asked for; none where one does not (log entries 139, 141). -/
def State.vatLocs (s : State) (vat va n : Nat) (r w : Bool) : Option (List Nat) :=
  (List.range n).mapM fun i =>
    match s.walk vat (va + i) with
    | some t => if t.resident && (!r || t.r) && (!w || t.w) && decide (2 ^ 32 ≤ va + i) && decide (va + i < 2 ^ 56)
      then some (t.loc + (va + i) % 4096) else none
    | none => none

/-- A window table entry (18 Table 18.4): base, length, rights; none where it is invalid or unreadable, as on a page that is not resident
(log entry 141). -/
def State.window (s : State) (vat table win : Nat) : Option (Nat × Nat × Nat) :=
  match s.vatLocs vat (table + 32 * win) 32 true false with
  | none => none
  | some ls =>
    let bs := s.bytesAt ls
    let base := leNat (bs.take 8)
    let len := leNat ((bs.drop 8).take 8)
    let rt := leNat ((bs.drop 16).take 1)
    if ls.any s.isBad ∨ rt % 2 = 0 ∨ 16 ≤ rt ∨ leNat (bs.drop 17) ≠ 0 ∨ base % 64 ≠ 0 ∨ len % 64 ≠ 0 ∨ len < 64 ∨ 2 ^ 43 < len
    then none else some (base, len, rt)

/-- Whether an arrival for a page of a vat is parked. A page is named by the first 4 KiB page of its leaf. -/
def State.parkedAt (s : State) (vat page : Nat) : Bool := s.dies.any fun d => d.2.parked.any fun x => x.vat == vat && x.page == page
/-- The name of the page that holds an address (17 R377). -/
def Xlat.leaf (t : Xlat) (va : Nat) : Nat := va / t.size * t.size / 4096

/-- An arrival is parked at a page that is not resident; the first for its page and vat is noticed (17 R376, R377). The park has no bound
(log entry 140). -/
def State.park_ (s : State) (die : Nat) (p : Parked) : State :=
  let first := !s.parkedAt p.vat p.page
  let s := s.updDie die fun d => { d with parked := d.parked ++ [p] }
  if first then s.updMod (vatMod p.vat) fun m => { m with notices := m.notices ++ [.staged (p.vat % 2 ^ 32) (p.page * 4096)] }
  else s

/-- The operand bytes of a far operation read and written at the target. -/
def State.farPerform (s : State) (r : FarReq) (locs : List Nat) : State × Word :=
  let old := leNat (s.bytesAt locs)
  let put (v : Nat) := (s.setBytes (locs.zip (leBytes r.size v))).healWhole locs
  match r.op with
  | .ld => (s, BitVec.ofNat 64 old)
  | .st => (put r.b.toNat, 0)
  | .flag => (put r.b.toNat, 0)
  | .amo f => match amoNew f r.size old r.b.toNat r.expected.toNat with
    | some v => (put v, BitVec.ofNat 64 old)
    | none => (s, BitVec.ofNat 64 old)

/-- FarTarget (18 R389). -/
def State.farTarget (s : State) (id : Nat) (r : FarReq) (die : Nat) : State :=
  let put (s : State) (r : FarReq) := { s with fars := tset s.fars id r }
  let poison := put s { r with answered := true, poison := true }
  let rd := match r.op with | .ld => true | .amo _ => true | _ => false
  let wr := match r.op with | .ld => false | _ => true
  let bit := match r.op with | .ld => 1 | .amo _ => 3 | _ => 2
  if !thas (s.die die).doms r.domain then poison
  else
    let (vat, table) := tget (s.die die).doms r.domain
    match s.window vat table r.win with
    | none => poison
    | some (base, len, rt) =>
      if len < r.off + r.size ∨ !rt.testBit bit then poison
      else
        let v := base + r.off
        match s.walk vat v with
        | none => poison
        | some t =>
          if (rd && !t.r) || (wr && !t.w) || decide (v < 2 ^ 32) || decide (2 ^ 56 ≤ v) then poison
          else if !t.resident then
            match r.op with
            | .st | .flag =>
              (put s { r with answered := true }).park_ (t.loc / 2 ^ 39)
                { vat := vat, page := t.leaf v, va := v, bytes := leBytes r.size r.b.toNat, far := some id,
                  sender := (dieOf r.ctx / 8, r.wheel.vat, r.ea) }
            | _ => poison
          else
            let locs := (List.range r.size).map fun i => t.loc + v % 4096 + i
            if rd && locs.any s.isBad then poison
            else if r.fails && (match r.op with
                | .amo f => (amoNew f r.size (leNat (s.bytesAt locs)) r.b.toNat r.expected.toNat).isSome
                | _ => false) then s
            else
              let (s, val) := s.farPerform r locs
              put s { r with answered := true, performed := true, value := val }

/-- Locations of a run of a vat's space. -/
def State.vatRun (s : State) (vat va n : Nat) : List (Option Nat) :=
  let ps := (pagesOf va n).map fun p => (p, s.splitPage vat p, s.walk vat (p * 4096))
  (List.range n).map fun i =>
    match ps.find? fun x => x.1 == (va + i) / 4096 with
    | some (_, split, t) => (if split then s.walk vat (va + i) else t).map fun t => t.loc + (va + i) % 4096
    | none => none
/-- Whether a run of a vat's space, or a table that translates it, lies in a stack that recalibrates (20 R424). -/
def State.runHeld (s : State) (vat va n : Nat) : Bool :=
  s.recal && (n != 0 && ((pagesOf va n).any (fun p => s.walkHeld vat (p * 4096)) || s.hbmWaits ((s.vatRun vat va n).filterMap id)))
/-- Whether a request's window or operand lies in a stack that recalibrates: it waits at its target (20 R424). -/
def State.farHeld (s : State) (r : FarReq) (die : Nat) : Bool :=
  let b := tget (s.die die).doms r.domain
  thas (s.die die).doms r.domain && (s.runHeld b.1 (b.2 + 32 * r.win) 32 || match s.window b.1 b.2 r.win with
  | some (base, _, _) => s.walkHeld b.1 (base + r.off) || match s.walk b.1 (base + r.off) with
    | some t => t.resident && s.hbmWaits ((List.range r.size).map fun i => t.loc + (base + r.off) % 4096 + i)
    | none => false
  | none => false)

/-- FAR_REQUEST_RECEIVE (18 R389): a request reaches its target over a route that is up. -/
def execFarRequestReceive (req : Nat) (s : State) : Host.Outcome State Fault Refusal :=
  if !thas s.fars req then .next s
  else
    let r := tget s.fars req
    match s.dieOfPod r.die with
    | none => .next s
    | some die =>
      if r.answered || !s.routeUp (dieOf r.ctx) die || s.stopped (die / 8) || s.farHeld r die then .next s
      else .next (s.farTarget req { r with route := some (!s.routeVia (dieOf r.ctx) die false) } die)

/-- A request leaves the tables. -/
def State.dropFar (s : State) (req : Nat) (w : WheelId) : State :=
  { s with fars := tdel s.fars req }.updWheel w fun c => { c with farSent := c.farSent.filter (· != req) }

/-- Whether an answer can come back: over the route that its request took, in reverse (18 R381). -/
def State.answerUp (s : State) (r : FarReq) : Bool :=
  r.answered && match s.dieOfPod r.die with | some die => s.routeVia (dieOf r.ctx) die (r.route.getD false) | none => false

/-- FAR_RESPONSE (18 R392, R394): the response of a blocked far instruction arrives; after its timeout it is discarded. -/
def execFarResponse (req : Nat) (s : State) : Host.Outcome State Fault Refusal :=
  let r := tget s.fars req
  if s.stopped (modOf r.ctx) || !thas s.fars req || r.op == .st || !s.answerUp r then .next s
  else if r.timedOut then .next (s.dropFar req r.wheel)
  else
    let fault := if r.poison then some (cFARPOISON, r.ea) else none
    let failed := match r.op with
      | .amo f => !r.poison && (amoNew f r.size r.value.toNat r.b.toNat r.expected.toNat).isNone
      | _ => false
    let gone (q : List MOp) := if r.drop && failed then q.filter fun o => o.id != r.opId + 1 else q
    let s := s.updWheel r.wheel fun c =>
      let c := c.overFar r.opId fault
      let c := { c with lq := gone c.lq, sq := gone c.sq }
      if r.poison ∨ r.op = .flag ∨ c.phase = .faulting then c
      else
        let v := if r.size = 4 then BitVec.ofInt 64 (sgn 32 (r.value.toNat % 2 ^ 32)) else r.value
        (c.putS r.d v).unmark (.s (Fin.ofNat 64 r.d))
    let keep := match r.op with | .flag => !r.performed && !r.poison | _ => false
    let s := if keep then { s with fars := tset s.fars req { r with acked := true } } else s.dropFar req r.wheel
    .next (s.settleFarOf r.wheel)

/-- The far-store record of a context: the first failure stays (18 R393). -/
def Ctx.setRec (c : Ctx) (code ea : Nat) : Ctx := if c.farRec.isSome then c else { c with farRec := some (code, ea) }

/-- FST_ACK (18 R393): the acknowledgement of a far store returns. -/
def execFstAck (req : Nat) (s : State) : Host.Outcome State Fault Refusal :=
  let r := tget s.fars req
  if s.stopped (modOf r.ctx) || !thas s.fars req || r.op != .st || r.acked || !s.answerUp r then .next s
  else
    let s := if r.timedOut then s else s.updWheel r.wheel fun c =>
      (if r.poison then c.setRec cFARPOISON r.ea else c).markDone r.opId
    if r.performed || r.poison then .next (s.dropFar req r.wheel)
    else .next { s with fars := tset s.fars req { r with acked := true } }

/-- FAR_TIMEOUT (18 R395): no response within 16,000,000 cycles of the sending. -/
def execFarTimeout (req : Nat) (s : State) : Host.Outcome State Fault Refusal :=
  let r := tget s.fars req
  if s.stopped (modOf r.ctx) || !thas s.fars req || r.timedOut || r.acked || decide (s.now < r.sentAt + 16000000) then .next s
  else
    let s := { s with fars := tset s.fars req { r with timedOut := true } }
    match r.op with
    | .st => .next (s.updWheel r.wheel fun c => (c.setRec cFARTIMEOUT r.ea).markDone r.opId)
    | _ => .next ((s.updWheel r.wheel fun c => c.overFar r.opId (some (cFARTIMEOUT, r.ea))).settleFarOf r.wheel)

end Sys2Proof.Machine
end

