-- ==== Sys2Proof/Machine/EngineMem.lean ====
section
/-! DEFINITION. How the engines of a quad and the flues read and write memory: one byte's fate (17 R372, R376), the
checks of a list of bytes, poison (10 R209), writes that may park, and how an ember ends once its last arrival has
landed (17 R378). -/

namespace Sys2Proof.Machine

/-- The fate of an engine's access to one byte: its location, an arrival at a page that is not resident, no translation,
no right. -/
inductive EAcc where
  | ok (loc : Nat) | park (loc : Nat) | miss | perm
  deriving DecidableEq, Repr, Inhabited

/-- One byte that an engine reads or writes for an ember of a vat on a core (10 R201, 17 R372, 20 R423). -/
def State.engByte (s : State) (core vat : Nat) (tlb : List Xlat) (wr : Bool) (va : Nat) : EAcc :=
  match regionOf va with
  | none => .miss
  | some (.glob, _) =>
    match (s.xlat tlb vat va).1 with
    | none => .miss
    | some t =>
      let loc := t.loc + va % 4096
      if wr then (if !t.w then .perm else if t.resident then .ok loc else .park loc)
      else if !t.resident then .miss
      else if !t.r then .perm
      else .ok loc
  | some (reg, _) =>
    let k := regionCore core reg
    if s.coreAbsent k then .miss else .ok (spadLoc k (va % 2 ^ 20))

/-- The location an access reaches. -/
def EAcc.loc : EAcc → Nat
  | .ok l => l | .park l => l | _ => 0
def EAcc.isMiss : EAcc → Bool | .miss => true | _ => false
def EAcc.isPerm : EAcc → Bool | .perm => true | _ => false
def EAcc.isPark : EAcc → Bool | .park _ => true | _ => false

/-- The first byte without a translation, else the first without a right: cause and address. -/
def State.engCheck (s : State) (core vat : Nat) (tlb : List Xlat) (rds wrs : List Nat) : Option (Nat × Nat) :=
  let xs := (rds.map fun va => (va, s.engByte core vat tlb false va)) ++ wrs.map fun va => (va, s.engByte core vat tlb true va)
  match xs.find? (·.2.isMiss) with
  | some x => some (cMISS, x.1)
  | none => (xs.find? (·.2.isPerm)).map fun x => (cPERM, x.1)

/-- A byte an engine reads. -/
def State.engRead (s : State) (core vat : Nat) (tlb : List Xlat) (va : Nat) : Byte :=
  s.byte (s.engByte core vat tlb false va).loc

/-- The first byte read from a poisoned unit. -/
def State.engPoison (s : State) (core vat : Nat) (tlb : List Xlat) (rds : List Nat) : Option Nat :=
  rds.find? fun va => s.isBad (s.engByte core vat tlb false va).loc

/-- Whether a byte of an engine lies in a stack that recalibrates, or its walk reads one: the access waits (20 R424). -/
def State.engHeld (s : State) (core vat : Nat) (tlb : List Xlat) (rds wrs : List Nat) : Bool :=
  s.recal && ((rds.map fun va => (va, s.engByte core vat tlb false va)) ++ wrs.map fun va => (va, s.engByte core vat tlb true va)).any
    fun x => (decide (2 ^ 32 ≤ x.1) && (tlbFind tlb vat x.1).isNone && s.walkHeld vat x.1) ||
      match x.2 with | .ok loc => s.hbmBusy loc | _ => false

/-- Whether a walk that a check of some addresses needs waits for a stack that recalibrates (20 R424). -/
def State.walksHeld (s : State) (vat : Nat) (vas : List Nat) : Bool :=
  s.recal && vas.any fun va => decide (2 ^ 32 ≤ va) && s.walkHeld vat va

/-- Bytes at rising addresses gathered into runs that stay on one page. -/
def gather : List (Nat × Nat × Byte) → List (Nat × Nat × List Byte)
  | [] => []
  | (va, loc, b) :: t =>
    match gather t with
    | (va', loc', bs) :: r =>
      if va' = va + 1 ∧ va' / 4096 = va / 4096 then (va, loc, b :: bs) :: r else (va, loc, [b]) :: (va', loc', bs) :: r
    | [] => [(va, loc, [b])]

/-- The page of an address that an engine's arrival is parked under (17 R377). -/
def State.leafOf (s : State) (tlb : List Xlat) (vat va : Nat) : Nat := match (s.xlat tlb vat va).1 with | some t => t.leaf va | none => va / 4096

/-- Where an ember's record is: in the table of a core, or in a save of its vat. -/
inductive EPlace where
  | live (core slot : Nat)
  | saved (vat i slot : Nat)
  deriving DecidableEq, Repr, Inhabited

/-- The ember of a number with its place. -/
def State.emberAt (s : State) (uid : Nat) : Option (EPlace × Ember) :=
  match s.cores.findSome? fun k => (k.2.live.find? fun x => x.2.uid == uid).map fun x => (EPlace.live k.1 x.1, x.2) with
  | some r => some r
  | none => s.vats.findSome? fun v => v.2.saves.zipIdx.findSome? fun k => k.1.embers.findSome? fun x =>
      match x.2 with
      | some e => if e.uid = uid then some (EPlace.saved v.1 k.2 x.1, e) else none
      | none => none

/-- A change of one save of a vat. -/
def State.updSave (s : State) (vat i : Nat) (f : CoreSave → CoreSave) : State :=
  s.updVat vat fun v => { v with saves := v.saves.zipIdx.map fun x => if x.2 = i then f x.1 else x.1 }

/-- A change of an ember's record where it is. -/
def State.updEmber (s : State) (p : EPlace) (f : Ember → Ember) : State :=
  match p with
  | .live core slot => s.updCore core fun k => { k with embers := k.embers.map fun x => if x.1 = slot then (x.1, x.2.map f) else x }
  | .saved vat i slot => s.updSave vat i fun k => { k with embers := k.embers.map fun x => if x.1 = slot then (x.1, x.2.map f) else x }

/-- Writes of an engine's step are performed at once, or put off with the unit of the copy that counts them and the addresses
their bytes were read from (14 R308). -/
def State.perform (s : State) (uid : Nat) (unit : Option Nat) (ws : List (Nat × Byte)) (src : List Nat := []) : State :=
  match s.lag && !ws.isEmpty, s.emberAt uid with
  | true, some (p, _) => s.updEmber p fun e => { e with late := e.late ++ [{ unit := unit, ws := ws, src := src }] }
  | _, _ => (s.setBytes ws).healWhole (ws.map (·.1))

/-- Bytes written by an engine for an ember: performed where the page is resident, parked where it is not (17 R376), with the unit
of a copy that is counted and the addresses from which a plain copy read them. -/
def State.engWrite (s : State) (core uid vat : Nat) (tlb : List Xlat) (ws : List (Nat × Byte)) (unit : Option Nat := none)
    (src : List Nat := []) : State :=
  let xs := ws.map fun w => (w.1, s.engByte core vat tlb true w.1, w.2)
  let now := (xs.filter fun x => !x.2.1.isPark).map fun x => (x.2.1.loc, x.2.2)
  let later := gather ((xs.filter fun x => x.2.1.isPark).map fun x => (x.1, x.2.1.loc, x.2.2))
  let s := s.perform uid unit now ((xs.zip src).filterMap fun x => if x.1.2.1.isPark then none else some x.2)
  later.foldl (fun s x =>
    s.park_ (x.2.1 / 2 ^ 39) { vat := vat, page := s.leafOf tlb vat x.1, va := x.1, bytes := x.2.2, ember := some uid, unit := unit }) s

/-- A final state of an ember where its record is (11 R248). -/
def State.finishAt (s : State) (p : EPlace) (st : EState) (cause faddr prog : Nat) : State :=
  match p with
  | .live core slot => s.finishEmber core slot st cause faddr prog
  | .saved vat i slot => s.updSave vat i fun k =>
      match tget k.embers slot with
      | some e =>
        if e.st.cur.final then k
        else
          let r := cascade s.now 160 [(e.vat, e.token slot, st == .done && !e.struck)]
            (tset k.embers slot (some (e.finish s.now st cause faddr prog)))
          { k with embers := r.1, ctxs := k.ctxs.map fun x => (x.1, x.2.learn r.2) }
      | none => k

/-- Whether an arrival of an ember is still parked. -/
def State.emberParked (s : State) (uid : Nat) : Bool :=
  s.dies.any fun d => d.2.parked.any fun p => p.ember == some uid

/-- The lines of the row groups under lock (14 R320); a final ember holds none. -/
def State.lockedLines (s : State) : List Nat :=
  let of_ (l : Tbl (Option Ember)) : List Nat := l.flatMap fun x => match x.2 with
    | some e => match e.work with | some w => if e.st.cur.final then [] else w.lines | none => []
    | none => []
  (s.cores.flatMap fun k => of_ k.2.embers) ++ s.vats.flatMap fun v => v.2.saves.flatMap fun k => of_ k.embers
/-- Whether a row group under lock holds one of the bytes that an engine is about to read (14 R321). -/
def State.rowLocked (s : State) (core vat : Nat) (tlb : List Xlat) (vas : List Nat) : Bool :=
  let ls := s.lockedLines
  !ls.isEmpty && vas.any fun va => ls.contains ((s.engByte core vat tlb false va).loc / 64)
/-- Whether something keeps an ember from its final state: an arrival of it is parked, a write put off, a unit owed to its target
(13 R283, 14 R318, 17 R378). -/
def State.emberOpen (s : State) (e : Ember) : Bool := s.emberParked e.uid || !e.late.isEmpty || !e.owed.isEmpty

/-- The record of an ember that its engine has done with, until nothing keeps it open. -/
def Ember.willEnd (e : Ember) (st : EState) (cause faddr prog : Nat) : Ember :=
  { e with allDone := true, stopped := false, prog := prog, endSt := st, endCause := cause, endAddr := faddr }

/-- An ember whose engine has done with it reaches its final state, or waits for it while something keeps it open (14 R318,
17 R378). -/
def State.emberEnd (s : State) (uid : Nat) (st : EState) (cause faddr prog : Nat) : State :=
  match s.emberAt uid with
  | none => s
  | some (p, e) =>
    if s.emberOpen e then s.updEmber p (·.willEnd st cause faddr prog)
    else s.finishAt p st cause faddr prog

/-- The command of an ember leaves the array. -/
def State.leaveArray (s : State) (core slot : Nat) : State :=
  s.updQuad (core / 4) fun q => { q with run := q.run.filter fun r => !(r.core == core && r.slot == slot) }

/-- An ember that nothing keeps open any more ends as its engine left it; a press command leaves the array. -/
def State.drained (s : State) (uid : Nat) : State :=
  match s.emberAt uid with
  | some (p, e) =>
    if !e.allDone || e.st.cur.final || s.emberOpen e then s
    else
      let s := match p with
        | .live core slot => s.leaveArray core slot
        | .saved _ _ _ => s
      s.finishAt p e.endSt e.endCause e.endAddr e.prog
  | none => s

/- Writes put off, bytes read ahead (14 R308; log entry 15) -/

/-- A unit that is owed to its target is due from the next cycle on once its last byte has been performed (13 R283). -/
def State.noteUnit (s : State) (uid unit : Nat) : State :=
  match s.emberAt uid with
  | none => s
  | some (p, e) =>
    if (s.dies.any fun d => d.2.parked.any fun p => p.ember == some uid && p.unit == some unit) || e.late.any (·.unit == some unit) then s
    else s.updEmber p fun e => { e with owed := e.owed.map fun o => if o.unit = unit ∧ o.doneAt = none then { o with doneAt := some s.now } else o }

/-- The places of a step's writes that a selection performs: those selected with the whole of their aligned 4-byte units, of bytes that
no earlier step is still to write (13 R279). -/
def Late.chosen (l : Late) (before : List Late) (sel : Nat → Bool) : List (Nat × Nat × Byte) :=
  let xs : List (Nat × Nat × Byte) := l.ws.zipIdx.map fun x => (x.2, x.1.1, x.1.2)
  let open_ (m : Late) (i : Nat) : Bool := !m.did.contains i
  let earlier := before.flatMap fun m => (m.ws.zipIdx.filter fun x => open_ m x.2).map (·.1.1)
  xs.filter fun x => open_ l x.1 && !earlier.contains x.2.1 && xs.any fun y => y.2.1 / 4 == x.2.1 / 4 && sel y.1

/-- Writes that an ember's i-th step put off are performed; with the last of them units written whole lose their poison marks (10
Table 10.4), and a hoop's copy counts them from the next cycle on (13 R283). -/
def State.performLate (s : State) (uid i : Nat) (sel : Nat → Bool) : State :=
  match s.emberAt uid with
  | none => s
  | some (p, e) => match e.late[i]? with
    | none => s
    | some l =>
      let js := (l.chosen (e.late.take i) sel).filter fun x => !s.hbmBusy x.2.1
      if js.isEmpty then s
      else
        let did := l.did ++ js.map (·.1)
        let whole := did.length == l.ws.length
        let s := s.setBytes (js.map (·.2))
        let s := if whole then s.healWhole (l.ws.map (·.1)) else s
        let s := s.updEmber p fun e => { e with late := if whole then e.late.eraseIdx i else setAt e.late i { l with did := did } }
        let s := match p with
          | .live core slot => s.updQuad (core / 4) fun q => { q with
              copies := q.copies.map fun (r : CopyRun) => if r.core = core ∧ r.slot = slot then { r with countAt := s.now } else r }
          | .saved _ _ _ => s
        (match l.unit with | some u => s.noteUnit uid u | none => s).drained uid

/-- All that an ember put off is performed, in the order of its steps. -/
def State.flushLate (s : State) (uid : Nat) : State :=
  match s.emberAt uid with
  | none => s
  | some (_, e) => e.late.foldl (fun s _ => s.performLate uid 0 fun _ => true) s

/-- Whether an ember has put off writes. -/
def State.hasLate (s : State) (uid : Nat) : Bool :=
  match s.emberAt uid with
  | some (_, e) => !e.late.isEmpty
  | none => false

/-- Whether an engine has read a byte for a unit of its ember. -/
def Ember.holds (e : Ember) (u va : Nat) : Bool := e.snap.any fun x => x.1 == u && x.2.1 == va
/-- The bytes that an engine has not yet read for a unit of its ember. -/
def Ember.unread (e : Ember) (u : Nat) (vas : List Nat) : List Nat := vas.filter fun va => !e.holds u va
/-- A unit has used what its engine has read for it. -/
def Ember.used (e : Ember) (u : Nat) : Ember := { e with snap := e.snap.filter fun x => x.1 != u }

/-- A byte as an engine reads it for a unit: as it has read it ahead, else from memory. -/
def State.heldRead (s : State) (core : Nat) (tlb : List Xlat) (e : Ember) (u va : Nat) : Byte :=
  match e.snap.find? fun x => x.1 == u && x.2.1 == va with
  | some x => x.2.2
  | none => s.engRead core e.vat tlb va

/-- Bytes that may be read ahead, those of a selection with the whole of their aligned 4-byte units: readable, not poisoned, not waiting
for a stack that recalibrates. -/
def State.aheadBytes (s : State) (core vat : Nat) (tlb : List Xlat) (vas : List Nat) (sel : Nat) : List (Nat × Byte) :=
  let us := (vas.zipIdx.filter fun x => sel.testBit x.2).map (·.1 / 4)
  (vas.filter fun va => us.contains (va / 4) && !s.engHeld core vat tlb [va] [] && match s.engByte core vat tlb false va with
    | .ok l => !s.isBad l
    | _ => false).map fun va => (va, s.engRead core vat tlb va)

/-- An ember's engine reads bytes of a unit ahead; under a row group's lock only what no update step has locked (14 R321). -/
def State.readAhead (s : State) (p : EPlace) (core : Nat) (tlb : List Xlat) (e : Ember) (u : Nat) (vas : List Nat) (locks : Bool)
    (sel : Nat) : State :=
  let got := (s.aheadBytes core e.vat tlb vas sel).filter fun x => !e.holds u x.1 && !(locks && s.rowLocked core e.vat tlb [x.1])
  s.updEmber p fun x => { x with snap := x.snap ++ got.map fun y => (u, y.1, y.2) }

/-- Bytes of a plain copy's unit that was put off are read only now, those of a selection with the whole of their aligned 4-byte units,
where nothing of them has been written (14 R308, R319); not with .snap, whose lock was held while the unit was read (13 R286). -/
def State.readAgain (s : State) (uid i sel : Nat) : State :=
  match s.emberAt uid with
  | some (.live core slot, e) => match e.late[i]? with
    | some l =>
      let fixed := l.did.map (pick l.src ·)
      let got := (s.aheadBytes core e.vat (s.quad (core / 4)).tlb l.src sel).filter fun x => !fixed.contains x.1
      if e.isSnap then s
      else s.updEmber (.live core slot) fun e => { e with late := setAt e.late i { l with
        ws := l.ws.zipIdx.map fun w => match got.find? fun x => l.src[w.2]? == some x.1 with
          | some x => (w.1.1, x.2)
          | none => w.1 } }
    | none => s
  | _ => s

/-- One part of an engine's step for an ember: writes put off before come before its next step, unless they are put off on. -/
def State.inPart (s : State) (uid : Nat) (part : Part) (rd : Nat → Nat → State) (act : State → State) : State :=
  match part with
  | .whole => if s.hasLate uid then s.flushLate uid else act s
  | .read u sel => rd u sel
  | .defer => { act { s with lag := true } with lag := false }
  | .late i sel => s.performLate uid i sel.testBit
  | .again i sel => s.readAgain uid i sel

/-- The progress word of a running ember. -/
def State.setProg (s : State) (core slot prog : Nat) : State :=
  s.updCore core fun k => match k.ember slot with
    | some e => k.setEmber slot { e with prog := prog }
    | none => k

/-- Whether a cancel accepted in an earlier cycle waits on an ember (11 R229, R237). -/
def Ember.cancelDue (e : Ember) (now : Nat) : Bool := e.cancel && decide (e.cancelAt < now)

/-- Whether a vat is being halted on a core: nothing of it starts there (17 R365). -/
def State.halting (s : State) (vat core : Nat) : Bool := (s.vat vat).halting.contains core

/-- Whether an engine may start an ember (11 R231, R232, R242). -/
def State.canStart (s : State) (core slot : Nat) (kind : Nat) : Bool :=
  match (s.core core).ember slot with
  | some e => e.op.kind == kind && (s.core core).mayStart e && !s.halting e.vat core && !(s.modu (core / 1024)).halted
  | none => false

/-- Whether the engine of a die's collectives and cave updates would start another ember first: one of either kind that it may start,
of a lower priority number (11 R230, R232). -/
def State.outranked (s : State) (core prio : Nat) : Bool :=
  s.cores.any fun k => k.1 / 128 == core / 128 && k.2.live.any fun x =>
    decide (x.2.prio < prio) && !x.2.offered && (s.canStart k.1 x.1 2 || s.canStart k.1 x.1 3)

/-- A field of a block: n bytes from a place, low byte first. -/
def fld (b : List Byte) (lo n : Nat) : Nat := leNat ((b.drop lo).take n)

/-- Legal format specifiers (05 R107, 04 R80, R81). -/
def specOk (v : Nat) : Bool := decide (v / 64 % 2 = 0) && fmtOk (v % 64) && (decide (v < 128) || mxCodeOk (v % 64))
/-- Rotation sizes (12 Table 12.5 byte 5). -/
def rotSize (c : Nat) : Nat := if c = 0 then 0 else 2 ^ (c + 3)
def rotLog (c : Nat) : Nat := if c = 0 then 0 else c + 3
/-- Legal rounding bytes (12 Table 12.5 byte 6). -/
def roundOk (v : Nat) : Bool := decide (v % 8 < 5) && decide (v / 8 < 25)
/-- The mode of a rounding byte with an element's key. -/
def byteMode (v : Nat) (key : BitVec 64) : Mode := rmMode (v % 8) (v / 8) key
/-- Legal swizzle bytes (12 R261, 13 R281); a field above 63 counts only while swizzle is enabled (log entry 107). -/
def swzOk (ctl lo : Nat) : Bool := decide (ctl < 8) && (ctl / 4 % 2 == 0 || decide (lo + (6 - ctl % 4) ≤ 64))
/-- Swizzle (12 R261). -/
def swizzle (ctl lo x : Nat) : Nat :=
  if ctl / 4 % 2 = 0 then x else x ^^^ (x / 2 ^ lo % 2 ^ (6 - ctl % 4) * 2 ^ (4 + ctl % 4))
/-- Bytes of an MX block of 32 elements (04 R90). -/
def mxBlockLen (code : Nat) : Nat := if code = 3 then 17 else 33
/-- Offsets of a paired element: main, residual, and their scales (04 R92). -/
def pairedOffs (n : Nat) : List Nat :=
  let g := 2112 * (n / 1024)
  let i := n % 1024 / 32
  let j := n % 32
  [g + 64 * i + j, g + 64 * i + 32 + j, g + 2048 + i, g + 2080 + i]
/-- The FP32 code of a paired element from its four bytes (04 R92). -/
def pairedCode (main res : Nat) (b : List Byte) : Nat :=
  let v (c q s : Nat) : Val := mxVal (fpOf c) (pick b s : Byte).toNat (pick b q : Byte).toNat
  (fmtF32.result false .rne ((v main 0 2).add .rne (v res 1 3))).1

end Sys2Proof.Machine
end

