-- ==== Sys2Proof/Machine/Rice.lean ====
section
/-! DEFINITION. The Rice codec of the copy engine: CRC-32C, block headers, the decoder and the encoder (13 R287 to
R290). -/

namespace Sys2Proof.Machine

/- CRC-32C (13 R288) -/

def crcBits : Nat → Nat → Nat
  | 0, c => c
  | n + 1, c => crcBits n (if c % 2 = 1 then c / 2 ^^^ 0x82F63B78 else c / 2)
def crc32c (bs : List Byte) : Nat := bs.foldl (fun c b => crcBits 8 (c ^^^ b.toNat)) 0xFFFFFFFF ^^^ 0xFFFFFFFF

/- The mode byte (13 Table 13.5) -/

def riceKind (mode : Nat) : Nat := mode / 64
def riceWidth (mode : Nat) : Nat := if riceKind mode = 0 then 8 else if riceKind mode = 1 then 16 else 32
def riceXor (mode : Nat) : Bool := riceKind mode != 2 && mode.testBit 5
def riceExp (mode : Nat) : Int := sgn 6 (mode % 64)
def riceModeOk (mode : Nat) : Bool := decide (riceKind mode < 2 ∧ mode % 32 = 0) || riceKind mode == 2
/-- Bytes of an element. -/
def riceElem (mode : Nat) : Nat := riceWidth mode / 8

/- Bits, the least significant of each byte first -/

def bitsOf (bs : List Byte) : List Bool := bs.flatMap fun b => (List.range 8).map b.toNat.testBit
def bitsNat : List Bool → Nat
  | [] => 0
  | b :: t => b.toNat + 2 * bitsNat t
def natBits (n v : Nat) : List Bool := (List.range n).map v.testBit
def readBits (k : Nat) (l : List Bool) : Option (Nat × List Bool) :=
  if l.length < k then none else some (bitsNat (l.take k), l.drop k)
/-- The number of ones before a zero, stopping at the fuel. -/
def unary : Nat → List Bool → Option (Nat × List Bool)
  | 0, l => some (0, l)
  | _ + 1, [] => none
  | _ + 1, false :: t => some (0, t)
  | f + 1, true :: t => (unary f t).map fun x => (x.1 + 1, x.2)

def unzigzag (u : Nat) : Int := if u % 2 = 0 then (u / 2 : Nat) else -(((u + 1) / 2 : Nat) : Int)
def zigzag (d : Int) : Nat := if 0 ≤ d then 2 * d.toNat else 2 * (-d).toNat - 1

/-- RNE to FP32 of v * 2^e; +0 for v = 0 (13 R289). -/
def riceF32 (v e : Int) : Nat := if v = 0 then 0 else (fmtF32.round false .rne (decide (v < 0)) v.natAbs 1 e).1

/-- DecodeBlock of 13 R289: i elements decoded, prev, the elements still to decode. -/
def decodeElems (mode : Nat) (ks : List Nat) : Nat → Nat → Int → List Bool → Option (List Byte)
  | 0, _, _, _ => some []
  | n + 1, i, prev, bits =>
    let k := pick ks (i / 64)
    let w := riceWidth mode
    let put (v : Int) (bits : List Bool) : Option (List Byte) :=
      if riceKind mode = 2 then (decodeElems mode ks n (i + 1) v bits).map (leBytes 4 (riceF32 v (riceExp mode)) ++ ·)
      else
        let v := v % (2 ^ w : Nat)
        (decodeElems mode ks n (i + 1) v bits).map (leBytes (w / 8) v.toNat ++ ·)
    let use (u : Nat) (bits : List Bool) : Option (List Byte) :=
      put (if riceXor mode then ((prev.toNat ^^^ u : Nat) : Int) else prev + unzigzag u) bits
    match unary 24 bits with
    | none => none
    | some (q, bits) =>
      if q = 24 then
        if riceKind mode = 2 then
          match readBits 1 bits with
          | some (1, bits) => match readBits 32 bits with
            | some (x, bits) => (decodeElems mode ks n (i + 1) prev bits).map (leBytes 4 x ++ ·)
            | none => none
          | some (_, bits) => match readBits w bits with
            | some (u, bits) => use u bits
            | none => none
          | none => none
        else match readBits w bits with
          | some (u, bits) => use u bits
          | none => none
      else match readBits k bits with
        | some (r, bits) => use (q * 2 ^ k + r) bits
        | none => none

/-- Bytes of a block after its header (13 Table 13.4). -/
def riceLen (hdr : List Byte) : Nat := leNat ((hdr.drop 4).take 2)

/-- A block from its header on, with the bytes left under the codec limit: raw bytes, coded bytes with padding to 16,
whether the CRC matches; none where it fails to decode (13 R288, R289). -/
def decodeBlock (buf : List Byte) (left : Nat) : Option (List Byte × Nat × Bool) :=
  let f (lo n : Nat) : Nat := leNat ((buf.drop lo).take n)
  let mode := f 1 1
  let raw := f 2 2
  let stop := 16 + f 4 2
  let ptr := f 6 2
  let n := raw / riceElem mode
  let g := (n + 63) / 64
  let tab := (buf.drop ptr).take ((g + 1) / 2)
  if left < 16 ∨ f 0 1 ≠ 0xC4 ∨ riceModeOk mode = false ∨ f 8 4 ≠ 0 ∨ raw = 0 ∨ 4096 < raw ∨ raw % riceElem mode ≠ 0 ∨ ptr < 16
    ∨ ptr + (g + 1) / 2 ≠ stop ∨ left < stop ∨ buf.length < stop ∨ (g % 2 = 1 ∧ 16 ≤ leNat (tab.drop (g / 2))) then none
  else
    let ks := (List.range g).map fun j => (pick tab (j / 2) : Byte).toNat / 16 ^ (j % 2) % 16
    (decodeElems mode ks n 0 0 (bitsOf ((buf.drop 16).take (ptr - 16)))).map fun out =>
      (out, (stop + 15) / 16 * 16, crc32c out == f 12 4)

/- The encoder (13 R290) -/

/-- One element: escaped with flag 1 or not, and u or the 32-bit pattern. -/
structure RiceItem where
  esc : Bool
  u : Nat
  deriving DecidableEq, Repr, Inhabited

/-- u of every element, and the bytes the block decodes to. -/
def riceItems (mode : Nat) : Int → List Nat → List RiceItem × List Byte
  | _, [] => ([], [])
  | prev, x :: xs =>
    let w := riceWidth mode
    let next (it : RiceItem) (p : Int) (bs : List Byte) : List RiceItem × List Byte :=
      let r := riceItems mode p xs
      (it :: r.1, bs ++ r.2)
    if riceKind mode ≠ 2 then
      let u := if riceXor mode then x ^^^ prev.toNat else zigzag (sgn w (((x : Int) - prev) % (2 ^ w : Nat)).toNat)
      next ⟨false, u⟩ x (leBytes (w / 8) x)
    else match fmtF32.dec x with
      | .fin neg m e =>
        let a := (roundInt .rne neg m (e - riceExp mode)).1
        let v : Int := if neg then -(a : Int) else a
        if a < 2 ^ 30 then next ⟨false, zigzag (v - prev)⟩ v (leBytes 4 (riceF32 v (riceExp mode)))
        else next ⟨true, x⟩ prev (leBytes 4 x)
      | _ => next ⟨true, x⟩ prev (leBytes 4 x)

/-- The bits of an element under a k. -/
def riceBits (mode k : Nat) (it : RiceItem) : List Bool :=
  if it.esc then List.replicate 24 true ++ [true] ++ natBits 32 it.u
  else if it.u / 2 ^ k < 24 then List.replicate (it.u / 2 ^ k) true ++ [false] ++ natBits k it.u
  else List.replicate 24 true ++ (if riceKind mode = 2 then [false] else []) ++ natBits (riceWidth mode) it.u

/-- The smallest k of fewest coded bits. -/
def riceK (mode : Nat) (g : List RiceItem) : Nat :=
  let cost (k : Nat) : Nat := g.foldl (fun n it => n + (riceBits mode k it).length) 0
  (List.range 16).foldl (fun b k => if cost k < cost b then k else b) 0

/-- A list cut into groups of n, the last one shorter. -/
def groupsOf {α : Type} (n : Nat) (l : List α) : List (List α) := (List.range ((l.length + n - 1) / n)).map fun j => (l.drop (n * j)).take n

/-- Bits packed into bytes, the last padded with zeros. -/
def packBits (l : List Bool) : List Byte := (groupsOf 8 l).map fun g => BitVec.ofNat 8 (bitsNat g)

/-- A coded block of at most 4,096 raw bytes, with its zero padding to 16 bytes (13 R287, R290). -/
def encodeBlock (mode : Nat) (raw : List Byte) : List Byte :=
  let xs := (groupsOf (riceElem mode) raw).map leNat
  let its := riceItems mode 0 xs
  let gs := groupsOf 64 its.1
  let ks := gs.map (riceK mode)
  let stream := packBits ((gs.zip ks).flatMap fun x => x.1.flatMap (riceBits mode x.2))
  let tab := packBits (ks.flatMap (natBits 4))
  let hdr := leBytes 1 0xC4 ++ leBytes 1 mode ++ leBytes 2 raw.length ++ leBytes 2 (stream.length + tab.length)
    ++ leBytes 2 (16 + stream.length) ++ leBytes 4 0 ++ leBytes 4 (crc32c its.2)
  let blk := hdr ++ stream ++ tab
  blk ++ List.replicate ((16 - blk.length % 16) % 16) 0

end Sys2Proof.Machine
end

