-- ==== Sys2Proof/Machine/Copy.lean ====
section
/-! DEFINITION. The copy engine of a quad (13 R276 to R290): descriptors, start checks, chunks and coded blocks, hoop and
byte-barrier targets, stops; hoop slots that become empty and arrivals that byte barriers apply (R296, R301). -/

namespace Sys2Proof.Machine

/-- A copy descriptor (13 Table 13.2). -/
structure Desc13 where
  sa : Nat := 0
  da : Nat := 0
  ns : List Nat := []
  ss : List Int := []
  ds : List Int := []
  c : Nat := 16
  ctl : Nat := 0
  swz : Nat := 0
  mc : Nat := 0
  mode : Nat := 0
  exp : Int := 0
  limit : Nat := 0
  deriving DecidableEq, Repr, Inhabited

def copyDesc (b : List Byte) : Desc13 :=
  { sa := fld b 0 8, da := fld b 8 8, ns := (List.range 6).map fun k => fld b (16 + 2 * k) 2,
    ss := (List.range 6).map fun k => sgn 48 (fld b (28 + 6 * k) 6),
    ds := (List.range 6).map fun k => sgn 48 (fld b (64 + 6 * k) 6),
    c := fld b 100 2, ctl := fld b 102 1, swz := fld b 103 1, mc := fld b 104 1, mode := fld b 105 1,
    exp := sgn 8 (fld b 106 1), limit := fld b 112 8 }

def Desc13.target (d : Desc13) : Bool := d.ctl.testBit 0
def Desc13.codec (d : Desc13) : Bool := d.ctl.testBit 1
def Desc13.enc (d : Desc13) : Bool := d.codec && d.ctl.testBit 2
def Desc13.dec (d : Desc13) : Bool := d.codec && !d.ctl.testBit 2
def Desc13.swizzled (d : Desc13) : Bool := d.ctl.testBit 3
def Desc13.cast (d : Desc13) : Bool := d.mc % 4 != 0
def Desc13.chunks (d : Desc13) : Nat := d.ns.foldl (· * ·) 1
/-- Raw bytes of the whole nest. -/
def Desc13.total (d : Desc13) : Nat := d.chunks * d.c

/-- The address of chunk q on a side, before reduction modulo 2^64 (13 R279). -/
def nestAt (base : Nat) (ns : List Nat) (ss : List Int) (q : Nat) : Int :=
  ((ns.zip ss).foldl (fun (x : Int × Nat) (y : Nat × Int) => (x.1 + (x.2 % y.1 : Nat) * y.2, x.2 / y.1)) ((base : Int), q)).1
/-- An address modulo 2^64. -/
def wrap64 (i : Int) : Nat := (i % (2 ^ 64 : Nat)).toNat

/-- The lowest and highest chunk address of a side: by the strides' signs where no address wraps, else over every
chunk (13 R280). -/
def nestSpan (base : Nat) (ns : List Nat) (ss : List Int) (chunks : Nat) : Nat × Nat :=
  let ends := (ns.zip ss).map fun x => ((x.1 - 1 : Nat) : Int) * x.2
  let lo := ends.foldl (fun a e => a + min 0 e) (base : Int)
  let hi := ends.foldl (fun a e => a + max 0 e) (base : Int)
  if 0 ≤ lo ∧ hi < (2 ^ 64 : Nat) then (lo.toNat, hi.toNat)
  else Nat.fold chunks (fun q _ (x : Nat × Nat) => let a := wrap64 (nestAt base ns ss q); (min x.1 a, max x.2 a)) (base, base)

/-- The interval of a side: first and last byte; none for the codec's linear side with a limit of 0. -/
def Desc13.interval (d : Desc13) (dst : Bool) : Option (Nat × Nat) :=
  let base := if dst then d.da else d.sa
  if (if dst then d.enc else d.dec) then (if d.limit = 0 then none else some (base, base + d.limit - 1))
  else
    let (lo, hi) := nestSpan base d.ns (if dst then d.ds else d.ss) d.chunks
    let hi := hi + d.c - 1
    if dst && d.swizzled then some (lo / 1024 * 1024, hi / 1024 * 1024 + 1023) else some (lo, hi)

/-- The first row of 13 Table 13.3. -/
def copyBad (b : List Byte) (bb : Bool) : Bool :=
  let d := copyDesc b
  let e6 := riceExp d.mode
  (List.range 5).any (fun j => fld b (107 + j) 1 != 0) || fld b 120 8 != 0 || decide (16 ≤ d.ctl) || d.mc / 4 % 4 != 0 || d.mc % 4 == 3
  || d.ns.contains 0 || decide (d.c < 16) || decide (4096 < d.c)
  || (d.cast && (d.mc / 16 == 0 || (d.target && !bb) || (match d.interval true with | some x => decide (2 ^ 20 ≤ x.2) | none => false)))
  || (d.swizzled && (d.enc || decide (64 < d.swz / 4 + (6 - d.swz % 4))))
  || (d.dec && d.ss.any (· != 0)) || (d.enc && d.ds.any (· != 0))
  || (!d.codec && d.limit != 0) || (!d.enc && d.mode != 0) || (d.enc && (!riceModeOk d.mode || d.total % riceElem d.mode != 0))
  || d.exp != (if d.enc && riceKind d.mode == 2 then e6 else 0)

/-- The first byte of an interval with no translation, or with no right (13 R280, Table 13.3). -/
def State.engInterval (s : State) (core vat : Nat) (tlb : List Xlat) (wr : Bool) (lo hi : Nat) : Option Nat × Option Nat :=
  match regionOf lo with
  | none => (some lo, none)
  | some (reg, last) =>
    if last < hi then (some (last + 1), none)
    else match reg with
    | .glob =>
      let xs := (s.pieces tlb vat lo (hi - lo + 1)).map fun a => (a, s.engByte core vat tlb wr a)
      ((xs.find? (·.2.isMiss)).map (·.1), (xs.find? (·.2.isPerm)).map (·.1))
    | r => if s.coreAbsent (regionCore core r) then (some lo, none) else (none, none)

/-- The scratchpads a multicast copy writes (13 R282, 20 R423). -/
def State.castCores (s : State) (core : Nat) (d : Desc13) : List Nat :=
  let quads := if d.mc % 4 = 1 then [core / 4] else (List.range 32).map (· + core / 128 * 32)
  (quads.flatMap fun q => (List.range 4).map (· + 4 * q)).filter fun k => (d.mc / 16).testBit (k % 4) && !s.coreAbsent k

/-- The target of a copy: a hoop or a byte barrier, and its number (13 R277). -/
def Ember.copyTarget (e : Ember) : Bool × Nat := match e.op with | .copy t bb _ => (bb, t) | _ => (false, 0)

/-- HOOP_RANGE of 13 Table 13.3. -/
def State.targetBad (s : State) (core : Nat) (e : Ember) (d : Desc13) : Bool :=
  let q := s.quad (core / 4)
  let (bb, i) := e.copyTarget
  if bb then let b := (q.bb i).cur; b.owner.isSome && b.owner != some e.vat
  else
    let h := (q.hoop i).cur
    h.owner != some e.vat || match d.interval true with
      | none => false
      | some (lo, hi) => match regionOf lo with
        | some (.glob, _) => true
        | none => true
        | some (_, last) => decide (last < hi) || decide (spadAddr core lo < h.base) || decide (h.base + h.slots * h.slotSize ≤ spadAddr core lo + (hi - lo))

/-- Whether a walk that a copy's check at its start needs waits for a stack that recalibrates (20 R424). -/
def State.copyHeld (s : State) (core : Nat) (e : Ember) : Bool :=
  s.recal && [false, true].any fun dst => match (copyDesc e.cmd).interval dst with
    | some (lo, hi) => decide (2 ^ 32 ≤ lo) && decide (hi < 2 ^ 56) && (pagesOf lo (hi - lo + 1)).any fun p =>
        (tlbFind (s.quad (core / 4)).tlb e.vat (p * 4096)).isNone && s.walkHeld e.vat (p * 4096)
    | none => false

/-- The fault of a copy at its start (13 Table 13.3, in its order); of two sides with the same fault the source is recorded (log
entry 109). -/
def State.copyFault (s : State) (core : Nat) (e : Ember) : Option (Nat × Nat) :=
  let d := copyDesc e.cmd
  let tlb := (s.quad (core / 4)).tlb
  if copyBad e.cmd e.copyTarget.1 then some (cRANGE, 0)
  else if d.target && s.targetBad core e d then some (cHOOP, d.da)
  else
    let side (dst : Bool) : Option Nat × Option Nat :=
      if dst && d.cast then (none, none)
      else match d.interval dst with
        | none => (none, none)
        | some x => s.engInterval core e.vat tlb dst x.1 x.2
    let a := side false
    let b := side true
    match a.1.orElse fun _ => b.1 with
    | some x => some (cMISS, x)
    | none => match a.2.orElse fun _ => b.2 with
      | some x => some (cPERM, x)
      | none =>
        if d.dec && d.sa % 16 != 0 then some (cALIGN, d.sa) else if d.enc && d.da % 16 != 0 then some (cALIGN, d.da) else none

/-- Whether one startable ember comes before another (13 R276): priority, then issue, then COREID. -/
def startsBefore (a b : Nat × Ember) : Bool :=
  let ka := [a.2.prio, a.2.issued, a.1, a.2.order]
  let kb := [b.2.prio, b.2.issued, b.1, b.2.order]
  decide (ka < kb)

/-- COPY_START (13 R276, R278 to R284); a copy whose record an error struck ends (11 R250). -/
def execCopyStart (quad core slot : Nat) (s : State) : Host.Outcome State Fault Refusal :=
  let q := s.quad quad
  if s.issue.active || core / 4 != quad || decide (8 ≤ q.copies.length) || !s.canStart core slot 1 then .next s
  else match (s.core core).ember slot with
  | none => .next s
  | some e =>
    let rivals := (List.range 4).flatMap fun j => ((s.core (4 * quad + j)).live.filter fun x => s.canStart (4 * quad + j) x.1 1).map
      fun x => (4 * quad + j, x.2)
    if (rivals.any fun x => startsBefore x (core, e)) || s.copyHeld core e then .next s
    else
      let fault := if e.struck then some (cQUEUE, 0) else s.copyFault core e
      let s := s.beginEmber core slot
      match fault with
      | some f => .next (s.finishEmber core slot .faulted f.1 f.2 0)
      | none =>
        let (bb, i) := e.copyTarget
        let b := ((s.quad quad).bb i).cur
        let s := if (copyDesc e.cmd).target && bb && b.owner.isNone then s.putBb quad i { b with owner := some e.vat } else s
        .next (s.updQuad quad fun q => { q with copies := q.copies ++ [{ core := core, slot := slot }] })

/- Targets -/

/-- The slot of a hoop's ring that holds a location. -/
def Hoop.slotOf (h : Hoop) (loc : Nat) : Option Nat :=
  if h.base ≤ loc ∧ loc < h.base + h.slots * h.slotSize then some ((loc - h.base) / h.slotSize) else none

/-- Bytes counted into a hoop (13 R292); those beyond the slot's size, which a decoded block may write, are not counted (log entry 125). -/
def Hoop.count (h : Hoop) (locs : List Nat) : Hoop :=
  locs.foldl (fun h l => match h.slotOf l with
    | none => h
    | some i =>
      if h.slotSt i ≠ .empty then h
      else
        let n := tget h.cnt i + 1
        { h with cnt := tset h.cnt i n, st := if n = h.slotSize then tset h.st i .filled else h.st }) h

/-- The copies of a quad with one changed. -/
def Quad.putCopy (q : Quad) (r : CopyRun) : Quad :=
  { q with copies := q.copies.map fun x => if x.core = r.core ∧ x.slot = r.slot then r else x }
/-- A copy leaves its place and its ember ends, or waits while something keeps it open (17 R378). -/
def State.copyEnd (s : State) (r : CopyRun) (st : EState) (cause addr : Nat) : State :=
  let e := ((s.core r.core).ember r.slot).getD default
  let s := s.updQuad (r.core / 4) fun q => { q with copies := q.copies.filter fun x => !(x.core == r.core && x.slot == r.slot) }
  if s.emberOpen e then s.emberEnd e.uid st cause addr r.unit else s.finishEmber r.core r.slot st cause addr r.unit

/-- Bytes reach the target of an ember (13 R283, R300); false where a byte barrier overflows. -/
def State.countBytes (s : State) (core : Nat) (e : Ember) (locs : List Nat) : State × Bool :=
  let quad := core / 4
  let (bb, i) := e.copyTarget
  if locs.isEmpty then (s, true)
  else if bb then
    let b := ((s.quad quad).bb i).cur
    match b.arrive locs.length with
    | some b' => (s.putBb quad i { b' with lastAt := some (s.now, 3) }, true)
    | none => (s.putBb quad i { b with broken := true, lastAt := some (s.now, 3) }, false)
  else (s.putHoop quad i (((s.quad quad).hoop i).cur.count locs), true)

/- Units -/

/-- The source address of raw byte r, and its destination before swizzle. -/
def Desc13.srcOf (d : Desc13) (r : Nat) : Nat := (wrap64 (nestAt d.sa d.ns d.ss (r / d.c)) + r % d.c) % 2 ^ 64
def Desc13.dstOf (d : Desc13) (r : Nat) : Nat :=
  let x := (wrap64 (nestAt d.da d.ns d.ds (r / d.c)) + r % d.c) % 2 ^ 64
  if d.swizzled then swizzle (4 + d.swz % 4) (d.swz / 4) x else x

/-- What preparing a unit gives: a fault, or the unit. -/
inductive Unit13 where
  | fault (cause addr : Nat)
  | ok (r : CopyRun)
  deriving DecidableEq, Repr, Inhabited

/-- The faults of the bytes a unit still reads: fresh translations (17 R375), then poison, by unit (13 Table 13.3). -/
def State.copyReadFault (s : State) (core vat : Nat) (vas : List Nat) : Option (Nat × Nat) :=
  let tlb := (s.quad (core / 4)).tlb
  match s.engCheck core vat tlb vas [] with
  | some f => some f
  | none => (s.engPoison core vat tlb vas).map fun a => (cPOISON, a / 32 * 32)

/-- A chunk without the codec (13 R279). -/
def State.prepChunk (s : State) (r : CopyRun) (e : Ember) (d : Desc13) : Unit13 :=
  let vas := (List.range d.c).map fun j => d.srcOf (r.unit * d.c + j)
  match s.copyReadFault r.core e.vat (e.unread r.unit vas) with
  | some f => .fault f.1 f.2
  | none =>
    let tlb := (s.quad (r.core / 4)).tlb
    .ok { r with wrote := false, uaddr := wrap64 (nestAt d.da d.ns d.ds r.unit),
                 todo := some (vas.zipIdx.map fun x => (d.dstOf (r.unit * d.c + x.2), s.heldRead r.core tlb e r.unit x.1)) }

/-- A block to encode (13 R287, R290). The unit's address, that of a BB_OVERFLOW, is the block's own (log entry 126). -/
def State.prepEncode (s : State) (r : CopyRun) (e : Ember) (d : Desc13) : Unit13 :=
  let n := min 4096 (d.total - r.raw)
  let vas := (List.range n).map fun j => d.srcOf (r.raw + j)
  match s.copyReadFault r.core e.vat (e.unread r.unit vas) with
  | some f => .fault f.1 f.2
  | none =>
    let blk := encodeBlock d.mode (vas.map (s.heldRead r.core (s.quad (r.core / 4)).tlb e r.unit))
    if d.limit < r.coded + blk.length then .fault cRANGE (d.da + d.limit)
    else .ok { r with wrote := false, uaddr := d.da + r.coded, after := (r.coded + blk.length, r.raw + n),
                      todo := some (blk.zipIdx.map fun (x : Byte × Nat) => (d.da + r.coded + x.2, x.1)) }

/-- A block to decode (13 R287 to R289). The unit's address, that of a BB_OVERFLOW, is the address of the chunk in which the block starts
(log entry 126). -/
def State.prepDecode (s : State) (r : CopyRun) (e : Ember) (d : Desc13) : Unit13 :=
  let at_ := d.sa + r.coded
  let left := d.limit - r.coded
  let crc : Unit13 := .fault cCRC at_
  let tlb := (s.quad (r.core / 4)).tlb
  if left < 16 then crc
  else
    let hdrAt := (List.range 16).map (· + at_)
    match s.copyReadFault r.core e.vat (e.unread r.unit hdrAt) with
    | some f => .fault f.1 f.2
    | none =>
      let hdr := hdrAt.map (s.heldRead r.core tlb e r.unit)
      let vas := (List.range (min left (16 + riceLen hdr))).map (· + at_)
      match s.copyReadFault r.core e.vat (e.unread r.unit vas) with
      | some f => .fault f.1 f.2
      | none =>
        match decodeBlock (vas.map (s.heldRead r.core tlb e r.unit)) left with
        | none => crc
        | some (out, len, good) =>
          if d.total < r.raw + out.length then crc
          else .ok { r with wrote := false, uaddr := wrap64 (nestAt d.da d.ns d.ds (r.raw / d.c)), hdr := at_, crcBad := !good,
                            after := (r.coded + len, r.raw + out.length),
                            todo := some (out.zipIdx.map fun (x : Byte × Nat) => (d.dstOf (r.raw + x.2), x.1)) }

/-- The bytes of a unit that may be written now: all of them, or those before the first whose slot is FILLED or RELEASING,
or whose slot has reached its size (13 R292). pend counts the unit's own bytes by slot; it is not kept by a decoder, which counts
a block at its end. -/
def writable (h : Option (Hoop × Hoop)) (track : Bool) (loc : Nat → Nat) : Tbl Nat → List (Nat × Byte) → Nat
  | _, [] => 0
  | pend, (a, _) :: t =>
    match h with
    | none => 1 + writable h track loc pend t
    | some (cur, seen) =>
      match cur.slotOf (loc a) with
      | none => 1 + writable h track loc pend t
      | some i =>
        let n := tget pend i
        if cur.slotSt i ≠ .empty ∨ (seen.owner.isSome ∧ seen.slotSt i ≠ .empty) ∨ (track ∧ cur.slotSize ≤ tget cur.cnt i + n) then 0
        else 1 + writable h track loc (if track then tset pend i (n + 1) else pend) t

/-- The hoop a copy targets, now and as seen. -/
def State.copyHoop (s : State) (core : Nat) (e : Ember) (d : Desc13) : Option (Hoop × Hoop) :=
  if d.target && !e.copyTarget.1 then
    let h := (s.quad (core / 4)).hoop e.copyTarget.2
    some (h.cur, h.seen s.now)
  else none

/-- How many bytes of a copy's unit may be written now. -/
def State.copyRoom (s : State) (r : CopyRun) (e : Ember) (d : Desc13) (l : List (Nat × Byte)) : Nat :=
  let h := s.copyHoop r.core e d
  if h.isNone then l.length
  else writable h (!d.dec) (fun a => spadAddr r.core a) [] l

/-- A copy at a boundary (13 R285). -/
def CopyRun.atBoundary (r : CopyRun) : Bool := (r.todo.isNone || !r.wrote) && r.uncounted.isEmpty

/-- The source bytes of a copy's unit that comes u units after the one it stands at: of a coded block those its header tells of, where
it stands at that block (13 R279, R287). -/
def State.unitSource (s : State) (r : CopyRun) (e : Ember) (d : Desc13) (u : Nat) : List Nat :=
  if d.dec then
    if u ≠ 0 then []
    else
      let left := d.limit - r.coded
      let hdr := (List.range (min left 16)).map fun j => s.heldRead r.core (s.quad (r.core / 4)).tlb e r.unit (d.sa + r.coded + j)
      (List.range (min left (16 + riceLen hdr))).map (· + (d.sa + r.coded))
  else if d.enc then (List.range (min 4096 (d.total - (r.raw + 4096 * u)))).map fun j => d.srcOf (r.raw + 4096 * u + j)
  else if d.chunks ≤ r.unit + u then []
  else (List.range d.c).map fun j => d.srcOf ((r.unit + u) * d.c + j)
/-- The source bytes of the unit that a copy stands at which it has not read. -/
def State.unitUnread (s : State) (r : CopyRun) (e : Ember) (d : Desc13) : List Nat := e.unread r.unit (s.unitSource r e d 0)
/-- Whether a unit read with .snap touches a row group under lock (13 R286). -/
def State.unitLocked (s : State) (r : CopyRun) (e : Ember) (d : Desc13) : Bool :=
  e.isSnap && s.rowLocked r.core e.vat (s.quad (r.core / 4)).tlb (s.unitUnread r e d)

/-- Whether a unit of a copy waits for a stack that recalibrates (20 R424). -/
def State.unitHeld (s : State) (r : CopyRun) (e : Ember) (d : Desc13) : Bool :=
  s.recal && match r.todo with
    | none => s.engHeld r.core e.vat (s.quad (r.core / 4)).tlb (s.unitUnread r e d) []
    | some l => !d.cast && s.engHeld r.core e.vat (s.quad (r.core / 4)).tlb [] (l.map (·.1))

/-- Whether a copy can advance: begun in an earlier cycle (11 R229), bytes to write, not held, not halted at a boundary, no lock in
its way (13 R276, R286, 17 R366). -/
def State.copyReady (s : State) (r : CopyRun) : Bool :=
  match (s.core r.core).ember r.slot with
  | none => false
  | some e =>
    r.uncounted.isEmpty && !e.allDone && !e.fresh s.now && !(s.halting e.vat r.core && r.atBoundary)
    && !s.unitHeld r e (copyDesc e.cmd) && match r.todo with
      | none => !s.unitLocked r e (copyDesc e.cmd)
      | some l => l.isEmpty || s.copyRoom r e (copyDesc e.cmd) l != 0

/-- Whether the engine's choice falls on a copy: none has a lower priority number, and it is the first of its equals in the
engine's rotation (13 R276); one copy advances in a cycle. -/
def State.copyChosen (s : State) (quad : Nat) (r : CopyRun) : Bool :=
  let q := s.quad quad
  let prio (x : CopyRun) : Nat := (((s.core x.core).ember x.slot).getD default).prio
  let ready := q.copies.filter s.copyReady
  q.copyAt != some s.now && match (ready.filter fun x => ready.all fun y => decide (prio x ≤ prio y)).head? with
    | some x => x.core == r.core && x.slot == r.slot
    | none => false

/-- A unit is written and counted: the next one, the end for an error that struck its record (11 R250), the stop for a cancel, or
the end. -/
def State.unitDone (s : State) (r : CopyRun) (e : Ember) (d : Desc13) : State :=
  let r := { r with unit := r.unit + 1, todo := none, wrote := false, uncounted := [],
                    coded := if d.codec then r.after.1 else r.coded, raw := if d.codec then r.after.2 else r.raw }
  let s := (s.setProg r.core r.slot r.unit).updQuad (r.core / 4) (·.putCopy r)
  if e.struck then s.copyEnd r .faulted cQUEUE 0
  else if e.cancelDue s.now then s.copyEnd r .cancelled cCANCEL 0
  else if (if d.codec then r.raw == d.total else r.unit == d.chunks) then s.copyEnd r .done 0 0
  else s

/-- The bytes written before are counted (13 R283): a block whose CRC does not match never is (R289). -/
def State.countUnit (s : State) (r : CopyRun) (e : Ember) (d : Desc13) : State :=
  let x := if d.target then s.countBytes r.core e r.uncounted else (s, true)
  if !x.2 then x.1.copyEnd r .faulted cBBOVF r.uaddr
  else if r.todo == some [] then x.1.unitDone r e d
  else x.1.updQuad (r.core / 4) (·.putCopy { r with uncounted := [] })

/-- The source addresses of the next n bytes of a chunk that are still to be written; a coded block has none of its own for each byte. -/
def CopyRun.sources (r : CopyRun) (d : Desc13) (left n : Nat) : List Nat :=
  if d.codec then [] else (List.range n).map fun j => d.srcOf (r.unit * d.c + (d.c - left) + j)

/-- Bytes written at every destination of a copy: their locations where performed. -/
def State.copyWrite (s : State) (r : CopyRun) (e : Ember) (d : Desc13) (ws : List (Nat × Byte)) (src : List Nat) : State × List Nat :=
  if d.cast then
    let ks := s.castCores r.core d
    let all := ks.flatMap fun k => ws.map fun w => (spadLoc k (w.1 % 2 ^ 20), w.2)
    (s.perform e.uid (if d.target then some r.unit else none) all (ks.flatMap fun _ => src), ws.map (·.1))
  else
    let tlb := (s.quad (r.core / 4)).tlb
    let locs := ws.filterMap fun w => match s.engByte r.core e.vat tlb true w.1 with | .ok l => some l | _ => none
    (s.engWrite r.core e.uid e.vat tlb ws (if d.target then some r.unit else none) src, locs)

/-- Whether a byte of a unit lands on a page that is not resident. -/
def State.unitParks (s : State) (r : CopyRun) (e : Ember) (d : Desc13) (ws : List (Nat × Byte)) : Bool :=
  !d.cast && ws.any fun w => (s.engByte r.core e.vat (s.quad (r.core / 4)).tlb true w.1).isPark

/-- Bytes of the current unit are written as far as the hoop lets them (13 R279, R292). A unit that a byte barrier counts and of which a
byte is parked or put off is owed: it is counted in the cycle after the last of these bytes is performed (R283, 17 R378). -/
def State.writeUnit (s : State) (r : CopyRun) (e : Ember) (d : Desc13) : State :=
  match r.todo with
  | none => s
  | some l =>
    let quad := r.core / 4
    let n := s.copyRoom r e d l
    let ws := l.take n
    if s.unitHeld r e d then s
    else match if d.cast then none else s.engCheck r.core e.vat (s.quad quad).tlb [] (ws.map (·.1)) with
    | some f => s.copyEnd r .faulted f.1 f.2
    | none =>
      let owes := d.target && (s.unitParks r e d ws || (s.lag && e.copyTarget.1))
      let (s, locs) := s.copyWrite r e d ws (r.sources d l.length n)
      let r := { r with todo := some (l.drop n), wrote := r.wrote || n != 0 }
      let s := s.updQuad quad fun q => { q with
        copyAt := some s.now,
        copies := (q.copies.filter fun x => !(x.core == r.core && x.slot == r.slot)) ++ [r] }
      let whole := r.todo == some []
      if whole && d.dec && r.crcBad then s.copyEnd r .faulted cCRC r.hdr
      else if whole && !d.target then s.unitDone r e d
      else if whole && owes then
        ((s.updEmber (.live r.core r.slot) fun x => { x with owed := x.owed ++ [{ unit := r.unit, n := r.pend.length + l.length, addr := r.uaddr }] }).noteUnit
          e.uid r.unit).unitDone { r with pend := [] } e d
      else if d.dec then
        s.updQuad quad (·.putCopy { r with
          pend := if whole then [] else r.pend ++ locs, uncounted := if whole then r.pend ++ locs else [], countAt := s.now })
      else s.updQuad quad (·.putCopy { r with uncounted := locs, countAt := s.now })

/-- What a copy has read ahead for the unit that it has now prepared goes. -/
def State.clearAhead (s : State) (r : CopyRun) (e : Ember) : State :=
  if e.snap.isEmpty then s else s.updEmber (.live r.core r.slot) (·.used r.unit)

/-- A copy reads bytes ahead, of the unit it stands at until that is prepared, or of a later one whose place it knows; of a
coded block of the unit it stands at alone (13 R287). -/
def State.copyAhead (s : State) (r : CopyRun) (e : Ember) (u sel : Nat) : State :=
  let d := copyDesc e.cmd
  if e.allDone || e.fresh s.now || (s.halting e.vat r.core && r.atBoundary) || (u == 0 && r.todo.isSome) then s
  else s.readAhead (.live r.core r.slot) r.core (s.quad (r.core / 4)).tlb e (r.unit + u) (s.unitSource r e d u) e.isSnap sel

/-- One advance of a copy: a cancel at a boundary, a unit prepared and written, bytes counted in a later cycle. -/
def State.copyStep (s : State) (r : CopyRun) (e : Ember) : State :=
  let d := copyDesc e.cmd
  if e.allDone || e.fresh s.now then s
  else if !r.uncounted.isEmpty then (if r.countAt < s.now && e.late.isEmpty then s.countUnit r e d else s)
  else if r.todo == some [] then s.unitDone r e d
  else if r.atBoundary && e.cancelDue s.now then s.copyEnd r .cancelled cCANCEL 0
  else if !s.copyChosen (r.core / 4) r then s
  else match r.todo with
  | some _ => s.writeUnit r e d
  | none =>
    match if d.enc then s.prepEncode r e d else if d.dec then s.prepDecode r e d else s.prepChunk r e d with
    | .fault c a => s.copyEnd r .faulted c a
    | .ok r => ((s.updQuad (r.core / 4) (·.putCopy r)).clearAhead r e).writeUnit r e d

/-- The running copy of an ember, where it has the codec or not. -/
def State.copyRun (s : State) (quad core slot : Nat) (codec : Bool) : Option (CopyRun × Ember) :=
  match (s.quad quad).copies.find? fun r => r.core == core && r.slot == slot with
  | none => none
  | some r => match (s.core core).ember slot with
    | some e => if (copyDesc e.cmd).codec = codec then some (r, e) else none
    | none => none

/- Units owed to a byte barrier (13 R283) -/

/-- Bytes of a saved ember's unit reach its byte barrier, saved with the quad's parts or still on the quad. -/
def State.countSaved (s : State) (vat i : Nat) (e : Ember) (n : Nat) : State × Bool :=
  let v := s.vat vat
  let (bb, b) := e.copyTarget
  match v.saves[i]? with
  | none => (s, true)
  | some k =>
    if !bb then (s, true)
    else match v.saves.zipIdx.find? fun x => x.1.hasQuad && x.1.core / 4 == k.core / 4 && thas x.1.bbs b with
    | some x =>
      let o := tget x.1.bbs b
      let put (w : Bb) := s.updSave vat x.2 fun k => { k with bbs := tset k.bbs b (o.put s.now w) }
      match o.cur.arrive n with
      | some w => (put w, true)
      | none => (put { o.cur with broken := true }, false)
    | none => s.countBytes k.core e (List.range n)

/-- A copy's place in its engine, or in the save that holds it, is given up. -/
def State.dropCopy (s : State) : EPlace → State
  | .live core slot => s.updQuad (core / 4) fun q => { q with copies := q.copies.filter fun x => !(x.core == core && x.slot == slot) }
  | .saved vat i slot => s.updSave vat i fun k => { k with copies := k.copies.filter fun x => x.slot != slot }

/-- The owed unit of an ember that is due: its last byte was performed in an earlier cycle, and no write of an earlier unit is put off or
performed and not counted yet, since the chunks are written in their order (13 R279, R283); one whose bytes are parked holds none back
(17 R378). -/
def Ember.owedDue (e : Ember) (now : Nat) : Option Owed :=
  let before (o p : Owed) : Bool := decide (p.unit < o.unit) && (p.doneAt.isSome || e.late.any fun l => l.unit == some p.unit)
  e.owed.find? fun o => (match o.doneAt with | some t => decide (t < now) | none => false) && !e.owed.any (before o)
/-- The ember of a place, in the table of its core or in a save from there, that has an owed unit that is due. -/
def State.dueAt (s : State) (core slot : Nat) : Option (EPlace × Ember) :=
  match ((s.core core).ember slot).filter fun e => (e.owedDue s.now).isSome with
  | some e => some (.live core slot, e)
  | none => s.vats.findSome? fun v => v.2.saves.zipIdx.findSome? fun k =>
      if k.1.core = core then ((tget k.1.embers slot).filter fun e => (e.owedDue s.now).isSome).map fun e => (.saved v.1 k.2 slot, e) else none

/-- An owed unit of a copy is counted, all its bytes together (13 R283; log entry 114); where that overflows the byte barrier the copy
ends with the unit's address (R284, R300), unless it had ended otherwise before. -/
def State.countOwed (s : State) (pl : EPlace) (e : Ember) (o : Owed) : State :=
  let s := s.updEmber pl fun e => { e with owed := e.owed.erase o }
  let x := match pl with
    | .live core _ => s.countBytes core e (List.range o.n)
    | .saved vat i _ => s.countSaved vat i e o.n
  if x.2 || (e.allDone && e.endSt != .done) then x.1.drained e.uid
  else (x.1.dropCopy pl).emberEnd e.uid .faulted cBBOVF o.addr e.prog

/-- A step of a copy with or without the codec, or a part of it (14 R308): owed units come first. -/
def State.copyEvent (s : State) (quad core slot : Nat) (codec : Bool) (part : Part) : State :=
  match (s.dueAt core slot).filter fun _ => part == .whole && core / 4 == quad with
  | some (pl, e) => match e.owedDue s.now with
    | some o => s.countOwed pl e o
    | none => s
  | none =>
    match s.copyRun quad core slot codec with
    | some (r, e) => s.inPart e.uid part
        (s.copyAhead r e)
        fun s => s.copyStep r e
    | none => match (s.core core).ember slot with
      | some e => if e.op.kind = 1 ∧ (copyDesc e.cmd).codec = codec then s.inPart e.uid part (fun _ _ => s) id else s
      | none => s

/-- COPY_CHUNK (13 R279, R283, R285). -/
def execCopyChunk (quad core : Nat) (task : Nat × Part) (s : State) : Host.Outcome State Fault Refusal :=
  if s.stopped (quad / 256) then .next s else .next (s.copyEvent quad core task.1 false task.2)

/-- CODEC_BLOCK (13 R287 to R290). -/
def execCodecBlock (quad core : Nat) (task : Nat × Part) (s : State) : Host.Outcome State Fault Refusal :=
  if s.stopped (quad / 256) then .next s else .next (s.copyEvent quad core task.1 true task.2)

/-- HOOP_SLOT_EMPTY (13 R296): in the cycle after the mark of its hoop.rel was performed, a slot becomes EMPTY. -/
def execHoopSlotEmpty (quad hoop slot : Nat) (s : State) : Host.Outcome State Fault Refusal :=
  let h := ((s.quad quad).hoop hoop).cur
  if s.stopped (quad / 256) || h.slotSt slot != .releasing || !thas h.rel slot || decide (s.now ≤ tget h.rel slot) then .next s
  else .next (s.putHoop quad hoop { h with cnt := tset h.cnt slot 0, st := tset h.st slot .empty, rel := tdel h.rel slot })

/-- BB_ARRIVE_APPLY (13 R299, R301): of the accepted arrivals whose release was performed in an earlier cycle the one of the
lowest COREID is applied; one that would overflow is not, and breaks the barrier. -/
def execBbArriveApply (quad bb : Nat) (s : State) : Host.Outcome State Fault Refusal :=
  let q := s.quad quad
  let due (a : BbAcc) : Bool := match a.rel with | some t => decide (t < s.now) | none => false
  let ready := (tget q.bbAcc bb).filter due
  match ready.find? fun a => ready.all fun b => decide (a.core ≤ b.core) with
  | none => .next s
  | some a =>
    if s.stopped (quad / 256) then .next s
    else
      let b := (q.bb bb).cur
      let s := s.putBb quad bb { (b.arrive a.n).getD { b with broken := true } with lastAt := some (s.now, 2) }
      .next (s.updQuad quad fun q => { q with bbAcc := tset q.bbAcc bb ((tget q.bbAcc bb).filter (· != a)) })

end Sys2Proof.Machine
end

