-- ==== Sys2Proof/Machine/Mill.lean ====
section
/-! DEFINITION. The arithmetic of the press: operand blocks (12 R260 to R263), the mills (R264, R265), products (R268,
R269) and drains (R270, R271). -/

namespace Sys2Proof.Machine

/-- An operand tile as a press command reads it (12 Table 12.5, Table 12.6, Table 12.7): source and residual formats,
layout, swizzle, extents, origin, whether the reduction axis runs along stored columns, rotation, compute format,
rounding in force, seeds. -/
structure Tile where
  src : Nat := 0
  res : Nat := 0
  paired : Bool := false
  swz : Nat := 0
  lo : Nat := 0
  rows : Nat := 1
  cols : Nat := 1
  addr : Nat := 0
  pitch : Nat := 0
  ng : Nat := 1
  row0 : Nat := 0
  col0 : Nat := 0
  redCols : Bool := true
  rot : Nat := 0
  rotOut : Bool := false
  cmp : Nat := 0
  rnd : Nat := 0
  rotSeed : Word := 0
  rndSeed : Word := 0
  deriving DecidableEq, Repr, Inhabited

/-- The stat edge, transposed bit and rounding byte of a kind (12 Table 12.7). -/
def kindWest (kind : Nat) : Bool := decide (2 ≤ kind)
def kindTrans (kind : Nat) : Bool := kind == 3
def kindRound (kind : Nat) (stat : Bool) : Nat := if stat || kind == 1 then 0 else 4 + 8 * 16

/-- Compute formats (12 R265). -/
def cmpOk (v : Nat) : Bool := v == 1 || v == 2 || v == 4 || v == 0x83 || (v / 64 % 2 == 0 && isSignedB8 (v % 64))
/-- A signed binary8 code without infinities (12 R260). -/
def pairOk (v : Nat) : Bool := decide (32 < v) && decide (v < 40)

/-- The tile a press.stat or press.run describes. -/
def Ember.tile (e : Ember) : Tile :=
  let b := e.cmd
  let kind := fld b 0 1
  let stat := match e.op with | .stat _ _ => true | _ => false
  { src := fld b 1 1, res := fld b 3 1, paired := fld b 4 1 % 4 == 1, swz := fld b 7 1, lo := fld b 8 1,
    rows := fld b 9 2, cols := fld b 11 2, addr := fld b 16 8, pitch := fld b 24 4, ng := fld b 32 8,
    row0 := fld b 40 8, col0 := fld b 48 8,
    redCols := match e.op with | .stat west _ => !west | _ => !(fld b 4 1).testBit 2,
    rot := fld b 5 1 % 8, rotOut := (fld b 5 1).testBit 3, cmp := fld b 2 1,
    rnd := if kind = 0 then fld b 6 1 else kindRound kind stat, rotSeed := e.seed0, rndSeed := e.seed1 }

/-- Extents along the other axis and the reduction axis. -/
def Tile.others (t : Tile) : Nat := if t.redCols then t.rows else t.cols
def Tile.reds (t : Tile) : Nat := if t.redCols then t.cols else t.rows

/-- The conditions of 12 Table 12.4's first row on an operand block. -/
def operandBad (e : Ember) : Bool :=
  let b := e.cmd
  let kind := fld b 0 1
  let lay := fld b 4 1
  let rot := fld b 5 1
  let paired := lay % 4 == 1
  let mx := decide (128 ≤ fld b 1 1)
  let reserved := decide (4 ≤ kind) || decide (8 ≤ lay) || decide (2 ≤ lay % 4) || decide (16 ≤ rot) || decide (6 ≤ rot % 8)
    || !roundOk (fld b 6 1) || !swzOk (fld b 7 1) (fld b 8 1) || fld b 14 2 != 0 || fld b 28 4 != 0
  let extents := fld b 9 2 == 0 || decide (256 < fld b 9 2) || fld b 11 2 == 0 || decide (256 < fld b 11 2)
    || fld b 32 8 == 0 || decide (2 ^ 63 < fld b 32 8)
  let formats := !specOk (fld b 1 1) || fld b 1 1 % 64 == 8 || !cmpOk (fld b 2 1)
    || (if paired then !pairOk (fld b 1 1) || !pairOk (fld b 3 1) || fld b 24 4 != 0 else fld b 3 1 != 0 || (mx && fld b 11 2 % 32 != 0))
  let kinds := kind != 0 && (fld b 6 1 != 0 || rot.testBit 3)
  let own := match e.op with
    | .stat west _ => lay.testBit 2 || fld b 13 1 != 0 || decide (2 < fld b 56 1) || (kind != 0 && west != kindWest kind)
    | .run _ sparse _ => rot.testBit 3 || (!sparse && fld b 56 8 != 0) || (kind != 0 && lay.testBit 2 != kindTrans kind)
        || decide (256 < fld b 13 1 + e.tile.others)
    | _ => false
  reserved || extents || formats || kinds || own

/-- The conditions on a receive block (12 R267). -/
def receiveBad (e : Ember) : Bool := (List.range 56).any fun j => fld e.cmd j 1 != 0

/-- The bitmap of a sparse run: its address, bytes and sub-block width; none where the run is dense, whose bitmap address is not
checked either (12 R269; log entry 108). -/
def Ember.bitmap (e : Ember) : Option (Nat × Nat × Nat) :=
  match e.op with
  | .run _ true _ =>
    let rot := e.tile.rot
    if 2 < rot then none else if rot = 1 then some (fld e.cmd 56 8, 64, 16) else some (fld e.cmd 56 8, 32, 32)
  | _ => none

/-- The unswizzled addresses of an element's bytes, its scale last (12 R260, 04 R85, R90, R92). -/
def Tile.elemBytes (t : Tile) (r c : Nat) : List Nat :=
  let row := t.addr + r * t.pitch
  let offs :=
    if t.paired then (pairedOffs ((t.row0 + r) * t.ng + t.col0 + c)).map (· + t.addr)
    else if 128 ≤ t.src then
      let bl := mxBlockLen (t.src % 64)
      let at_ := row + bl * (c / 32)
      [at_ + (if t.src % 64 = 3 then c % 32 / 2 else c % 32), at_ + bl - 1]
    else
      let e := fmtBits t.src
      if e = 4 then [row + c / 2] else (List.range (e / 8)).map fun j => row + c * (e / 8) + j
  offs.map (· % 2 ^ 64)

/-- The addresses from which an element's bytes are fetched. -/
def Tile.elemAddrs (t : Tile) (r c : Nat) : List Nat := (t.elemBytes r c).map (swizzle t.swz t.lo)

/-- Value(r, c) of 12 R264 from the element's bytes. -/
def Tile.elemVal (t : Tile) (c : Nat) (bs : List Byte) : Val :=
  let nib (b : Byte) : Nat := b.toNat / 16 ^ (c % 2) % 16
  if t.paired then fmtF32.dec (pairedCode t.src t.res bs)
  else if 128 ≤ t.src then
    let code := t.src % 64
    let q := if code = 3 then nib (pick bs 0) else (pick bs 0 : Byte).toNat
    let v := mxVal (fpOf code) (pick bs 1 : Byte).toNat q
    if t.redCols then v else fmtBf16.dec (fmtBf16.conv false .rne v).1
  else if fmtBits t.src = 4 then (fmtOf t.src).dec (nib (pick bs 0))
  else (fmtOf t.src).dec (leNat bs)

/-- Stored coordinates of a position along the other axis and one along the reduction axis. -/
def Tile.stored (t : Tile) (m i : Nat) : Nat × Nat := if t.redCols then (m, i) else (i, m)

/-- Whether a bitmap keeps an element (12 R269). -/
def keeps (bm : Option (Nat × Nat)) (m i : Nat) : Bool :=
  match bm with
  | some (w, bits) => bits.testBit (m / 8 * (256 / w) + i / w)
  | none => true

/-- Whether an element is read: inside the extents and kept. -/
def Tile.reads (t : Tile) (bm : Option (Nat × Nat)) (m i : Nat) : Bool :=
  decide (m < t.others) && decide (i < t.reds) && keeps bm m i

/-- The addresses read for a run of reduction positions, in the order in which a first offending byte is sought (12 R259; log
entry 106). -/
def Tile.addrs (t : Tile) (bm : Option (Nat × Nat)) (i0 len : Nat) : List Nat :=
  (List.range t.others).flatMap fun m => (List.range len).flatMap fun j =>
    if t.reads bm m (i0 + j) then let p := t.stored m (i0 + j); t.elemAddrs p.1 p.2 else []

/-- An element of the zero-extended tile. -/
def Tile.value (t : Tile) (rd : Nat → Byte) (bm : Option (Nat × Nat)) (m i : Nat) : Val :=
  if t.reads bm m i then let p := t.stored m i; t.elemVal p.2 ((t.elemAddrs p.1 p.2).map rd) else .fin false 0 0

/-- The parity of the number of ones of a number. -/
def oddOnes : Nat → Nat → Bool
  | 0, _ => false
  | f + 1, x => xor (x % 2 == 1) (oddOnes f (x / 2))

/-- A value with its sign changed where asked. -/
def Val.signed (neg : Bool) (v : Val) : Val := if neg then v.neg else v
/-- An exact sum. -/
def Val.sum (vs : List Val) : Val := vs.foldl (fun (a : Val) v => (a.add .rne v).1) (.fin false 0 0)
/-- A rotation sign: D = -1 (04 R97). -/
def rotNeg (seed : Word) (g : Nat) : Bool := (keyMix seed (BitVec.ofNat 64 g)).getLsbD 63

/-- One block of a rotation (12 R264): xs are its values, g the global index of the first. -/
def rotate (seed : Word) (g : Nat) (xs : List Val) : List Val :=
  let ds := xs.zipIdx.map fun x => x.1.signed (rotNeg seed (g + x.2))
  (List.range xs.length).map fun i => Val.sum (ds.zipIdx.map fun x => x.1.signed (oddOnes 8 (i &&& x.2)))

/-- A list cut into blocks of n. -/
def blocksOf {α : Type} (n : Nat) (l : List α) : List (List α) := (List.range (l.length / n)).map fun j => (l.drop (n * j)).take n

/-- The global index along an axis: stored columns or stored rows (12 R264). -/
def Tile.global (t : Tile) (cols : Bool) (j : Nat) : Nat := if cols then t.col0 + j else t.row0 + j

/-- The line of one output or streamed row, rotated, for a run of reduction positions that holds whole blocks. -/
def Tile.line (t : Tile) (rd : Nat → Byte) (bm : Option (Nat × Nat)) (m i0 len : Nat) : List Val :=
  let n := rotSize t.rot
  if n = 0 then (List.range len).map fun j => t.value rd bm m (i0 + j)
  else if t.rotOut then
    let m0 := m / n * n
    (List.range len).map fun j => pick
      (rotate t.rotSeed (t.global (!t.redCols) m0) ((List.range n).map fun k => t.value rd bm (m0 + k) (i0 + j))) (m - m0)
  else
    (blocksOf n ((List.range len).map fun j => t.value rd bm m (i0 + j))).zipIdx.flatMap fun x =>
      rotate t.rotSeed (t.global t.redCols (i0 + n * x.2)) x.1

/-- The rounding mode of an element (12 R264, 04 R98). -/
def Tile.mode (t : Tile) (m i : Nat) : Mode :=
  let p := t.stored m i
  byteMode t.rnd (keyMix t.rndSeed (BitVec.ofNat 64 ((t.row0 + p.1) * t.ng + t.col0 + p.2)))

/-- The image of a line: element codes, and one scale code for every 32 positions (12 R264). -/
def Tile.quantise (t : Tile) (m i0 : Nat) (ys : List Val) : List Nat × List Nat :=
  let zs := ys.zipIdx.map fun x => (x.1, t.mode m (i0 + x.2))
  if 128 ≤ t.cmp then
    let bs := (blocksOf 32 zs).map fun b => mxQuantise (fpOf (t.cmp % 64)) b
    (bs.flatMap (·.2.1), bs.map (·.1))
  else (zs.map fun x => ((fmtOf t.cmp).conv true x.2 x.1).1, (blocksOf 32 zs).map fun _ => 127)

/-- MillTile of 12 R264 for a run of reduction positions of one line. -/
def Tile.mill (t : Tile) (rd : Nat → Byte) (bm : Option (Nat × Nat)) (m i0 len : Nat) : List Nat × List Nat :=
  t.quantise m i0 (t.line rd bm m i0 len)

/-- Reduction positions per block of a product (12 R268). -/
def blockLen (cmp : Nat) : Nat := if cmp = 1 ∨ cmp = 2 then 8 else 32
/-- The positions a mill must read for reduction block j: whole rotation blocks and whole groups of 32. -/
def Tile.span (t : Tile) (j : Nat) : Nat × Nat :=
  let len := if t.rotOut then 32 else max 32 (rotSize t.rot)
  (j * blockLen t.cmp / len * len, len)

/-- A value without the sign of a zero. -/
def Val.plusZero : Val → Val
  | .fin _ 0 _ => .fin false 0 0
  | v => v

/-- T of 12 R268 for one block. -/
def blockTerm (cmp L : Nat) (a w : List Nat) (sa sw : Nat) : Val :=
  let f := fmtOf (cmp % 64)
  let dec (x : Nat) : Val := f.dec x
  if sa = 255 ∨ sw = 255 then .nan
  else
    let ps := (a.zip w).map fun x => ((dec x.1).mul (dec x.2)).1
    ((Val.sum ps).scale ((sa : Int) + sw - 254 - L)).plusZero

/-- An accumulator after one block (12 R253, R268). -/
def accAdd (acc : Nat) (t : Val) : Nat :=
  let z := (fmtF32.result false .rne ((fmtF32.dec acc).add .rne t)).1
  if z = 0x80000000 then 0 else z

/-- One reduction block of a streamed row against the image: the row's accumulators. -/
def Image.block (im : Image) (L j : Nat) (a : List Nat) (sa : Nat) (acc : Nat → Nat) : List Nat :=
  let b := blockLen im.fmt
  (List.range 256).map fun o =>
    let w := (List.range b).map fun i => tget im.q (256 * o + b * j + i)
    accAdd (acc o) (blockTerm im.fmt L a w sa (tget im.sc (8 * o + b * j / 32)))

/- Drains -/

/-- A drain block (12 Table 12.8). -/
structure Drain where
  ctl : Nat := 0
  fmt : Nat := 0
  rot : Nat := 0
  rnd : Nat := 0
  swz : Nat := 0
  lo : Nat := 0
  br0 : Nat := 0
  bc0 : Nat := 0
  nrows : Nat := 1
  ncols : Nat := 1
  pitch : Nat := 0
  dest : Nat := 0
  maskAt : Nat := 0
  ng : Nat := 1
  row0 : Nat := 0
  col0 : Nat := 0
  deriving DecidableEq, Repr, Inhabited

def Ember.drainBlk (e : Ember) : Drain :=
  let b := e.cmd
  { ctl := fld b 0 1, fmt := fld b 1 1, rot := fld b 2 1, rnd := fld b 3 1, swz := fld b 4 1, lo := fld b 5 1,
    br0 := fld b 6 1, bc0 := fld b 7 1, nrows := fld b 8 2, ncols := fld b 10 2, pitch := fld b 12 4,
    dest := fld b 16 8, maskAt := fld b 24 8, ng := fld b 32 8, row0 := fld b 40 8, col0 := fld b 48 8 }

def Drain.panes (d : Drain) : Bool := d.ctl.testBit 0
def Drain.inverse (d : Drain) : Bool := d.ctl.testBit 1
def Drain.masked (d : Drain) : Bool := d.ctl.testBit 2
def Drain.satf (d : Drain) : Bool := d.ctl.testBit 3
def Drain.mx (d : Drain) : Bool := decide (128 ≤ d.fmt)
def Drain.bits (d : Drain) : Nat := fmtBits (d.fmt % 64)

/-- Extents and origin inside the bank (12 Table 12.4). -/
def Drain.extentBad (d : Drain) : Bool :=
  d.nrows == 0 || decide (256 < d.nrows) || d.ncols == 0 || decide (256 < d.ncols)
  || decide (256 < d.br0 + d.nrows) || decide (256 < d.bc0 + d.ncols)

/-- The first row of 12 Table 12.4 for a drain. -/
def drainBad (e : Ember) (acc : Bool) : Bool :=
  let d := e.drainBlk
  let n := rotSize d.rot
  decide (16 ≤ d.ctl) || fld e.cmd 56 8 != 0 || decide (6 ≤ d.rot) || (d.inverse != (d.rot != 0)) || !roundOk d.rnd
  || !swzOk d.swz d.lo || !specOk d.fmt || d.fmt % 64 == 8 || d.extentBad
  || (!d.masked && d.maskAt != 0)
  || (d.inverse && (d.bc0 % n != 0 || d.ncols % n != 0)) || (d.mx && d.ncols % 32 != 0)
  || (acc && (d.fmt != 0 || d.panes))
  || (d.panes && (d.pitch != 0 || decide (128 ≤ d.dest) || d.mx || decide (1024 < d.ncols * d.bits)))

/-- The first row of 12 Table 12.4 for press.zero (12 R272). -/
def zeroBad (e : Ember) : Bool := e.drainBlk.extentBad || (List.range 64).any fun j => (j < 6 || 12 ≤ j) && fld e.cmd j 1 != 0

/-- One stage of DrainRow on a block of FP32 codes (12 R271). -/
def drainStage (u : List Nat) (st : Nat) : List Nat :=
  (List.range u.length).map fun i =>
    let x : Val := fmtF32.dec (pick u i)
    let y : Val := fmtF32.dec (pick u (i ^^^ 2 ^ st))
    (fmtF32.result false .rne (if i.testBit st then y.add .rne x.neg else x.add .rne y)).1

/-- v of 12 R271 for one bank row of ncols codes. -/
def Drain.row (d : Drain) (seed : Word) (u : List Nat) : List Val :=
  if d.inverse then
    let L := rotLog d.rot
    let w := (blocksOf (rotSize d.rot) u).flatMap fun b => (List.range L).foldl drainStage b
    w.zipIdx.map fun x => ((fmtF32.dec x.1).scale (-(L : Int))).signed (rotNeg seed (d.col0 + x.2))
  else u.map fmtF32.dec

/-- The rounding mode of element (i, j) of a drain. -/
def Drain.mode (d : Drain) (seed : Word) (i j : Nat) : Mode :=
  byteMode d.rnd (keyMix seed (BitVec.ofNat 64 ((d.row0 + i) * d.ng + d.col0 + j)))

/-- The unswizzled bytes of element j of destination row i. -/
def Drain.elemBytes (d : Drain) (i j : Nat) : List Nat :=
  let row := d.dest + i * d.pitch
  (if d.mx then
    let bl := mxBlockLen (d.fmt % 64)
    let at_ := row + bl * (j / 32)
    [at_ + (if d.bits = 4 then j % 32 / 2 else j % 32), at_ + bl - 1]
  else if d.bits = 4 then [row + j / 2]
  else (List.range (d.bits / 8)).map fun k => row + j * (d.bits / 8) + k).map (· % 2 ^ 64)
def Drain.elemAddrs (d : Drain) (i j : Nat) : List Nat := (d.elemBytes i j).map (swizzle d.swz d.lo)

end Sys2Proof.Machine
end

