-- ==== Sys2Proof/Machine/Press.lean ====
section
/-! DEFINITION. The press of a quad at work (12 R251 to R275): the arbiter's grants, starting and checking commands,
their boundaries, multicast transfers, deferred bank releases. -/

namespace Sys2Proof.Machine

/- The arbiter (12 R255) -/

/-- The priority of a request: the lowest among the PENDING press embers of its wheel, those not begun, or 3; ORPHANED counts as PENDING
(11 R228). -/
def State.requestPrio (s : State) (w : WheelLease) : Nat :=
  ((s.core (coreOf w.ctx)).live.filter fun x =>
    x.2.op.kind == 0 && x.2.issuer == w.wheel && x.2.ctx == w.ctx && !x.2.began && !x.2.st.cur.final).foldl
      (fun p x => min p x.2.prio) 3

/-- The first of four numbers, from the one after a start and wrapping, that a test accepts. -/
def after4 (start : Nat) (p : Nat → Bool) : Option Nat := ([1, 2, 3, 4].map fun i => (start + i) % 4).find? p

/-- LeaseArbiter. Of two requests of one context, each the least by its priority, the older in the list is granted (log entry 147). -/
def State.arbiter (s : State) (quad : Nat) : Option WheelLease :=
  let q := s.quad quad
  let rs := q.leases.filter fun w => w.cur.requesting
  match after4 q.lastcore fun g => rs.any fun w => coreOf w.ctx % 4 == g with
  | none => none
  | some g =>
    let of_ := rs.filter fun w => coreOf w.ctx % 4 == g
    let best := of_.foldl (fun p w => min p (s.requestPrio w)) 3
    let low := of_.filter fun w => s.requestPrio w == best
    match after4 (tget q.lastctx g) fun c => low.any fun w => w.ctx % 4 == c with
    | none => none
    | some c => low.find? fun w => w.ctx % 4 == c

/-- LEASE_GRANT (12 R255): in a cycle after the last lease ended, the array is granted to one request; a lease that was saved
brings its image back (R275). -/
def execLeaseGrant (quad : Nat) (s : State) : Host.Outcome State Fault Refusal :=
  let q := s.quad quad
  if s.stopped (quad / 256) || q.leases.any (fun w => w.cur.isGranted) || q.endedAt == some s.now then .next s
  else match s.arbiter quad with
  | none => .next s
  | some w =>
    let st : LeaseSt := if w.cur.freed then .freeing true else .granted
    .next (s.setQuad quad { q with
      leases := putLease q.leases { w with cur := { w.cur with st := st }, image := none }, endedAt := none,
      image := w.image.or q.image,
      lastcore := coreOf w.ctx % 4, lastctx := tset q.lastctx (coreOf w.ctx % 4) (w.ctx % 4) })

/-- BANK_DEFERRED_RELEASE (12 R257). -/
def execBankDeferredRelease (quad : Nat) (bank : Bool) (s : State) : Host.Outcome State Fault Refusal :=
  if s.issue.active then .next s else .next (s.settleBank quad bank)

/- Starting -/

/-- The first byte of a run that does not lie in the scratchpad where the run starts (10 R201, 12 Table 12.4). -/
def State.spadFault (s : State) (core addr n : Nat) : Option Nat :=
  match regionOf addr with
  | some (.glob, _) => some addr
  | none => some addr
  | some (reg, last) =>
    if s.coreAbsent (regionCore core reg) then some addr else if last < addr + n - 1 then some (last + 1) else none

/-- The bitmap of a run as sub-block width and bits. -/
def State.bitmapOf (s : State) (core : Nat) (e : Ember) : Option (Nat × Nat) :=
  e.bitmap.map fun x => (x.2.2, leNat ((List.range x.2.1).map fun i => s.byte (spadAddr core (x.1 + i))))

/-- A first poisoned byte of a bitmap or a mask in scratchpad. -/
def State.spadPoison (s : State) (core addr n : Nat) : Option Nat :=
  ((List.range n).map (· + addr)).find? fun va => s.isBad (spadAddr core va)

/-- Whether the wheel that issued an ember still runs where it issued it. -/
def State.issuerRuns (s : State) (e : Ember) : Bool := (s.ctx e.ctx).wheel == some e.issuer

/-- A pane destination outside the window of the issuing wheel (12 Table 12.4). -/
def State.paneBad (s : State) (e : Ember) (d : Drain) : Bool :=
  d.panes && (!s.issuerRuns e || decide ((s.ctx e.ctx).panecnt ≤ d.dest + (d.nrows - 1) / 64))

/-- Whether the wheel that issued an ember holds a bank. -/
def State.holdsBank (s : State) (quad : Nat) (e : Ember) (b : Bool) : Bool := ((s.quad quad).bank b).heldBy e.ctx e.issuer

/-- The discard mask of a drain: kept rows and kept columns, as bits (12 R270), as memory holds it then (log entry 136). -/
def State.maskOf (s : State) (core : Nat) (d : Drain) : Nat × Nat :=
  if d.masked then
    let rd (lo : Nat) := leNat ((List.range 32).map fun i => s.byte (spadAddr core (d.maskAt + lo + i)))
    (rd 0, rd 32)
  else (2 ^ 256 - 1, 2 ^ 256 - 1)

/-- The bytes a drain writes in a run of destination rows. -/
def Drain.writes (d : Drain) (mask : Nat × Nat) (i0 n : Nat) : List Nat :=
  if d.panes then []
  else (List.range n).flatMap fun k =>
    if mask.1.testBit (d.br0 + i0 + k) then
      (List.range d.ncols).flatMap fun j => if mask.2.testBit (d.bc0 + j) then d.elemAddrs (i0 + k) j else []
    else []

/-- The faults of a stat or run at its start, after the first rows of 12 Table 12.4. -/
def State.operandFault (s : State) (core : Nat) (e : Ember) : Option (Nat × Nat) :=
  let t := e.tile
  let mx := decide (128 ≤ t.src)
  match e.bitmap.bind fun x => s.spadFault core x.1 x.2.1 with
  | some a => some (cMISS, a)
  | none =>
    match s.engCheck core e.vat [] (t.addrs (s.bitmapOf core e) 0 256) [] with
    | some f => some f
    | none =>
      if (t.paired || mx) && t.addr % 64 != 0 then some (cALIGN, t.addr)
      else if mx && t.pitch % 64 != 0 then some (cALIGN, (t.addr + t.pitch) % 2 ^ 64)
      else (e.bitmap.filter fun x => x.1 % 32 != 0).map fun x => (cALIGN, x.1)

/-- The faults of a drain at its start, after the first rows of 12 Table 12.4. The bytes that are written are those of the mask as it
stands, also where the mask is misaligned or poisoned (log entry 135). -/
def State.drainFault (s : State) (core : Nat) (e : Ember) (acc : Bool) : Option (Nat × Nat) :=
  let d := e.drainBlk
  match if d.masked then s.spadFault core d.maskAt 64 else none with
  | some a => some (cMISS, a)
  | none =>
    let mask := s.maskOf core d
    let ws := d.writes mask 0 d.nrows
    match s.engCheck core e.vat [] (if acc then ws else []) ws with
    | some f => some f
    | none =>
      if d.mx && d.dest % 64 != 0 then some (cALIGN, d.dest)
      else if d.mx && d.pitch % 64 != 0 then some (cALIGN, (d.dest + d.pitch) % 2 ^ 64)
      else if d.masked && d.maskAt % 64 != 0 then some (cALIGN, d.maskAt)
      else match if d.masked then s.spadPoison core d.maskAt 64 else none with
      | some a => some (cPOISON, a)
      | none =>
        let group (g : Nat) : Nat := mask.2 / 2 ^ (d.bc0 + 32 * g) % 2 ^ 32
        if d.mx && (List.range (d.ncols / 32)).any fun g => group g != 0 && group g != 2 ^ 32 - 1 then some (cRANGE, 0) else none

/-- A run whose image is invalid or differs (12 R262). -/
def imageBad (im : Option Image) (e : Ember) : Bool :=
  match im with
  | none => true
  | some i => i.fmt != e.tile.cmp || i.kind != fld e.cmd 0 1 || (if i.rotOut then 0 else i.rot) != e.tile.rot

/-- The fault of a press ember at its start (12 R259, Table 12.4). -/
def State.pressFault (s : State) (core : Nat) (e : Ember) : Option (Nat × Nat) :=
  let quad := core / 4
  let range := some (cRANGE, 0)
  let bank (b : Bool) (f : Option (Nat × Nat)) := if s.holdsBank quad e b then f else some (cBANK, 0)
  match e.op with
  | .stat _ _ =>
    if fld e.cmd 56 1 = 2 then (if receiveBad e then range else none)
    else if operandBad e then range
    else s.operandFault core e
  | .run b _ _ =>
    if operandBad e || imageBad (s.quad quad).image e then range else bank b (s.operandFault core e)
  | .drain b acc =>
    if drainBad e acc || s.paneBad e e.drainBlk then range else bank b (s.drainFault core e acc)
  | .zero b => if zeroBad e then range else bank b none
  | _ => none

/-- The bytes that a press command reads and writes (12 Table 12.4). -/
def State.pressBytes (s : State) (core : Nat) (e : Ember) : List Nat × List Nat :=
  match e.op with
  | .stat _ _ => (e.tile.addrs none 0 256, [])
  | .run _ _ _ => (e.tile.addrs (s.bitmapOf core e) 0 256, [])
  | .drain _ acc =>
    let ws := e.drainBlk.writes (s.maskOf core e.drainBlk) 0 e.drainBlk.nrows
    (if acc then ws else [], ws)
  | _ => ([], [])
/-- Whether a walk that a command's check at its start needs waits for a stack that recalibrates (20 R424). -/
def State.pressHeld (s : State) (core : Nat) (e : Ember) : Bool :=
  s.recal && let b := s.pressBytes core e
    s.walksHeld e.vat (b.1 ++ b.2)

/-- Whether an ember is a press.stat. -/
def Ember.isStat (e : Ember) : Bool := match e.op with | .stat _ _ => true | _ => false

/-- Whether an ember's lease is granted. -/
def Quad.leaseGranted (q : Quad) (e : Ember) : Bool := q.leases.any fun w => w.cur.num == e.lease && w.cur.isGranted

/-- PRESS_COMMAND_START (12 R259): a command starts, or one that a pre-emption stopped goes on from its progress word (R275); one whose
record an error struck ends (11 R250). One that was stopped ends only once nothing keeps it open (17 R378). -/
def execPressCommandStart (quad core slot : Nat) (s : State) : Host.Outcome State Fault Refusal :=
  let q := s.quad quad
  if s.issue.active || core / 4 != quad || q.run.isSome || !s.canStart core slot 0 then .next s
  else match (s.core core).ember slot with
  | none => .next s
  | some e =>
    if !q.leaseGranted e || s.pressHeld core e then .next s
    else
      let fault := if e.struck then some (cQUEUE, 0) else if e.stopped then none else s.pressFault core e
      let s := s.beginEmber core slot
      if e.stopped && e.cancelDue s.now then
        .next ((s.setQuad quad { q with image := if e.isStat then none else q.image }).emberEnd e.uid .cancelled cCANCEL 0 e.prog)
      else match fault with
      | some f => .next (if e.stopped then s.emberEnd e.uid .faulted f.1 f.2 0 else s.finishEmber core slot .faulted f.1 f.2 0)
      | none => .next (s.setQuad quad { q with run := some { core := core, slot := slot, unit := if e.stopped then e.prog else 0 } })

/- Running -/

/-- The command on the array ends and the array is free for the next; while something keeps it open, it stays there (17 R378). -/
def State.pressEnd (s : State) (quad : Nat) (r : PressRun) (st : EState) (cause addr prog : Nat) : State :=
  let e := ((s.core r.core).ember r.slot).getD default
  if s.emberOpen e then s.emberEnd e.uid st cause addr prog
  else (s.updQuad quad fun q => { q with run := none }).finishEmber r.core r.slot st cause addr prog

/-- A press command's ember and its run. -/
def State.pressRun (s : State) (quad : Nat) : Option (PressRun × Ember) :=
  match (s.quad quad).run with
  | none => none
  | some r => ((s.core r.core).ember r.slot).map fun e => (r, e)

/-- The first fault of reading bytes when they are consumed: translation and rights afresh (17 R375), then poison. -/
def State.readFault (s : State) (core vat : Nat) (vas : List Nat) : Option (Nat × Nat) :=
  match s.engCheck core vat [] vas [] with
  | some f => some f
  | none => (s.engPoison core vat [] vas).map fun a => (cPOISON, a)

/-- Whether a command takes its row groups under their lock: one with .snap of a paired tile (12 R273, 14 R321). -/
def Ember.grouped (e : Ember) : Bool := e.isSnap && e.tile.paired
/-- The image that a stat mills (12 R264, R266). -/
def State.statImage (s : State) (core : Nat) (e : Ember) : Image :=
  let t := e.tile
  let ls := (List.range 256).map fun o => t.mill (s.heldRead core [] e 0) none o 0 256
  { vat := e.vat, kind := fld e.cmd 0 1, fmt := t.cmp, rot := t.rot, rotOut := t.rotOut,
    q := ls.zipIdx.flatMap fun x => x.1.1.zipIdx.map fun (y : Nat × Nat) => (256 * x.2 + y.2, y.1),
    sc := ls.zipIdx.flatMap fun x => x.1.2.zipIdx.map fun (y : Nat × Nat) => (8 * x.2 + y.2, y.1) }

/-- The members of a multicast transfer under way from a quad: the sender, then the receivers (12 R267). -/
def State.castMembers (s : State) (quad : Nat) (sending : Bool) : List Nat :=
  match s.pressRun quad with
  | none => []
  | some (_, e) => quad :: ((List.range 32).map (· + quad / 32 * 32)).filter fun t =>
      t != quad && (fld e.cmd 60 4).testBit (t % 32) && match s.pressRun t with
        | some (r', e') => (match e'.op with | .stat _ _ => true | _ => false) && fld e'.cmd 56 1 == 2
            && fld e'.cmd 57 1 == quad % 32 && fld e'.cmd 58 2 == fld e.cmd 58 2 && r'.sending == sending
        | none => false

/-- MULTICAST_TRANSFER (12 R267): the transfer begins once the sender and every target's receive are running; a partner of
another vat faults every member. -/
def execMulticastTransfer (quad : Nat) (s : State) : Host.Outcome State Fault Refusal :=
  match s.pressRun quad with
  | none => .next s
  | some (r, e) =>
    let isStat := match e.op with | .stat _ _ => true | _ => false
    let ms := s.castMembers quad false
    let all := (List.range 32).all fun i => i == quad % 32 || !(fld e.cmd 60 4).testBit i || ms.contains (quad / 32 * 32 + i)
    let runs := ms.filterMap fun m => (s.pressRun m).map fun x => (m, x.1, x.2)
    if s.stopped (quad / 256) || !isStat || fld e.cmd 56 1 != 1 || r.sending || !all || runs.any (fun x => x.2.2.fresh s.now) then .next s
    else
      if runs.any fun x => x.2.2.vat != e.vat then
        .next (runs.foldl (fun s x => s.pressEnd x.1 x.2.1 .faulted cRANGE 0 0) s)
      else .next (ms.foldl (fun s m => s.updQuad m fun q => { q with run := q.run.map fun r => { r with sending := true } }) s)

/-- A stat reaches its end: its image is loaded, or it is cancelled and the image is invalid (12 R266, Table 12.9). -/
def State.statEnd (s : State) (quad : Nat) (im : Image) : State :=
  match s.pressRun quad with
  | none => s
  | some (r, e) =>
    if e.cancelDue s.now then
      (s.updQuad quad fun q => { q with image := none }).pressEnd quad r .cancelled cCANCEL 0 0
    else (s.updQuad quad fun q => { q with image := some { im with vat := e.vat } }).pressEnd quad r .done 0 0 0

/-- A boundary of a press.stat. -/
def State.statBoundary (s : State) (quad : Nat) (r : PressRun) (e : Ember) : State :=
  let mode := fld e.cmd 56 1
  if mode ≠ 0 ∧ !r.sending then
    if e.cancelDue s.now then (s.updQuad quad fun q => { q with image := none }).pressEnd quad r .cancelled cCANCEL 0 0 else s
  else if mode = 2 then s
  else
    let vas := e.unread 0 (e.tile.addrs none 0 256)
    if (e.grouped && s.rowLocked r.core e.vat [] vas) || s.engHeld r.core e.vat [] vas [] then s
    else
    let ms := if mode = 1 then s.castMembers quad true else [quad]
    match s.readFault r.core e.vat vas with
    | some f => (ms.filterMap fun m => (s.pressRun m).map fun x => (m, x.1)).foldl
        (fun s x => s.pressEnd x.1 x.2 .faulted f.1 f.2 0) s
    | none =>
      let im := s.statImage r.core e
      ms.foldl (fun s m => s.statEnd m im) s

/-- A stored accumulator. -/
def Bank.at_ (b : Bank) (row col : Nat) : Nat := tget b.acc (256 * row + col)
/-- A row of accumulators written from a column on. -/
def Bank.putRow (b : Bank) (row col : Nat) (vs : List Nat) : Bank :=
  { b with acc := vs.zipIdx.foldl (fun (t : Tbl Nat) x => tset t (256 * row + col + x.2) x.1) b.acc }
/-- Whether a poisoned unit of a bank, eight accumulators, holds an accumulator of a region (20 Table 20.1). -/
def Bank.poisoned (b : Bank) (row nrows col ncols : Nat) : Bool :=
  b.bad.any fun u => decide (row ≤ u / 32) && decide (u / 32 < row + nrows) && decide (col ≤ u % 32 * 8 + 7) && decide (u % 32 * 8 < col + ncols)

/-- A fault whose address the specification does not state: a poisoned accumulator has none (log entry 23). -/
def State.accFault (s : State) (quad : Nat) (r : PressRun) : State :=
  { s with free := s.free + 1 }.pressEnd quad r .faulted cPOISON (Config.freeWord s.free).toNat r.unit

/-- After one unit: the command ends, for an error that struck its record too (11 R250), stops for a cancel, or goes on (12 R274);
while its vat is being halted it stands at that boundary (11 R248). -/
def State.pressUnit (s : State) (quad : Nat) (r : PressRun) (e : Ember) (units total : Nat) : State :=
  let s := (s.setProg r.core r.slot units).updQuad quad fun q => { q with
    run := some { r with unit := units, held := s.halting e.vat r.core } }
  if e.struck then s.pressEnd quad r .faulted cQUEUE 0 0
  else if e.cancelDue s.now then s.pressEnd quad r .cancelled cCANCEL 0 units
  else if units = total then s.pressEnd quad r .done 0 0 units
  else s

/-- The element's row group in its tensor (04 R92). -/
def Tile.group (t : Tile) (m i : Nat) : Nat := let p := t.stored m i; ((t.row0 + p.1) * t.ng + t.col0 + p.2) / 1024
/-- The row groups of which a run reads elements at some reduction positions. -/
def Tile.groups (t : Tile) (bm : Option (Nat × Nat)) (i0 len : Nat) : List Nat :=
  ((List.range t.others).flatMap fun m => (List.range len).filterMap fun j =>
    if t.reads bm m (i0 + j) then some (t.group m (i0 + j)) else none).eraseDups
/-- What a run reads of some row groups. -/
def Tile.groupAddrs (t : Tile) (bm : Option (Nat × Nat)) (gs : List Nat) : List Nat :=
  (List.range t.others).flatMap fun m => (List.range 256).flatMap fun i =>
    if t.reads bm m i && gs.contains (t.group m i) then let p := t.stored m i; t.elemAddrs p.1 p.2 else []
/-- The bytes that a run reads at a boundary: those of its elements; with .snap of a paired tile all that it reads of their row groups
(12 R273, 14 R321). -/
def Tile.reach (t : Tile) (e : Ember) (bm : Option (Nat × Nat)) (i0 len : Nat) : List Nat :=
  if e.grouped then t.groupAddrs bm (t.groups bm i0 len) else t.addrs bm i0 len
/-- The reduction positions whose elements a run reads at a boundary: those of the block, or of the rotation that it is part of. -/
def Tile.need (t : Tile) (j : Nat) : Nat × Nat :=
  let n := rotSize t.rot
  let bl := blockLen t.cmp
  if n < bl then (j * bl, bl) else (j * bl / n * n, n)

/-- What a run reads at its boundary j while it stands at boundary j0: the bytes of that block, and of the aligned 4-byte units that hold
them all that the run still reads, so that a unit is seen old or new for the whole command (12 R273). -/
def Tile.unitReach (t : Tile) (e : Ember) (bm : Option (Nat × Nat)) (j0 j : Nat) : List Nat :=
  let need := t.need j
  let lo := (t.need j0).1
  let vas := t.reach e bm need.1 need.2
  let us := (vas.map (· / 4)).eraseDups
  vas ++ (t.addrs bm lo (256 - lo)).filter fun va => us.contains (va / 4) && !vas.contains va
/-- Of what a run has read before its boundary j, what it still needs (12 R273). -/
def Tile.stillRead (t : Tile) (bm : Option (Nat × Nat)) (j : Nat) (snap : List (Nat × Nat × Byte)) : List (Nat × Nat × Byte) :=
  if 256 / blockLen t.cmp ≤ j then []
  else
    let lo := (t.need j).1
    let us := (snap.map (·.2.1 / 4)).eraseDups
    let later := (t.addrs bm lo (256 - lo)).filter fun va => us.contains (va / 4)
    snap.filter fun x => later.contains x.2.1

/-- A boundary of a press.run: one reduction block is applied to every streamed row (12 R268); the bitmap is read again at each
(log entry 145). -/
def State.runBoundary (s : State) (quad : Nat) (r : PressRun) (e : Ember) (b : Bool) : State :=
  let t := e.tile
  let j := r.unit
  let bl := blockLen t.cmp
  let bm := s.bitmapOf r.core e
  let need := t.need j
  let row0 := fld e.cmd 13 1
  let im := (s.quad quad).image.getD {}
  let bank := (s.quad quad).bank b
  match e.bitmap.bind fun x => s.spadPoison r.core x.1 x.2.1 with
  | some a => s.pressEnd quad r .faulted cPOISON a j
  | none =>
    match s.readFault r.core e.vat (e.unread 0 (t.addrs bm need.1 need.2)) with
    | some f => s.pressEnd quad r .faulted f.1 f.2 j
    | none =>
      let vas := e.unread 0 (t.unitReach e bm j j)
      if (e.grouped && s.rowLocked r.core e.vat [] vas) || s.engHeld r.core e.vat [] vas [] then s
      else if bank.poisoned row0 t.others 0 256 then s.accFault quad r
      else
        let got := (vas.filter fun va => match s.engByte r.core e.vat [] false va with | .ok _ => true | _ => false).map fun va =>
          (0, va, s.engRead r.core e.vat [] va)
        let e := { e with snap := e.snap ++ got }
        let s := s.updEmber (.live r.core r.slot) fun x => { x with snap := if e.grouped then e.snap else t.stillRead bm (j + 1) e.snap }
        let span := t.span j
        let bank' := (List.range t.others).foldl (fun (bk : Bank) m =>
          let l := t.mill (s.heldRead r.core [] e 0) bm m span.1 span.2
          let a := (l.1.drop (j * bl - span.1)).take bl
          bk.putRow (row0 + m) 0 (im.block (rotLog t.rot) j a (pick l.2 ((j * bl - span.1) / 32)) (bk.at_ (row0 + m)))) bank
        (s.updQuad quad fun q => q.setBank b bank').pressUnit quad r e (j + 1) (256 / bl)

/-- The output codes of destination row i, with the destination's old codes where it accumulates (12 R271). -/
def Drain.codes (d : Drain) (e : Ember) (acc : Bool) (i : Nat) (old : Nat → Nat) (u : List Nat) : List Nat :=
  let vs := (d.row e.seed0 u).zipIdx
  vs.map fun x =>
    let m := d.mode e.seed1 i x.2
    let v := if acc then ((fmtF32.dec (old x.2)).add m x.1).1 else x.1
    ((fmtOf (d.fmt % 64)).conv d.satf m v).1

/-- The bytes of an MX row: elements and scale of each kept group. -/
def Drain.mxRow (d : Drain) (e : Ember) (mask i : Nat) (u : List Nat) : List (Nat × Byte) :=
  let vs := (d.row e.seed0 u).zipIdx.map fun x => (x.1, d.mode e.seed1 i x.2)
  (blocksOf 32 vs).zipIdx.flatMap fun x =>
    if mask.testBit (d.bc0 + 32 * x.2) then
      let r := mxQuantise (fpOf (d.fmt % 64)) x.1
      let bs := leBytes (4 * d.bits) (packElems d.bits r.2.1) ++ leBytes 1 r.1
      let at_ := d.dest + i * d.pitch + mxBlockLen (d.fmt % 64) * x.2
      bs.zipIdx.map fun (y : Byte × Nat) => (swizzle d.swz d.lo ((at_ + y.2) % 2 ^ 64), y.1)
    else []

/-- The bytes of a row of plain elements; the other half of a byte that holds one kept 4-bit element stays. -/
def Drain.plainRow (d : Drain) (mask i : Nat) (codes : List Nat) (old : Nat → Byte) : List (Nat × Byte) :=
  let kept (j : Nat) : Bool := decide (j < d.ncols) && mask.testBit (d.bc0 + j)
  if d.bits = 4 then
    (List.range ((d.ncols + 1) / 2)).flatMap fun k =>
      if kept (2 * k) || kept (2 * k + 1) then
        let a := pick (d.elemAddrs i (2 * k)) 0
        let o := (old a).toNat
        let lo := if kept (2 * k) then pick codes (2 * k) else o % 16
        let hi := if kept (2 * k + 1) then pick codes (2 * k + 1) else o / 16
        [(a, BitVec.ofNat 8 (lo + 16 * hi))]
      else []
  else (List.range d.ncols).flatMap fun j =>
    if kept j then (d.elemAddrs i j).zip (leBytes (d.bits / 8) (pick codes j)) else []

/-- The accumulating drains under way (12 R271), as core, slot and ember. -/
def State.accDrains (s : State) : List (Nat × Nat × Ember) :=
  s.cores.flatMap fun k => (k.2.live.filter fun x => match x.2.op with | .drain _ true => !x.2.st.cur.final | _ => false).map fun x => (k.1, x)
/-- Whether an ember has put off a write of one of some locations. -/
def Ember.lateOn (e : Ember) (locs : List Nat) : Bool := e.late.any fun l => l.ws.any fun w => locs.contains w.1
/-- An accumulating drain reads and writes a unit of its destination as one with respect to other drains (12 R271): what such a drain has
read of some locations and put off to write is written before another drain, or a later row, comes to them; -/
def State.flushAcc (s : State) (locs : List Nat) : State :=
  s.accDrains.foldl (fun s x => if x.2.2.lateOn locs then s.flushLate x.2.2.uid else s) s
/-- and what it has read ahead of locations that are now written is read again. -/
def State.rereadAcc (s : State) (locs : List Nat) : State :=
  s.accDrains.foldl (fun s x => if x.2.2.snap.isEmpty then s else s.updEmber (.live x.1 x.2.1) fun e => { e with
    snap := e.snap.filter fun y => !locs.contains (s.engByte x.1 e.vat [] true y.2.1).loc }) s
/-- The locations of some addresses that a drain writes. -/
def State.drainLocs (s : State) (core vat : Nat) (vas : List Nat) : List Nat := vas.map fun va => (s.engByte core vat [] true va).loc
/-- The writes of a drain's row. -/
def State.drainPut (s : State) (r : PressRun) (e : Ember) (ws : List (Nat × Byte)) : State :=
  (s.engWrite r.core e.uid e.vat [] ws).rereadAcc (s.drainLocs r.core e.vat (ws.map (·.1)))

/-- One destination row of a drain; the units of a pane's row change at one instant (12 R273; log entry 137). -/
def State.drainRow (s : State) (r : PressRun) (e : Ember) (acc : Bool) (bank : Bank) (mask : Nat × Nat) (i : Nat) : State :=
  let d := e.drainBlk
  if !mask.1.testBit (d.br0 + i) then s
  else
    let u := (List.range d.ncols).map fun j => bank.at_ (d.br0 + i) (d.bc0 + j)
    let s := if d.panes then s else s.flushAcc (s.drainLocs r.core e.vat (d.writes mask i 1))
    if d.mx then s.drainPut r e (d.mxRow e mask.2 i u)
    else
      let held := ((s.emberAt e.uid).map (·.2)).getD e
      let old (j : Nat) : Nat := leNat ((d.elemAddrs i j).map (s.heldRead r.core [] held 0))
      let codes := d.codes e acc i old u
      if d.panes then
        let ph := (s.ctx e.ctx).panebase + d.dest + i / 64
        let whole := d.ncols * d.bits == 1024 && mask.2 / 2 ^ d.bc0 % 2 ^ d.ncols + 1 == 2 ^ d.ncols
        let s := s.updCore r.core fun k => codes.zipIdx.foldl (fun (k : Core) x =>
          if mask.2.testBit (d.bc0 + x.2) then k.setCell ph (i % 64) x.2 d.bits x.1 else k) k
        if whole then s.updCtx e.ctx (·.unmark (.row ph (i % 64))) else s
      else
        s.drainPut r e (d.plainRow mask.2 i codes fun a => s.byte (s.engByte r.core e.vat [] true a).loc)

/-- A boundary of a press.drain: eight destination rows are written (12 R270, R271), by the mask as memory holds it now (log entry 136). -/
def State.drainBoundary (s : State) (quad : Nat) (r : PressRun) (e : Ember) (b acc : Bool) : State :=
  let d := e.drainBlk
  let i0 := r.unit
  let n := min 8 (d.nrows - i0)
  let mask := s.maskOf r.core d
  let bank := (s.quad quad).bank b
  let ws := d.writes mask i0 n
  let rows := ((List.range n).map (· + i0)).filter fun i => mask.1.testBit (d.br0 + i)
  if s.paneBad e d then s.pressEnd quad r .faulted cRANGE 0 i0
  else if s.engHeld r.core e.vat [] (if acc then ws else []) ws then s
  else match s.engCheck r.core e.vat [] (if acc then ws else []) ws with
  | some f => s.pressEnd quad r .faulted f.1 f.2 i0
  | none =>
    match if acc then s.engPoison r.core e.vat [] (e.unread 0 ws) else none with
    | some a => s.pressEnd quad r .faulted cPOISON a i0
    | none =>
      let locs := s.drainLocs r.core e.vat ws
      let s := s.flushAcc locs
      if rows.any fun i => bank.poisoned (d.br0 + i) 1 d.bc0 d.ncols then s.accFault quad r
      else if s.accDrains.any fun x => x.2.2.lateOn locs then s
      else (rows.foldl (fun s i => s.drainRow r e acc bank mask i) s).pressUnit quad r e (i0 + n) d.nrows

/-- The end of a press.zero (12 R272). -/
def State.zeroEnd (s : State) (quad : Nat) (r : PressRun) (e : Ember) (b : Bool) : State :=
  let d := e.drainBlk
  let inside (row col : Nat) : Bool := decide (d.br0 ≤ row) && decide (row < d.br0 + d.nrows) && decide (d.bc0 ≤ col) && decide (col < d.bc0 + d.ncols)
  let clear (k : Bank) : Bank := { k with
    acc := k.acc.filter fun x => !inside (x.1 / 256) (x.1 % 256),
    bad := k.bad.filter fun u => !(inside (u / 32) (u % 32 * 8) && inside (u / 32) (u % 32 * 8 + 7)) }
  let s := s.updQuad quad fun q => q.setBank b (clear (q.bank b))
  if e.cancelDue s.now then s.pressEnd quad r .cancelled cCANCEL 0 0 else s.pressEnd quad r .done 0 0 0

/-- Whether a run or drain stands at a boundary: it has reached one. -/
def PressRun.atBoundary (r : PressRun) : Bool := r.held || decide (0 < r.unit)
/-- Whether the command on the array stands still: begun in this cycle (11 R229), done but kept open, or at a boundary while its vat
is being halted (R248); in a vat that is cancelled it goes on to its next boundary (16 R348). -/
def State.pressStill (s : State) (r : PressRun) (e : Ember) : Bool :=
  e.fresh s.now || e.allDone || (r.atBoundary && s.halting e.vat r.core && !(s.vat e.vat).cancelled)

/-- The next boundary of the command on the array. -/
def State.pressStep (s : State) (quad : Nat) (r : PressRun) (e : Ember) : State :=
  if s.pressStill r e then s
  else match e.op with
  | .stat _ _ => s.statBoundary quad r e
  | .run b _ _ => s.runBoundary quad r e b
  | .drain b acc => s.drainBoundary quad r e b acc
  | .zero b => s.zeroEnd quad r e b
  | _ => s

/-- What the command on the array reads ahead for the boundary that comes u boundaries after its next one. -/
def State.pressReads (s : State) (r : PressRun) (e : Ember) (u : Nat) : List Nat :=
  match e.op with
  | .stat _ _ => if fld e.cmd 56 1 = 2 ∨ u ≠ 0 then [] else e.tile.addrs none 0 256
  | .run _ _ _ =>
    if 256 / blockLen e.tile.cmp ≤ r.unit + u then [] else e.tile.unitReach e (s.bitmapOf r.core e) r.unit (r.unit + u)
  | .drain _ true => let d := e.drainBlk; d.writes (s.maskOf r.core d) (r.unit + 8 * u) (min 8 (d.nrows - (r.unit + 8 * u)))
  | _ => []

/-- PRESS_BOUNDARY (12 R274): the command on the array comes to its next boundary, or a part of it is done (14 R308). -/
def execPressBoundary (task : Nat × Part) (s : State) : Host.Outcome State Fault Refusal :=
  let (quad, part) := task
  if s.stopped (quad / 256) then .next s
  else match s.pressRun quad with
  | none => .next s
  | some (r, e) => .next (s.inPart e.uid part
      (fun u sel => if s.pressStill r e then s
        else s.readAhead (.live r.core r.slot) r.core [] e 0 (s.pressReads r e u) e.grouped sel)
      fun s => s.pressStep quad r e)

end Sys2Proof.Machine
end

