-- ==== Sys2Proof/Machine/Cave.lean ====
section
/-! DEFINITION. The cave optimiser (18 R406 to R408, 14 R320): FP32 arithmetic with its special values, the start of an
update and one row group. -/

namespace Sys2Proof.Machine

/- FP32 on codes, every result rounded to nearest even (18 R407) -/

def f32Val (v : Val) : Nat := (fmtF32.conv false .rne v).1
def f32Add (a b : Nat) : Nat := f32Val ((fmtF32.dec a).add .rne (fmtF32.dec b)).1
def f32Sub (a b : Nat) : Nat := f32Val ((fmtF32.dec a).add .rne (fmtF32.dec b).neg).1
def f32Mul (a b : Nat) : Nat := f32Val ((fmtF32.dec a).mul (fmtF32.dec b)).1
/-- The sign of a code. -/
def f32Inf (neg : Bool) : Nat := if neg then 0xFF800000 else 0x7F800000
def f32Nan : Nat := 0x7FC00000

/-- Division, correctly rounded. -/
def f32Div (a b : Nat) : Nat :=
  match fmtF32.dec a, fmtF32.dec b with
  | .nan, _ => f32Nan
  | _, .nan => f32Nan
  | .inf _, .inf _ => f32Nan
  | .inf n, .fin k m _ => f32Inf (if m = 0 then n else n != k)
  | .fin n _ _, .inf k => f32Val (.fin (n != k) 0 0)
  | .fin n m e, .fin k m' e' =>
    if m' = 0 then (if m = 0 then f32Nan else f32Inf n)
    else (fmtF32.round false .rne (n != k) m m' (e - e')).1

/-- Square root, correctly rounded: 64 bits of root and a sticky bit. -/
def f32Sqrt (a : Nat) : Nat :=
  match fmtF32.dec a with
  | .nan => f32Nan
  | .inf n => if n then f32Nan else f32Inf false
  | .fin n m e =>
    if m = 0 then f32Val (.fin n 0 0)
    else if n then f32Nan
    else
      let x := if e % 2 = 0 then m * 2 ^ 128 else m * 2 ^ 129
      let e := if e % 2 = 0 then e - 128 else e - 129
      let q := isqrt x
      (fmtF32.round false .rne false (2 * q + if q * q = x then 0 else 1) 1 (e / 2 - 1)).1

/- The command (18 Tables 18.9) -/

/-- Fields of a cave update. The 64 bytes after the command block are the hyperparameters read at the start. -/
structure CaveCmd where
  master : Nat := 0
  grad : Nat := 0
  mom : Nat := 0
  hyp : Nat := 0
  n : Nat := 1
  origin : Nat := 0
  main : Nat := 0x21
  res : Nat := 0x21
  sr : Bool := false
  deriving DecidableEq, Repr, Inhabited

def caveCmd (b : List Byte) : CaveCmd :=
  { master := fld b 0 8, grad := fld b 8 8, mom := fld b 16 8, hyp := fld b 24 8, n := fld b 32 8, origin := fld b 40 8,
    main := fld b 48 1, res := fld b 49 1, sr := fld b 50 1 == 1 }

/-- Row groups of 1,024 elements. -/
def CaveCmd.groups (c : CaveCmd) : Nat := (c.n + 1023) / 1024
/-- The second moments. -/
def CaveCmd.vbase (c : CaveCmd) : Nat := c.mom + 4096 * c.groups
/-- The intervals of an update: address, length, whether written. -/
def CaveCmd.spans (c : CaveCmd) : List (Nat × Nat × Bool) :=
  [(c.master, 2112 * c.groups, true), (c.grad, 4 * c.n, false), (c.mom, 4 * c.n, true), (c.vbase, 4 * c.n, true), (c.hyp, 64, false)]

/-- One address on each page of an interval: its first byte there. -/
def spanVas (va n : Nat) : List Nat := if n = 0 then [] else (pagesOf va n).map fun p => max va (4096 * p)

/-- Those addresses, and every byte of an interval on a page that a range entry holds in part (17 R370). -/
def State.spanBytes (s : State) (vat va n : Nat) : List Nat := if n = 0 then [] else s.pieces [] vat va n

def overlap (a b : Nat × Nat × Bool) : Bool := decide (a.1 < b.1 + b.2.1) && decide (b.1 < a.1 + a.2.1)
/-- Whether two of a list of intervals overlap. -/
def anyOverlap : List (Nat × Nat × Bool) → Bool
  | [] => false
  | x :: t => t.any (overlap x) || anyOverlap t

/-- The faults of an update at its start (18 R408), in the order of log entry 143; a poisoned hyperparameter unit faults here too. -/
def State.caveFault (s : State) (core : Nat) (e : Ember) : Option (Nat × Nat) :=
  let b := e.cmd
  let c := caveCmd b
  if fld b 51 13 != 0 || decide (1 < fld b 50 1) || c.n == 0 || decide (2 ^ 40 < c.n)
    || !(isSignedB8 c.main && decide (c.main < 40)) || !(isSignedB8 c.res && decide (c.res < 40)) || anyOverlap c.spans then
    some (cRANGE, 0)
  else match [c.master, c.grad, c.mom, c.hyp].find? fun a => a % 64 != 0 with
  | some a => some (cALIGN, a)
  | none =>
    let vas := c.spans.flatMap fun x => s.spanBytes e.vat x.1 x.2.1
    match vas.find? fun va => match regionOf va with | some (.glob, _) => false | _ => true with
    | some va => some (cMISS, va)
    | none =>
      match s.engCheck core e.vat [] vas ((c.spans.filter (·.2.2)).flatMap fun x => s.spanBytes e.vat x.1 x.2.1) with
      | some f => some f
      | none =>
        let hv := (List.range 64).map (· + c.hyp)
        match s.engPoison core e.vat [] hv with
        | some a => some (cPOISON, a / 32 * 32)
        | none => if fld (hv.map (s.engRead core e.vat [])) 32 32 != 0 then some (cRANGE, 0) else none

/-- The addresses that row group i reads, and those it writes. -/
def CaveCmd.reach (c : CaveCmd) (i : Nat) : List Nat × List Nat :=
  let n := min 1024 (c.n - 1024 * i)
  let run (a k : Nat) : List Nat := (List.range k).map (· + a)
  let rw := run (c.master + 2112 * i) 2112 ++ run (c.mom + 4096 * i) (4 * n) ++ run (c.vbase + 4096 * i) (4 * n)
  (run (c.master + 2112 * i) 2112 ++ run (c.grad + 4096 * i) (4 * n) ++ run (c.mom + 4096 * i) (4 * n) ++ run (c.vbase + 4096 * i) (4 * n), rw)

/-- Whether what an update needs at its start waits for a stack that recalibrates (20 R424). -/
def State.caveHeld (s : State) (core : Nat) (e : Ember) : Bool :=
  s.recal && let c := caveCmd e.cmd
    s.engHeld core e.vat [] ((List.range 64).map (· + c.hyp)) [] ||
      s.walksHeld e.vat (c.spans.flatMap fun x => spanVas x.1 x.2.1)

/-- An update begins: its hyperparameters are read. -/
def State.caveBegin (s : State) (core slot : Nat) (e : Ember) : State :=
  let fault := s.caveFault core e
  let s := s.beginEmber core slot
  match fault with
  | some f => s.finishEmber core slot .faulted f.1 f.2 0
  | none =>
    let hyp := (List.range 64).map fun i => s.engRead core e.vat [] ((caveCmd e.cmd).hyp + i)
    s.updCore core fun k => match k.ember slot with
      | some e => k.setEmber slot { e with cmd := e.cmd.take 64 ++ hyp }
      | none => k

/- One element (18 R407) -/

/-- New master value, m and v of an element: from its gradient, its master value, m and v. -/
def caveElem (h : Nat → Nat) (g w m v : Nat) : Nat × Nat × Nat :=
  let lr := h 0
  let b1 := h 1
  let b2 := h 2
  let eps := h 3
  let lam := h 4
  let c1 := h 5
  let c2 := h 6
  let one := 0x3F800000
  let g := f32Mul g (h 7)
  let m := f32Add (f32Mul b1 m) (f32Mul (f32Sub one b1) g)
  let v := f32Add (f32Mul b2 v) (f32Mul (f32Sub one b2) (f32Mul g g))
  let u := f32Div (f32Mul m c1) (f32Add (f32Sqrt (f32Mul v c2)) eps)
  (f32Sub w (f32Mul lr (f32Add u (f32Mul lam w))), m, v)

/-- A block of 32 master values as written: main scale and codes, residual scale and codes. -/
def caveBlock (c : CaveCmd) (seed : Word) (i0 : Nat) (ws : List Nat) : (Nat × List Nat) × (Nat × List Nat) :=
  let a := mxQuantise (fpOf c.main) (ws.map fun w => (fmtF32.dec w, Mode.rne))
  let r := (ws.zip a.2.1).map fun x => f32Sub x.1 (f32Val (mxVal (fpOf c.main) a.1 x.2))
  let md (j : Nat) : Mode := if c.sr then .sr 16 (keyMix seed (BitVec.ofNat 64 (c.origin + i0 + j))) else .rne
  let b := mxQuantise (fpOf c.res) (r.zipIdx.map fun x => (fmtF32.dec x.1, md x.2))
  ((a.1, a.2.1), (b.1, b.2.1))

/-- The n values kept, padding after them. -/
def padded (n : Nat) (l : List Nat) : List Nat := l.zipIdx.map fun x => if x.2 < n then x.1 else 0

/-- One row group: its writes and the blocks whose scale is 0xFF (18 R407). The two parts of a master value are each rounded to FP32
before they are added, as R407 has it (log entry 110). -/
def State.caveGroup (s : State) (core : Nat) (e : Ember) (c : CaveCmd) (i : Nat) : List (Nat × Byte) × Nat :=
  let rd (va n : Nat) : Nat := leNat ((List.range n).map fun j => s.heldRead core [] e 0 (va + j))
  let h (k : Nat) : Nat := fld e.cmd (64 + 4 * k) 4
  let i0 := 1024 * i
  let n := min 1024 (c.n - i0)
  let base := c.master + 2112 * i
  let bytes := (List.range 2112).map fun j => (s.heldRead core [] e 0 (base + j)).toNat
  let at_ (j : Nat) : Nat := pick bytes j
  let w (j : Nat) : Nat :=
    let b := j / 32
    f32Add (f32Val (mxVal (fpOf c.main) (at_ (2048 + b)) (at_ (64 * b + j % 32))))
      (f32Val (mxVal (fpOf c.res) (at_ (2080 + b)) (at_ (64 * b + 32 + j % 32))))
  let out := (List.range n).map fun j =>
    let o := 4 * (i0 + j)
    caveElem h (rd (c.grad + o) 4) (w j) (rd (c.mom + o) 4) (rd (c.vbase + o) 4)
  let blk (b : Nat) :=
    let k := min 32 (n - 32 * b)
    if n ≤ 32 * b then ((0, List.replicate 32 0), (0, List.replicate 32 0))
    else
      let ws := (List.range 32).map fun j => if j < k then ((out[32 * b + j]?).getD (0, 0, 0)).1 else 0
      let x := caveBlock c e.seed0 (i0 + 32 * b) ws
      ((x.1.1, padded k x.1.2), (x.2.1, padded k x.2.2))
  let blks := (List.range 32).map blk
  let by8 (va v : Nat) : Nat × Byte := (va, BitVec.ofNat 8 v)
  let master := (blks.zipIdx.flatMap fun x =>
      (x.1.1.2.zipIdx.map fun y => by8 (base + 64 * x.2 + y.2) y.1) ++ x.1.2.2.zipIdx.map fun y => by8 (base + 64 * x.2 + 32 + y.2) y.1)
    ++ (blks.zipIdx.map fun x => by8 (base + 2048 + x.2) x.1.1.1) ++ blks.zipIdx.map fun x => by8 (base + 2080 + x.2) x.1.2.1
  let word (va v : Nat) : List (Nat × Byte) := (leBytes 4 v).zipIdx.map fun x => (va + x.2, x.1)
  let ms := out.zipIdx.flatMap fun x => word (c.mom + 4 * (i0 + x.2)) x.1.2.1 ++ word (c.vbase + 4 * (i0 + x.2)) x.1.2.2
  (master ++ ms, (blks.filter fun x => x.1.1 == 255 || x.2.1 == 255).length)

/-- The row groups of a press command with .snap of which it has read a part, as what it reads of each (14 R321). -/
def State.pressGroups (s : State) (core : Nat) (e : Ember) : List (List Nat) :=
  if e.grouped then
    let bm := s.bitmapOf core e
    ((e.tile.groups bm 0 256).map fun g => e.tile.groupAddrs bm [g]).filter fun vas => vas.any (e.holds 0) && !(e.unread 0 vas).isEmpty
  else []
/-- The chunks of a copy with .snap of which it has read a part (13 R286). -/
def State.copyGroups (s : State) (core slot : Nat) (e : Ember) : List (List Nat) :=
  match (s.quad (core / 4)).copies.find? fun r => r.core == core && r.slot == slot with
  | some r =>
    ((e.snap.map (·.1)).eraseDups.filter fun u =>
      decide (r.unit ≤ u) && !(e.unread u (s.unitSource r e (copyDesc e.cmd) (u - r.unit))).isEmpty).map
        fun u => (e.snap.filter fun x => x.1 == u).map (·.2.1)
  | none => []
/-- Whether an engine that reads with .snap has read a part of the row group of some lines: it holds the group's lock until it has read
the rest (13 R286, 14 R321). -/
def State.readerHolds (s : State) (lines : List Nat) : Bool :=
  s.cores.any fun k => k.2.live.any fun x =>
    let e := x.2
    let tlb := if e.op.kind = 1 then (s.quad (k.1 / 4)).tlb else []
    e.isSnap && !e.snap.isEmpty && !e.allDone && !e.st.cur.final &&
      ((if e.op.kind = 1 then s.copyGroups k.1 x.1 e else s.pressGroups k.1 e).any fun vas =>
        vas.any fun va => lines.contains ((s.engByte k.1 e.vat tlb false va).loc / 64))

/-- The next row group of an update under way is locked; one that another update holds, or of which a reader has read a part, is waited
for (14 R320, R321). -/
def State.caveLock (s : State) (p : EPlace) (e : Ember) : State :=
  let core := coreOf e.ctx
  let c := caveCmd e.cmd
  let i := e.prog % 2 ^ 40
  let (rds, wrs) := c.reach i
  if s.engHeld core e.vat [] rds wrs then s
  else match s.engCheck core e.vat [] rds wrs with
  | some f => s.emberEnd e.uid .faulted f.1 f.2 e.prog
  | none =>
    match s.engPoison core e.vat [] rds with
    | some a => s.emberEnd e.uid .faulted cPOISON (a / 32 * 32) e.prog
    | none =>
      let group := (List.range 2112).map fun j => c.master + 2112 * i + j
      let lines := (group.map fun va => (s.engByte core e.vat [] false va).loc / 64).eraseDups
      if s.rowLocked core e.vat [] group || s.readerHolds lines then s
      else s.updEmber p fun e => { e with work := some { lines := lines } }

/-- The locked row group is read, what has not been read ahead of it, and computed (14 R320). -/
def State.caveRead (s : State) (p : EPlace) (e : Ember) (w : CaveWork) : State :=
  let core := coreOf e.ctx
  let c := caveCmd e.cmd
  let i := e.prog % 2 ^ 40
  let (rds, wrs) := ((e.unread 0 (c.reach i).1), (c.reach i).2)
  if s.engHeld core e.vat [] rds wrs then s
  else match s.engCheck core e.vat [] rds wrs with
  | some f => s.emberEnd e.uid .faulted f.1 f.2 e.prog
  | none =>
    match s.engPoison core e.vat [] rds with
    | some a => s.emberEnd e.uid .faulted cPOISON (a / 32 * 32) e.prog
    | none =>
      let (ws, ff) := s.caveGroup core e c i
      s.updEmber p fun e => { e with snap := [], work := some { w with isRead := true, todo := ws, ff := ff } }

/-- A row group of which every write has been performed, those that were parked too, is counted and its lock released (14 R320, 18
R408). -/
def State.caveClose (s : State) (p : EPlace) (e : Ember) (w : CaveWork) : State :=
  if s.emberParked e.uid then s
  else
    let i := e.prog % 2 ^ 40
    let prog := min (e.prog / 2 ^ 40 + w.ff) (2 ^ 24 - 1) * 2 ^ 40 + (i + 1)
    let s := s.updEmber p fun e => { e with prog := prog, work := none }
    if i + 1 = (caveCmd e.cmd).groups then s.emberEnd e.uid .done 0 0 prog else s

/-- Writes of a locked row group are performed, by aligned 4-byte units in any order (14 R320). -/
def State.cavePut (s : State) (p : EPlace) (e : Ember) (w : CaveWork) (sel : Nat) : State :=
  let core := coreOf e.ctx
  let now := (w.todo.zipIdx.filter fun x => sel.testBit (x.2 / 4)).map (·.1)
  let rest := (w.todo.zipIdx.filter fun x => !sel.testBit (x.2 / 4)).map (·.1)
  if s.engHeld core e.vat [] [] (now.map (·.1)) then s
  else match s.engCheck core e.vat [] [] (now.map (·.1)) with
  | some f => (s.updEmber p fun e => { e with work := some { w with todo := [] } }).emberEnd e.uid .faulted f.1 f.2 e.prog
  | none =>
    let s := (s.engWrite core e.uid e.vat [] now).updEmber p fun e => { e with work := some { w with todo := rest } }
    if rest.isEmpty then s.caveClose p e w else s

/-- A step of an update under way: the row group in work, or the next one; some of its reads alone, or all that is left of them and
those of its writes that sel names. -/
def State.caveStep (s : State) (p : EPlace) (e : Ember) (sel : Nat) (reads : Option Nat) : State :=
  let s := if e.work.isNone then s.caveLock p e else s
  match s.emberAt e.uid with
  | none => s
  | some (p, e) => match e.work with
    | none => s
    | some w =>
      if e.allDone || e.st.cur.final then s
      else if w.isRead then s.cavePut p e w sel
      else match reads with
      | some m => s.readAhead p (coreOf e.ctx) [] e 0 ((caveCmd e.cmd).reach (e.prog % 2 ^ 40)).1 false m
      | none =>
        let s := s.caveRead p e w
        match s.emberAt e.uid with
        | some (p, e) => match e.work with
          | some w => if w.isRead && !e.allDone && !e.st.cur.final then s.cavePut p e w sel else s
          | none => s
        | none => s

/-- CAVE_UPDATE_STEP (18 R406 to R408): an update begins, or takes its next row group; the first half of sel names, by number among the aligned
4-byte units of the row group still to be written, those that are performed now; the second those of its reads that are performed alone
(14 R308). -/
def execCaveUpdateStep (ember : Nat) (sel : Nat × Option Nat) (s : State) : Host.Outcome State Fault Refusal :=
  if s.issue.active then .next s
  else match s.emberAt ember with
  | none => .next s
  | some (p, e) =>
    if e.op != .cave || e.st.cur.final || e.allDone || e.fresh s.now || (s.modu (e.ctx / 4096)).halted then .next s
    else if e.began then .next (s.caveStep p e sel.1 sel.2)
    else match p with
    | .live core slot =>
      if s.canStart core slot 3 && !s.outranked core e.prio && !s.caveHeld core e then .next (s.caveBegin core slot e) else .next s
    | .saved _ _ _ => .next s

end Sys2Proof.Machine
end

