-- ==== Sys2Proof/Machine/Coll.lean ====
section
/-! DEFINITION. Collectives (18 R385, R386, R396 to R405): the command block, layouts and groups, faults at the start and
at matching, parts that arrive, the combine modes, whey masks, the end of a member. -/

namespace Sys2Proof.Machine

/- The command block (18 Table 18.6) -/

def axSize (b : List Byte) (k : Nat) : Nat := if fld b (4 + k) 1 / 64 = 0 then 1 else 2 ^ (fld b (4 + k) 1 % 16)
def axUsed (b : List Byte) (k : Nat) : Bool := fld b (4 + k) 1 / 64 != 0
def axDies (b : List Byte) (k : Nat) : Bool := fld b (4 + k) 1 / 64 == 1
/-- Bits that the die-bound axes, or the module-bound ones, take below axis k. -/
def axBits (b : List Byte) (dies : Bool) (k : Nat) : Nat :=
  (List.range k).foldl (fun n j => if axUsed b j && axDies b j == dies then n + fld b (4 + j) 1 % 16 else n) 0
/-- The place of an axis in a peer index (18 R398). -/
def axPos (b : List Byte) (k : Nat) : Nat := if axDies b k then axBits b true k else 3 + axBits b false k
/-- A member's coordinate on an axis. -/
def axCoord (b : List Byte) (pid k : Nat) : Nat := pid / 2 ^ axPos b k % axSize b k
/-- State of an axis in the source or the destination layout: 0 replicated, 1 partial, 2 sharded. -/
def axState (b : List Byte) (src : Bool) (k : Nat) : Nat := fld b (if src then 14 else 15) 1 / 4 ^ k % 4
/-- The axes that shard a dim. -/
def dimMask (b : List Byte) (src : Bool) (j : Nat) : Nat := fld b (if src then 16 else 18) 2 / 16 ^ j % 16
def dimAxes (b : List Byte) (src : Bool) (j : Nat) : List Nat := (List.range 4).filter (dimMask b src j).testBit
def dimShards (b : List Byte) (src : Bool) (j : Nat) : Nat := (dimAxes b src j).foldl (fun n k => n * axSize b k) 1
def dimExtent (b : List Byte) (j : Nat) : Nat := fld b (24 + 4 * j) 4
/-- The extent of a local buffer along a dim. -/
def dimLocal (b : List Byte) (src : Bool) (j : Nat) : Nat := dimExtent b j / dimShards b src j
/-- A member's shard index along a dim: mixed radix, the lowest axis most significant (18 R398). -/
def shardIdx (b : List Byte) (src : Bool) (pid j : Nat) : Nat := (dimAxes b src j).foldl (fun n k => n * axSize b k + axCoord b pid k) 0
/-- Elements of a local buffer and its bytes. -/
def bufElems (b : List Byte) (src : Bool) : Nat := (List.range 4).foldl (fun n j => n * dimLocal b src j) 1
def collBits (b : List Byte) : Nat := fmtBits (fld b 1 1 % 64)
def bufBytes (b : List Byte) (src : Bool) : Nat := (bufElems b src * collBits b + 7) / 8
def collMode (b : List Byte) : Nat := fld b 0 1 % 4
def collTag (b : List Byte) : Nat := fld b 12 2
def collSrc (b : List Byte) : Nat := fld b 40 8
def collDst (b : List Byte) : Nat := fld b 48 8
def collMaskAt (b : List Byte) : Nat := fld b 56 8
/-- Destination blocks of 256 bytes, elements in one, and bytes of the whey mask (18 R404). -/
def collBlocks (b : List Byte) : Nat := (bufBytes b false + 255) / 256
def blockElems (b : List Byte) : Nat := 2048 / collBits b
def maskBytes (b : List Byte) : Nat := ((collBlocks b + 7) / 8 + 63) / 64 * 64
/-- Axes along which partials are reduced, and whether there are any (18 Table 18.7). -/
def redAxes (b : List Byte) : List Nat := (List.range 4).filter fun k => axUsed b k && axState b true k == 1 && axState b false k != 1
/-- Members that share a partial coordinate (18 R403). -/
def redCount (b : List Byte) : Nat := (redAxes b).foldl (fun n k => n * axSize b k) 1
/-- The number of a member among them. -/
def redIdx (b : List Byte) (pid : Nat) : Nat := (redAxes b).foldl (fun n k => n * axSize b k + axCoord b pid k) 0

/-- A layout that breaks 18 R397. -/
def layoutBad (b : List Byte) (src : Bool) : Bool :=
  (List.range 4).any fun k =>
    let st := axState b src k
    let dims := ((List.range 4).filter fun j => (dimMask b src j).testBit k).length
    st == 3 || decide (1 < dims) || (st == 2) != (dims == 1) || (!axUsed b k && (st != 0 || dims != 0))

/-- An extent of 0, one that its shards do not divide, one above the rank that is not 1. -/
def extentBad (b : List Byte) : Bool :=
  (List.range 4).any fun j =>
    let x := dimExtent b j
    x == 0 || (decide (fld b 3 1 ≤ j) && x != 1) || x % dimShards b true j != 0 || x % dimShards b false j != 0

/-- The first row of 18 Table 18.8 but for what needs the machine's state. -/
def collRange (b : List Byte) (det : Bool) : Bool :=
  let mode := collMode b
  let f := fld b 1 1
  let partialAx := (List.range 4).any fun k => axUsed b k && (axState b true k == 1 || axState b false k == 1)
  let lc := fld b 2 1
  let reserved := mode == 3 || decide (4 ≤ fld b 0 1) || decide (8 ≤ fld b 3 1) || fld b 3 1 == 0 || decide (4 < fld b 3 1) || fld b 8 4 != 0
    || (List.range 4).any fun k => fld b (4 + k) 1 / 64 == 3 || fld b (4 + k) 1 / 16 % 4 != 0
  reserved || decide (64 ≤ f) || !fmtOk f || f == 8 || (partialAx && decide (2 < f))
  || decide (3 < axBits b true 4) || decide (9 < axBits b false 4) || layoutBad b true || layoutBad b false || extentBad b
  || (if mode = 1 then decide (12 < lc) || decide (2 ^ lc < redCount b) else lc != 0)
  || (if mode = 2 then fld b 20 4 == 0 || bufBytes b false % 256 != 0 else fld b 20 4 != 0 || collMaskAt b != 0)
  || overlap (collSrc b, bufBytes b true, false) (collDst b, bufBytes b false, true)
  || (det && mode != 1)

/-- A pair of states outside 18 Table 18.7. -/
def pairBad (b : List Byte) : Bool :=
  (List.range 4).any fun k => axUsed b k && !match axState b true k, axState b false k with
    | 1, _ => true
    | 2, d => d == 0 || d == 2
    | 0, d => d == 0
    | _, _ => false

/-- The peer indices of a member's group (18 R398). -/
def groupOf (b : List Byte) (pid : Nat) : List Nat :=
  let m := (List.range 4).foldl (fun n k => n ||| (axSize b k - 1) * 2 ^ axPos b k) 0
  (List.range 4096).filter fun p => p ||| m == pid ||| m

/- Start and matching (18 R400, R401) -/

/-- The die of a core, and a vat's peer index there. -/
def State.memberPid (s : State) (core vat : Nat) : Nat := s.peerId vat (core / 128)

/-- The die that a peer of a vat names, where it can be reached from a die (18 R381, 20 R422). -/
def State.peerDie (s : State) (vat from_ p : Nat) : Option Nat :=
  match (s.vat vat).peers[p]? with
  | some x => if x.valid then (s.dieOfPod x.target).filter fun d => s.routeUp from_ d else none
  | none => none

/-- Whether a collective that has been offered has not begun: PENDING, or ORPHANED, which counts as PENDING (11 R228). -/
def Ember.isOffer (e : Ember) : Bool := e.op == .coll && e.offered && !e.began && !e.st.cur.final
/-- Whether another ember of the vat on the die is offered with the same tag and has not begun. -/
def State.tagTaken (s : State) (core : Nat) (e : Ember) : Bool :=
  s.cores.any fun k => k.1 / 128 == core / 128 && k.2.live.any fun x =>
    x.2.uid != e.uid && x.2.vat == e.vat && x.2.isOffer && collTag x.2.cmd == collTag e.cmd

/-- The faults of a collective at its start (18 Table 18.8). OPERAND_RANGE, LAYOUT_UNSUPPORTED and the XLATE_MISS of a peer have fault
address 0 (log entry 128); the order of the causes is log entry 142. -/
def State.collFault (s : State) (core : Nat) (e : Ember) : Option (Nat × Nat) :=
  let b := e.cmd
  let whey := collMode b == 2
  if collRange b (s.vat e.vat).desc.det || s.tagTaken core e then some (cRANGE, 0)
  else if pairBad b then some (cLAYOUT, 0)
  else if (groupOf b (s.memberPid core e.vat)).any fun p => (s.peerDie e.vat (core / 128) p).isNone then some (cMISS, 0)
  else
    let wr := s.spanBytes e.vat (collDst b) (bufBytes b false) ++ if whey then s.spanBytes e.vat (collMaskAt b) (maskBytes b) else []
    match s.engCheck core e.vat [] (s.spanBytes e.vat (collSrc b) (bufBytes b true)) wr with
    | some f => some f
    | none => (([collSrc b, collDst b] ++ if whey then [collMaskAt b] else []).find? fun a => a % 64 != 0).map fun a => (cALIGN, a)

/-- Whether a walk that a collective's check at its start needs waits for a stack that recalibrates (20 R424). -/
def State.collChecks (s : State) (e : Ember) : Bool :=
  s.recal && s.walksHeld e.vat (spanVas (collSrc e.cmd) (bufBytes e.cmd true) ++ spanVas (collDst e.cmd) (bufBytes e.cmd false) ++
    if collMode e.cmd = 2 then spanVas (collMaskAt e.cmd) (maskBytes e.cmd) else [])

/-- The offered member of an ember's group on a die: peer index p of a vat there for which that group is the same dies. Its own block
need not be equal: that is the fault of R401 (18 R400). -/
def State.offerOf (s : State) (core : Nat) (e : Ember) (p : Nat) : Option (Nat × Nat × Ember) :=
  let dies (k vat : Nat) : List (Option Nat) := (groupOf e.cmd (s.memberPid k vat)).map (s.peerDie vat (k / 128))
  let mine := dies core e.vat
  match s.peerDie e.vat (core / 128) p with
  | none => none
  | some die =>
    let all := s.cores.flatMap fun k => if k.1 / 128 = die then (k.2.live.map fun x => (k.1, x.1, x.2)) else []
    let good := all.filter fun x => x.2.2.isOffer && collTag x.2.2.cmd == collTag e.cmd
      && s.memberPid x.1 x.2.2.vat == p && dies x.1 x.2.2.vat == mine && !s.halting x.2.2.vat x.1
    match good.find? fun x => x.2.2.vat == e.vat with
    | some x => some x
    | none => match good.find? fun x => x.2.2.cmd.take 40 == e.cmd.take 40 with
      | some x => some x
      | none => good.head?

/-- The members of an ember's group by peer index, core, slot and ember, where every one of them has issued. -/
def State.groupIssued (s : State) (core : Nat) (e : Ember) : Option (List (Nat × Nat × Nat × Ember)) :=
  (groupOf e.cmd (s.memberPid core e.vat)).mapM fun p => (s.offerOf core e p).map fun x => (p, x)
/-- The members of the groups that an ember's issue completes and whose blocks are not equal: of its own group, and of those that other
members' blocks name (18 R401). -/
def State.unequalGroups (s : State) (e : Ember) : List (Nat × Nat × Nat × Ember) :=
  s.cores.flatMap fun k => k.2.live.flatMap fun x =>
    if !x.2.isOffer then []
    else match s.groupIssued k.1 x.2 with
    | some ms => if ms.any (fun m => m.2.2.2.uid == e.uid) && ms.any (fun m => m.2.2.2.cmd.take 40 != x.2.cmd.take 40) then ms else []
    | none => []

/-- Every member of a group has issued: all begin, or all fault on unequal blocks. -/
def State.collMatch (s : State) (core : Nat) (e : Ember) : State :=
  let bad := s.unequalGroups e
  if !bad.isEmpty then bad.foldl (fun s x => s.finishEmber x.2.1 x.2.2.1 .faulted cLAYOUT 0 0) s
  else match s.groupIssued core e with
  | none => s
  | some ms =>
    let group := ms.map fun x => (x.1, x.2.2.2.uid)
    let runs : List CollRun := ms.map fun x =>
      { uid := x.2.2.2.uid, vat := x.2.2.2.vat, core := x.2.1, pid := x.1, beganAt := s.now, cmd := x.2.2.2.cmd, group := group }
    let s := ms.foldl (fun s x => s.beginEmber x.2.1 x.2.2.1) s
    { s with colls := s.colls ++ runs }

/-- COLLECTIVE_BEGIN (18 R400, R401): a member is offered to its group; once every member has issued, they begin. -/
def execCollectiveBegin (ember : Nat) (s : State) : Host.Outcome State Fault Refusal :=
  if s.issue.active then .next s
  else match s.emberAt ember with
  | some (.live core slot, e) =>
    if !s.canStart core slot 2 || (!e.offered && s.outranked core e.prio) || s.collChecks e then .next s
    else match s.collFault core e with
    | some f => .next (s.finishEmber core slot .faulted f.1 f.2 0)
    | none =>
      let e := { e with offered := true }
      .next ((s.updCore core fun k => k.setEmber slot e).collMatch core e)
  | _ => .next s

/- Parts -/

def State.collRun (s : State) (uid : Nat) : Option CollRun := s.colls.find? fun r => r.uid == uid
def State.putColl (s : State) (r : CollRun) : State := { s with colls := s.colls.map fun x => if x.uid = r.uid then r else x }

/-- Local coordinates of an element of a row-major buffer. -/
def localIdx (b : List Byte) (src : Bool) (i j : Nat) : Nat :=
  i / ((List.range 4).foldl (fun n k => if j < k then n * dimLocal b src k else n) 1) % dimLocal b src j
/-- The global index along dim j of element i of a member's destination. -/
def globalIdx (b : List Byte) (pid i j : Nat) : Nat := shardIdx b false pid j * dimLocal b false j + localIdx b false i j
/-- The element of a source buffer that holds a global element. -/
def srcElem (b : List Byte) (pid i : Nat) : Nat :=
  (List.range 4).foldl (fun n j => n * dimLocal b true j + globalIdx b pid i j % dimLocal b true j) 0
/-- Whether member m contributes to element i of the destination of member pid (18 R399): by the two layouts of the block, where several
axes shard one dim too (log entry 127). -/
def contributes (b : List Byte) (pid m i : Nat) : Bool :=
  ((List.range 4).all fun k => !axUsed b k || (redAxes b).contains k || axState b true k == 2 || axCoord b m k == axCoord b pid k)
  && (List.range 4).all fun j => shardIdx b true m j == globalIdx b pid i j / dimLocal b true j
/-- Elements of a destination block. -/
def elemsOf (b : List Byte) (blk : Nat) : List Nat := (List.range (min (blockElems b) (bufElems b false - blk * blockElems b))).map (· + blk * blockElems b)
/-- Members that contribute to a block. -/
def CollRun.senders (r : CollRun) (blk : Nat) : List Nat :=
  (r.group.map (·.1)).filter fun m => (elemsOf r.cmd blk).any (contributes r.cmd r.pid m)

/-- Elements of a block that a member contributes, and the bytes of its source that hold one. -/
def partElems (r m : CollRun) (blk : Nat) : List Nat := (elemsOf r.cmd blk).filter (contributes r.cmd r.pid m.pid)
def partVas (r m : CollRun) (i : Nat) : List Nat :=
  let lo := srcElem r.cmd r.pid i * collBits r.cmd
  (List.range ((lo % 8 + collBits r.cmd + 7) / 8)).map (· + (collSrc m.cmd + lo / 8))

/-- A byte of a sender's source: as read ahead for a member, else as it stands now. -/
def State.sourceByte (s : State) (r m : CollRun) (va : Nat) : Byte :=
  match r.held.find? fun x => x.1 == m.pid && x.2.1 == va with
  | some x => x.2.2
  | none => s.engRead m.core m.vat [] va

/-- Bytes of a sender's source that have not been read ahead for a member. -/
def CollRun.unheld (r m : CollRun) (vas : List Nat) : List Nat := vas.filter fun va => !r.held.any fun x => x.1 == m.pid && x.2.1 == va

/-- The code of an element in a sender's source. -/
def State.sourceCode (s : State) (r m : CollRun) (i : Nat) : Nat :=
  let bits := collBits r.cmd
  leNat ((partVas r m i).map (s.sourceByte r m)) / 2 ^ (srcElem r.cmd r.pid i * bits % 8) % 2 ^ bits

/-- The part of a sender for a block, as its source stands now but for what was read ahead; bytes that no longer translate count as poisoned. -/
def State.pieceOf (s : State) (r m : CollRun) (blk : Nat) : Piece :=
  let is_ := partElems r m blk
  let left (i : Nat) : List Nat := r.unheld m (partVas r m i)
  let bad := is_.filter fun i => (s.engCheck m.core m.vat [] (left i) []).isSome || (s.engPoison m.core m.vat [] (left i)).isSome
  { sender := m.pid, block := blk, codes := is_.map fun i => (i, s.sourceCode r m i), bad := bad,
    addr := ((bad.head?).bind fun i => (s.engPoison m.core m.vat [] (left i)).map fun a => a / 32 * 32).getD 0 }

/-- A sender whose source no longer translates has met a fault (17 R375). -/
def State.noteSource (s : State) (r m : CollRun) (blk : Nat) : State :=
  match s.engCheck m.core m.vat [] (r.unheld m ((partElems r m blk).flatMap (partVas r m))) [] with
  | some f => s.putColl { m with bad := some (m.bad.getD f) }
  | none => s

/- Combining (18 R403) -/

/-- CanonicalRoot. -/
def sumPairs : List Nat → List Nat
  | a :: b :: t => f32Add a b :: sumPairs t
  | l => l
def canonRoot : Nat → List Nat → Nat
  | 0, l => pick l 0
  | n + 1, l => canonRoot n (sumPairs l)

/-- An element of the destination from its contributions (member number, code) in arrival order; none without one. -/
def combine (b : List Byte) (xs : List (Nat × Nat)) : Option Nat :=
  let f := fpOf (fld b 1 1)
  let wide (c : Nat) : Nat := f32Val (f.dec c)
  match xs with
  | [] => none
  | x :: t =>
    if (redAxes b).isEmpty then some x.2
    else
      let v := match collMode b with
        | 0 => t.foldl (fun a y => f32Add a (wide y.2)) (wide x.2)
        | 1 => canonRoot 12 ((List.range (redCount b)).map fun q => wide (((xs.find? fun y => y.1 == q).map (·.2)).getD 0))
        | _ => (rmElem (xs.map fun y => wide y.2) (redCount b)).1
      some (f.conv false .rne (fmtF32.dec v)).1

/-- Contributions to an element among the parts of a block that hold it. -/
def CollRun.parts (r : CollRun) (blk i : Nat) : List (Nat × Nat) :=
  (r.pieces.filter fun p => p.block == blk && p.ok).filterMap fun p => (p.codes.find? fun x => x.1 == i).map fun x => (redIdx r.cmd p.sender, x.2)

/-- The bytes of a destination block whose element codes are known, with their places. -/
def State.blockBytes (s : State) (r : CollRun) (blk : Nat) (code : Nat → Option Nat) : List (Nat × Byte) :=
  let b := r.cmd
  let bits := collBits b
  let base := collDst b + 256 * blk
  (List.range (min 256 (bufBytes b false - 256 * blk))).filterMap fun j =>
    if 8 ≤ bits then
      (code (blk * blockElems b + j / (bits / 8))).map fun c => (base + j, BitVec.ofNat 8 (c / 256 ^ (j % (bits / 8))))
    else
      let lo := blk * blockElems b + 2 * j
      let old := (s.byte (s.engByte r.core r.vat [] true (base + j)).loc).toNat
      (code lo).map fun c =>
        let hi := if lo + 1 < bufElems b false then (code (lo + 1)).getD 0 else old / 16
        (base + j, BitVec.ofNat 8 (c + 16 * hi))

/-- Units of 32 bytes of a block left unwritten are marked poisoned (18 Table 18.8). -/
def State.markUnits (s : State) (r : CollRun) (vas : List Nat) : State :=
  vas.foldl (fun s va => match s.engByte r.core r.vat [] true va with
    | .ok l => s.setBad (l / 32)
    | _ => s) s

/-- The 32-byte unit of its block that an element lies in. -/
def unitOfElem (b : List Byte) (blk i : Nat) : Nat := (i - blk * blockElems b) * collBits b / 256

/-- A destination block is written, each unit once: in whey mode zeros where a part is missing; otherwise units that lack a
part, or hold a poisoned one, are marked, and the member whose destination they are faults, no other (log entry 150). -/
def State.collWrite (s : State) (r : CollRun) (blk : Nat) : State :=
  let b := r.cmd
  let es := elemsOf b blk
  let missing (i : Nat) : Bool :=
    let n := (r.parts blk i).length
    n == 0 || ((redAxes b).isEmpty && n != ((r.group.map (·.1)).filter fun m => contributes b r.pid m i).length)
  let uid := r.uid
  match s.engCheck r.core r.vat [] [] ((List.range (min 256 (bufBytes b false - 256 * blk))).map (· + (collDst b + 256 * blk))) with
  | some f => s.putColl { r with done := nsAdd r.done blk, bad := some (r.bad.getD f) }
  | none =>
  if collMode b = 2 then
    let lost := es.any missing
    let ws := if lost then (List.range 256).map fun j => (collDst b + 256 * blk + j, (0 : Byte))
      else s.blockBytes r blk fun i => combine b (r.parts blk i)
    (s.engWrite r.core uid r.vat [] ws).putColl { r with
      done := nsAdd r.done blk, valid := if lost then r.valid else nsAdd r.valid blk }
  else
    let short := (r.senders blk).filter fun m => !r.pieces.any fun p => p.block == blk && p.sender == m
    let bads := (r.pieces.filter fun p => p.block == blk).flatMap (·.bad)
    let badElem (i : Nat) : Bool := bads.contains i || short.any fun m => contributes b r.pid m i
    let early (u : Nat) : Bool := r.early.contains (8 * blk + u)
    let unitBad (u : Nat) : Bool := !early u && es.any fun i => unitOfElem b blk i == u && badElem i
    let ws := (s.blockBytes r blk fun i => combine b (r.parts blk i)).filter fun w =>
      let u := (w.1 - collDst b) % 256 / 32
      !unitBad u && !early u
    let addr := ((r.pieces.find? fun p => p.block == blk && !p.bad.isEmpty).map (·.addr)).getD 0
    let any := (List.range 8).any unitBad
    let s := s.engWrite r.core uid r.vat [] ws
    let s := s.markUnits r (((List.range 8).filter unitBad).map fun u => collDst b + 256 * blk + 32 * u)
    s.putColl { r with done := nsAdd r.done blk, bad := if any then some (r.bad.getD (cPOISON, addr)) else r.bad }

/-- The block is written once every part is there, or will not come. -/
def State.collSettle (s : State) (r : CollRun) (blk : Nat) : State :=
  let s := s.putColl r
  if r.done.contains blk then s
  else if (r.senders blk).all fun m => r.lost.contains m || r.pieces.any fun p => p.block == blk && p.sender == m then s.collWrite r blk
  else s

/-- The run of a member of the same collective by its peer index. -/
def State.memberRun (s : State) (r : CollRun) (pid : Nat) : Option CollRun :=
  ((r.group.find? fun x => x.1 == pid).map (·.2)).bind s.collRun

/-- Whether a part of a sender for a block can still be taken. -/
def CollRun.wants (r : CollRun) (sender blk : Nat) : Bool :=
  decide (blk < collBlocks r.cmd) && !r.done.contains blk && !r.lost.contains sender && (r.senders blk).contains sender
  && !r.pieces.any fun p => p.block == blk && p.sender == sender

/-- The bytes of a destination block. -/
def CollRun.blockVas (r : CollRun) (blk : Nat) : List Nat :=
  (List.range (min 256 (bufBytes r.cmd false - 256 * blk))).map (· + (collDst r.cmd + 256 * blk))
/-- Whether a member stands still: begun in this cycle (11 R229), or a part of a sender, or its block, lies in a stack that recalibrates
(20 R424). -/
def State.collHeld (s : State) (r : CollRun) (sender : Option CollRun) (blk : Nat) : Bool :=
  decide (s.now ≤ r.beganAt) || (s.recal && (s.engHeld r.core r.vat [] [] (r.blockVas blk) || match sender with
    | some m => s.engHeld m.core m.vat [] (r.unheld m ((partElems r m blk).flatMap (partVas r m))) []
    | none => false))

/-- Whether a block that is not written lacks nothing but parts that will not come, and nothing it needs stands still. -/
def State.loose (s : State) (r : CollRun) (blk : Nat) : Bool :=
  !r.done.contains blk && (r.senders blk).all (fun m => r.lost.contains m || r.pieces.any fun p => p.block == blk && p.sender == m)
    && !s.collHeld r none blk
/-- Such blocks are settled. -/
def State.settleLoose (s : State) (uid : Nat) : State :=
  match s.collRun uid with
  | some r => (List.range (collBlocks r.cmd)).foldl (fun s b => match s.collRun uid with
    | some r => if s.loose r b then s.collWrite r b else s
    | none => s) s
  | none => s
/-- A member lost after the collective has begun (18 R401): blocks that lack nothing but its part are settled, now or, where their bytes lie in
a stack that recalibrates, once it has done (20 R424). -/
def State.loseMember (s : State) (r : CollRun) (pid : Nat) : State :=
  (s.putColl { r with lost := nsAdd r.lost pid }).settleLoose r.uid

/-- All contributions to an element, of parts that have come and of bytes read ahead, in the order of their arrival; none while one is
missing or poisoned. -/
def State.contributions (s : State) (r : CollRun) (blk i : Nat) : Option (List (Nat × Nat)) :=
  let here := r.pieces.filter fun p => p.block == blk
  let ms := (r.group.map (·.1)).filter fun m => contributes r.cmd r.pid m i && !here.any fun p => p.sender == m
  let got (m : Nat) : Option (Nat × Nat) := (s.memberRun r m).bind fun q =>
    if r.lost.contains m || !(r.unheld q (partVas r q i)).isEmpty then none else some (redIdx r.cmd m, s.sourceCode r q i)
  let order := ((r.held.filter fun x => ms.contains x.1 && (s.memberRun r x.1).any fun q => (partVas r q i).contains x.2.1).map (·.1)).eraseDups
  if here.any (fun p => p.bad.contains i) || (r.senders blk).any (fun m => contributes r.cmd r.pid m i && r.lost.contains m) || ms.any fun m => (got m).isNone then none
  else some (r.parts blk i ++ order.filterMap got)
/-- Units of a block of which every contribution has been read are written before the rest of the block is read (14 R308, R319); in
whey mode a block is written once all its parts are there, or none of it (18 R385). -/
def State.collEarly (s : State) (r : CollRun) (blk sel : Nat) : State :=
  let b := r.cmd
  if collMode b == 2 || r.done.contains blk || decide (collBlocks b ≤ blk) || s.collHeld r none blk
    || (s.engCheck r.core r.vat [] [] (r.blockVas blk)).isSome then s
  else
    let us := (List.range 8).filter fun u => sel.testBit u && !r.early.contains (8 * blk + u) &&
      (elemsOf b blk).all fun i => unitOfElem b blk i != u || (s.contributions r blk i).isSome
    let ws := (s.blockBytes r blk fun i => (s.contributions r blk i).bind (combine b)).filter fun w =>
      us.contains ((w.1 - collDst b) % 256 / 32)
    let s := { ({ s with lag := true }.engWrite r.core r.uid r.vat [] ws) with lag := false }
    s.putColl { r with early := r.early ++ us.map (8 * blk + ·) }

/-- Source bytes of a part are read ahead (14 R308). -/
def State.collAhead (s : State) (r : CollRun) (sender block sel : Nat) : State :=
  match s.memberRun r sender with
  | none => s
  | some m =>
    if !r.wants sender block || s.collHeld r (some m) block then s
    else
      let got := (s.aheadBytes m.core m.vat [] ((partElems r m block).flatMap (partVas r m)) sel).filter fun x =>
        !r.held.any fun y => y.1 == m.pid && y.2.1 == x.1
      s.putColl { r with held := r.held ++ got.map fun x => (m.pid, x.1, x.2) }
/-- A part of a sender joins those that have come; what was read ahead for it goes. -/
def CollRun.take (r m : CollRun) (p : Piece) : CollRun :=
  let vas := (partElems r m p.block).flatMap (partVas r m)
  { r with pieces := r.pieces ++ [p], held := r.held.filter fun x => !(x.1 == m.pid && vas.contains x.2.1) }

/-- A part travels as curd to the cave of a member; over no route its sender is lost (18 R402, R403). -/
def State.curdStep (s : State) (ember sender block : Nat) : State :=
  match s.collRun ember with
  | none => s
  | some r =>
    if collMode r.cmd == 2 || !r.wants sender block || s.collHeld r (s.memberRun r sender) block then s
    else match s.memberRun r sender with
    | none => s.loseMember r sender
    | some m =>
      if m.core / 128 ≠ r.core / 128 ∧ !s.routeUp (m.core / 128) (r.core / 128) then s.loseMember r sender
      else
        let p := s.pieceOf r m block
        let s := s.noteSource r m block
        s.collSettle (((s.collRun ember).getD r).take m p) block

/-- Whether the module of a member's core is halted, or a bundle is executing. -/
def State.collStopped (s : State) (ember : Nat) : Bool :=
  s.issue.active || match s.emberAt ember with
    | some (_, e) => (s.modu (e.ctx / 4096)).halted
    | none => true
/-- A part of a member's step (14 R308): bytes of its source read ahead, or, with u, units of its destination written early. -/
def State.collPart (s : State) (ember sender block : Nat) (part : Part) (act : State → State) : State :=
  if s.collStopped ember then s
  else s.inPart ember part (fun u sel => match s.collRun ember with
    | some r => if u = 0 then s.collAhead r sender block sel else s.collEarly r block sel
    | none => s) act

/-- COLLECTIVE_STEP (18 R402, R403): a part travels as curd to the cave of a member. -/
def execCollectiveStep (task : Nat × Part) (sender block : Nat) (s : State) : Host.Outcome State Fault Refusal :=
  .next (s.collPart task.1 sender block task.2 fun s => s.curdStep task.1 sender block)

/-- The deadline of a whey member (18 R397). -/
def CollRun.deadline (r : CollRun) : Nat := r.beganAt + 1024 * fld r.cmd 20 4

/-- A part of a whey member arrives, valid where its CRC passes and its source is not poisoned (18 R385). A member's own part is not
sent, and only a plane can lose one: from the same module a part comes whole (01 R13, 18 R380). -/
def State.wheyStep (s : State) (ember sender block : Nat) (ok : Bool) : State :=
  match s.collRun ember with
  | none => s
  | some r =>
    if collMode r.cmd != 2 || !r.wants sender block || decide (r.deadline ≤ s.now) || s.collHeld r (s.memberRun r sender) block then s
    else match s.memberRun r sender with
    | none => s.loseMember r sender
    | some m =>
      let p := s.pieceOf r m block
      let up := m.core / 128 == r.core / 128 || s.routeUp (m.core / 128) (r.core / 128)
      let s := s.noteSource r m block
      s.collSettle (((s.collRun ember).getD r).take m { p with ok := p.bad.isEmpty && up && (ok || m.core / 1024 == r.core / 1024) }) block

/-- WHEY_PIECE_ARRIVAL (18 R385): a part reaches the cave before the deadline. -/
def execWheyPieceArrival (task : Nat × Part) (sender block : Nat) (ok : Bool) (s : State) : Host.Outcome State Fault Refusal :=
  .next (s.collPart task.1 sender block task.2 fun s => s.wheyStep task.1 sender block ok)

/-- At the deadline of a whey member the parts that have not come are missing, and every block is written (18 R385, R397). -/
def State.wheyEnd (s : State) (ember : Nat) : State :=
  match s.collRun ember with
  | none => s
  | some r =>
    if collMode r.cmd != 2 || decide (s.now < r.deadline) ||
        (List.range (collBlocks r.cmd)).any (fun b => !r.done.contains b && s.collHeld r (some r) b) then s
    else (List.range (collBlocks r.cmd)).foldl (fun s b => match s.collRun ember with
      | some r =>
        if r.done.contains b then s
        else
          let own := if r.wants r.pid b then
              let p := s.pieceOf r r b
              [{ p with ok := p.bad.isEmpty }]
            else []
          s.collWrite { r with pieces := r.pieces ++ own } b
      | none => s) s

/-- WHEY_DEADLINE (18 R385, R397). -/
def execWheyDeadline (task : Nat × Part) (s : State) : Host.Outcome State Fault Refusal :=
  .next (s.collPart task.1 0 0 task.2 fun s => s.wheyEnd task.1)

/-- The whey mask as bytes (18 R404). -/
def CollRun.maskWrites (r : CollRun) : List (Nat × Byte) :=
  (List.range (maskBytes r.cmd)).map fun j =>
    (collMaskAt r.cmd + j, BitVec.ofNat 8 ((List.range 8).foldl (fun n k => if r.valid.contains (8 * j + k) then n + 2 ^ k else n) 0))

/-- Whether every read of a member's source by another has been performed. -/
def State.sourceRead (s : State) (r : CollRun) : Bool :=
  r.group.all fun x => match s.collRun x.2 with
    | some q => (List.range (collBlocks q.cmd)).all fun b => q.done.contains b
    | none => true

/-- A member is done when every block and the mask are written and no member needs its source any more (18 R400, R401, R404). -/
def State.collDone (s : State) (ember : Nat) : State :=
  match s.collRun ember, s.emberAt ember with
  | some r, some (_, e) =>
    let ws := if collMode r.cmd = 2 then r.maskWrites else []
    if !s.sourceRead r || s.engHeld r.core r.vat [] [] (ws.map (·.1)) then s
    else
      let lack := s.engCheck r.core r.vat [] [] (ws.map (·.1))
      let s := if lack.isSome then s else s.engWrite r.core r.uid r.vat [] ws
      let s := { s with colls := s.colls.filter fun x => x.uid != r.uid }
      match r.bad.or lack with
      | some f => s.emberEnd ember .faulted f.1 f.2 e.prog
      | none => s.emberEnd ember .done 0 0 e.prog
  | _, _ => s

/-- Whether blocks of a member are still to be settled for members that are lost. -/
def State.anyLoose (s : State) (ember : Nat) : Bool :=
  match s.collRun ember with
  | some r => (List.range (collBlocks r.cmd)).any (s.loose r)
  | none => false
/-- COLLECTIVE_DONE (18 R400, R401, R404); what a lost member has left unsettled comes first. -/
def execCollectiveDone (task : Nat × Part) (s : State) : Host.Outcome State Fault Refusal :=
  .next (s.collPart task.1 0 0 task.2 fun s => if s.anyLoose task.1 then s.settleLoose task.1 else s.collDone task.1)

end Sys2Proof.Machine
end

