-- ==== Sys2Proof/Machine/Wheels.lean ====
section
/-! DEFINITION. The end of a wheel (07 R162, R163, 11 R244, R245, 12 R256, R257, 13 R304, 16 R346). -/

namespace Sys2Proof.Machine

/-- Whether a context's operations are over: returns and counters empty, far requests answered, no invalidation under way, and nothing
but ordering places, which count nowhere, in its queues (07 R162, 17 R374, 18 R392). -/
def Ctx.settled (c : Ctx) : Bool :=
  let place (o : MOp) : Bool := match o.kind with | .order _ _ _ _ => true | _ => false
  c.rets.isEmpty && c.outs.isEmpty && c.farWait.isEmpty && c.xinv.isNone && c.lq.all place && c.sq.all place
/-- Whether its queues are empty too, as the end of a faulted wheel asks (07 R163). -/
def Ctx.quiet (c : Ctx) : Bool := c.settled && c.lq.isEmpty && c.sq.isEmpty

/-- The embers of a core that a context owns for its wheel. -/
def Core.attached (k : Core) (cx : Nat) (w : WheelId) : List (Nat × Ember) :=
  k.live.filter fun x => x.2.owner == cx % 4 && x.2.wheel == w

/-- Whether a fault of this cycle has broken a wheel's gang: the member stands until the cycle is over, so that an arrival of the
cycle still finds it missing (01 R20, R21). -/
def State.breaksNow (s : State) (w : WheelId) : Bool :=
  let v := s.vat w.vat
  match v.gangOf w.idx with
  | some g => thas v.broken g && tget v.broken g == s.now
  | none => false

/-- Whether a wheel may count as ended (07 R162, R163). -/
def State.wheelOver (s : State) (cx : Nat) : Bool :=
  let c := s.ctx cx
  match c.phase with
  | .ending => c.settled && ((s.core (coreOf cx)).attached cx c.wid).all (·.2.st.cur.final)
  | .faulting => c.quiet && !s.breaksNow c.wid
  | _ => false
/-- The ordering places that a wheel leaves behind (07 R162). -/
def Ctx.leftPlaces (c : Ctx) (cx : Nat) : List LeftPlace :=
  c.lq.filterMap fun o => match o.kind with
    | .order acq pod act _ => some { ctx := cx, vat := c.vatKey, acq := acq, act := act, far := if pod then c.farSent else [] }
    | _ => none

/-- The entry of a FAULTED ember that its wheel's end or its vat's completion reaps (11 R246, 16 Table 16.4). -/
def emberEntry (core : Nat) (e : Ember) : RecEntry :=
  { addr := e.faddr, who := e.name.toNat, core := coreId core, die := core / 128 % 8, cause := e.cause, source := 1 }

/-- Entries of a wheel's end: its pending poison records and its far-store record (10 R210, 18 R393). -/
def Ctx.endEntries (c : Ctx) (cx : Nat) : List RecEntry :=
  let mk (cause addr : Nat) : RecEntry := { addr := addr, who := c.wid.idx, core := coreId (coreOf cx), die := dieOf cx % 8, cause := cause }
  ((c.l0.poison ++ c.l1.poison).map fun r => mk cPOISON r.addr) ++ match c.farRec with
    | some (code, ea) => [mk code ea]
    | none => []

/-- The embers that a normal end reaps, or that a faulted wheel leaves behind (11 R244, R245). -/
def State.endEmbers (s : State) (cx : Nat) : State :=
  let c := s.ctx cx
  let w := c.wid
  let core := coreOf cx
  let mine := (s.core core).attached cx w
  let s := if c.phase = .ending then
      mine.foldl (fun s x =>
        let s := s.updCore core (·.reapSlot x.1)
        if x.2.st.cur = .faulted then s.updVat w.vat (·.addEntry (emberEntry core x.2)) else s) s
    else s.updCore core fun k => mine.foldl (fun k x => k.setEmber x.1 { x.2 with owner := 4 }) k
  s.updCore core fun k => k.live.foldl (fun k x =>
    if x.2.owner = 4 ∧ x.2.wheel = w ∧ !x.2.st.cur.final then k.setEmber x.1 { x.2 with st := x.2.st.put s.now .orphaned } else k) k

/-- Every unfreed lease of a wheel is freed (12 R256). -/
def Quad.freeLeases (q : Quad) (cx : Nat) (w : WheelId) : Quad := (q.pressFree cx w).pressFree cx w

/-- Molds of a wheel that ends become ownerless (13 R304). -/
def Mold.orphan (m : Mold) (cx : Nat) (w : WheelId) : Mold :=
  if m.st = .owned cx w ∨ m.st = .passed cx w ∨ m.st = .given w.vat w.idx then { m with st := .ownerless } else m

/-- A wheel ends: its entries, embers, leases, banks, park slots and molds; its context is free. A bank whose release is deferred keeps
that mark (log entry 134). What its queues still hold, ordering places alone, is performed after its end (07 R162). -/
def State.endWheel (s : State) (cx : Nat) : State :=
  let c := s.ctx cx
  let w := c.wid
  let quad := quadOf cx
  let s := s.updVat w.vat fun v => { (c.endEntries cx).foldl Vat.addEntry v with ended := v.ended + 1 }
  let s := s.endEmbers cx
  let s := (s.updQuad quad fun q => { q.freeLeases cx w with
    parks := q.parks.map fun x => (x.1, x.2.filter fun p => !(p.ctx == cx && p.wheel == w)) }).settleLeases quad
  let s := [false, true].foldl (fun s b =>
    if ((s.quad quad).bank b).heldBy cx w && ((s.quad quad).bank b).release.isNone then s.releaseBank cx b else s) s
  let s := s.updCore (coreOf cx) fun k => { k with molds := k.molds.map fun m => m.orphan cx w, left := k.left ++ c.leftPlaces cx }
  ((s.leaveWaits cx).setCtx cx {}).settleBars w.vat

/-- WHEEL_ENDED (07 R162, R163). -/
def execWheelEnded (cx : Nat) (s : State) : Host.Outcome State Fault Refusal :=
  if s.stopped (modOf cx) || (s.ctx cx).wheel.isNone || !s.wheelOver cx then .next s else .next (s.endWheel cx)

end Sys2Proof.Machine
end

