-- ==== Sys2Proof/Machine/Flue.lean ====
section
/-! DEFINITION. The flue of a die: rings and descriptors (16 R329 to R333), readiness (R342), placement and start
(R335 to R338, 03 R74), index ranges (R351, R352), preloads (R350), completion (R346, R347, R349), energy (R344),
starvation (R345), power gating (R354). -/

namespace Sys2Proof.Machine

/- Notices -/

def State.notify (s : State) (md : Nat) (n : Notice) : State := s.updMod md fun m => { m with notices := m.notices ++ [n] }

/- Dies and units in service -/

/-- A die on which wheels may be placed (16 R330, 20 R422, 21 R434). -/
def State.dieHealthy (s : State) (d : Nat) : Bool :=
  let x := s.die d
  !x.isolated && !x.draining && !x.trip && x.stage == 5

/-- The dies a vat runs on (16 Table 16.1). -/
def Vat.dies (v : Vat) (md : Nat) : List Nat :=
  if v.desc.dieMask = 0 then [v.die] else ((List.range 8).filter v.desc.dieMask.testBit).map (· + 8 * md)
def State.vatDies (s : State) (vat : Nat) : List Nat := (s.vat vat).dies (vatMod vat)

/- Descriptors (16 Table 16.1) -/

/-- One dependence entry. -/
def depOf (b : List Byte) (i : Nat) : VDep :=
  let lo := 128 + 16 * i
  { sem := fld b lo 2, valid := (fld b (lo + 2) 1).testBit 0, consume := (fld b (lo + 2) 1).testBit 1, threshold := fld b (lo + 4) 4 }

/-- A descriptor read from its 256 bytes. -/
def descOf (b : List Byte) : Desc :=
  { code := fld b 0 8, codeLen := fld b 8 4, entry := fld b 12 4, map := fld b 16 8, dictImg := fld b 24 8, sfu := fld b 33 1,
    dictSize := fld b 34 2, wheels := fld b 36 4, cls := fld b 40 1, gang := fld b 41 1, panecnt := fld b 42 1,
    parkSlots := fld b 43 1, moldGran := fld b 44 2, semBase := fld b 46 2, semCount := fld b 48 2, spawnLimit := fld b 50 2,
    fixed := fld b 52 1, extent := fld b 53 1, det := (fld b 54 1).testBit 0, dieMask := fld b 55 1, budget := fld b 56 8,
    trap := fld b 64 8, argBase := fld b 72 8, argStride := fld b 80 4, record := fld b 88 8, xlat := fld b 96 8,
    ranges := fld b 104 2, peerTab := fld b 112 8, peers := fld b 120 4, deps := (List.range 4).map (depOf b),
    sigSem := fld b 192 2, sigValid := (fld b 194 1).testBit 0, sigAmount := fld b 196 4 }

/-- Reserved bytes and bits of a descriptor (16 Table 16.1, Table 16.2). -/
def descReserved (b : List Byte) : Bool :=
  let zero (lo n : Nat) : Bool := fld b lo n == 0
  zero 32 1 && zero 84 4 && zero 106 6 && zero 124 4 && zero 195 1 && zero 200 56
  && decide (fld b 40 1 < 4) && decide (fld b 53 1 < 5) && decide (fld b 54 1 < 2) && decide (fld b 194 1 < 2)
  && (List.range 4).all fun i => let lo := 128 + 16 * i; decide (fld b (lo + 2) 1 < 4) && zero (lo + 3) 1 && zero (lo + 8) 8

/-- Contexts of a core that the windows of a vat allow (16 R330). -/
def Desc.perCore (d : Desc) : Nat := if d.panecnt = 0 then 4 else min 4 (96 / d.panecnt)

/-- Cores of a list that are in service. -/
def State.coresIn (s : State) (ks : List Nat) : Nat := (ks.filter fun k => !s.coreAbsent k).length

/-- The capacity of a gang extent: the largest of its kind that the dies offer (16 R330). -/
def State.gangCap (s : State) (d : Desc) (dies : List Nat) : Nat :=
  let best (l : List Nat) : Nat := l.foldl max 0
  let cores (lo n : Nat) : Nat := s.coresIn ((List.range n).map (· + lo))
  d.perCore * (
    if d.extent = 1 then best (dies.flatMap fun x => (List.range 128).map fun k => cores (128 * x + k) 1)
    else if d.extent = 2 then best (dies.flatMap fun x => (List.range 32).map fun q => cores (128 * x + 4 * q) 4)
    else if d.extent = 3 then best (dies.map fun x => cores (128 * x) 128)
    else dies.foldl (fun n x => n + cores (128 * x) 128) 0)

/-- Values outside Table 16.1 and Table 16.2, and the other OPERAND_RANGE checks of 16 R330 and 09 R193. -/
def State.descRange (s : State) (md die : Nat) (b : List Byte) : Bool :=
  let d := descOf b
  let dies := ({ desc := d, die := die } : Vat).dies md
  !descReserved b || decide (d.codeLen < 2) || d.codeLen % 2 != 0 || d.entry % 2 != 0 || decide (d.codeLen ≤ d.entry)
  || decide (d.sfu = 0) || decide (15 < d.sfu) || d.sfu != 1 || decide (4096 < d.dictSize) || decide (d.wheels = 0)
  || (d.gang != 255 && decide (12 < d.gang)) || decide (96 < d.panecnt) || decide (32 < d.parkSlots) || decide (256 < d.moldGran)
  || decide (1024 < d.semCount) || decide (1023 < d.semBase) || decide (1024 < d.semBase + d.semCount)
  || decide (64 < d.ranges) || decide (4096 < d.peers)
  || d.deps.any (fun x => decide (1023 < x.sem) || (x.valid && x.threshold == 0))
  || decide (1023 < d.sigSem) || (d.sigValid && d.sigAmount == 0)
  || (d.gang != 255 && (d.wheels % 2 ^ d.gang != 0 || decide (s.gangCap d dies < 2 ^ d.gang)))
  || decide (256 < d.fixed + d.moldGran + (if d.trap = 0 then 0 else 1))
  || dies.any fun x => !s.dieHealthy x

/-- ALIGN checks of 16 Table 16.1: the addresses aligned to 64 bytes, and the trap vector, which is even. -/
def descAlign (d : Desc) : Option Nat :=
  ([d.code, d.map, d.dictImg, d.record, d.xlat].find? fun a => a % 64 != 0).or (if d.trap % 2 = 0 then none else some d.trap)

/-- The first byte of a run of a vat's space with no translation, or on a page that is not resident (log entry 139), and the first with no
right. -/
def State.spaceFault (s : State) (vat va n : Nat) (wr : Bool) : Option Nat × Option Nat :=
  let xs := (s.pieces [] vat va n).map fun a => (a, s.walk vat a)
  let ok (a : Nat) : Bool := decide (2 ^ 32 ≤ a) && decide (a < 2 ^ 56)
  ((xs.find? fun x => match x.2 with | none => true | some t => !t.resident || !ok x.1).map (·.1),
   (xs.find? fun x => match x.2 with | some t => if wr then !t.w else !t.r | none => false).map (·.1))

/-- Bytes of a vat's space, 0 where nothing translates. -/
def State.vatBytes (s : State) (vat va n : Nat) : List Byte :=
  (s.vatRun vat va n).map fun x => match x with | some l => s.byte l | none => 0
/-- Whether a run of a vat's space meets a poisoned unit. -/
def State.vatBad (s : State) (vat va n : Nat) : Bool :=
  (s.vatRun vat va n).any fun x => match x with | some l => s.isBad l | none => false

/-- Peer table entries (18 Table 18.3); an entry with a reserved bit set is invalid. -/
def peerOf (b : List Byte) : Peer :=
  let r := fld b 2 1
  let good := decide (fld b 0 2 < 4096) && decide (r < 16) && fld b 3 1 == 0 && fld b 8 8 == 0
  { valid := good && r.testBit 0, r := r.testBit 1, w := r.testBit 2, a := r.testBit 3, target := fld b 0 2, domain := fld b 4 4 }

/-- The peer table of a vat as it lies in memory (18 R387). -/
def State.readPeers (s : State) (vat : Nat) : List Peer :=
  let d := (s.vat vat).desc
  (List.range d.peers).map fun i => peerOf (s.vatBytes vat (d.peerTab + 16 * i) 16)

/-- The refusal of a descriptor that has been read: the first cause that applies (16 R330). The vat is in the table. -/
def State.refusal (s : State) (vat : Nat) (b : List Byte) : Option Nat :=
  let v := s.vat vat
  let d := v.desc
  let md := vatMod vat
  if s.descRange md v.die b || (List.range d.ranges).any (fun i => (s.rangeEntry vat i).valid && !(s.rangeEntry vat i).ok) then some cRANGE
  else
    let peersOk := s.spaceFault vat d.peerTab (16 * d.peers) false
    let tabMiss := decide (0 < d.peers) && peersOk.1.isSome
    let tabPerm := decide (0 < d.peers) && peersOk.2.isSome
    let tabBad := decide (0 < d.peers) && !tabMiss && s.vatBad vat d.peerTab (16 * d.peers)
    let noPeer := decide (0 < d.peers) && !tabMiss && !tabPerm && !tabBad &&
      !(s.readPeers vat).any fun p => p.valid && (v.dies md).any fun x => s.podDie x == p.target
    let rec_ := s.spaceFault vat d.record 256 true
    if noPeer then some cRANGE
    else if (descAlign d).isSome then some cALIGN
    else if (d.dictSize != 0 && (s.spaceFault vat d.dictImg (48 * d.dictSize) false).1.isSome)
        || (s.spaceFault vat d.map ((d.codeLen / 2 + 7) / 8) false).1.isSome || tabMiss || (d.record != 0 && rec_.1.isSome) then some cMISS
    else if (d.record != 0 && rec_.2.isSome) || tabPerm then some cPERM
    else if tabBad then some cPOISON
    else none

/- Records (16 Table 16.4) -/

/-- The bytes of one entry. -/
def RecEntry.bytes (e : RecEntry) : List Byte :=
  leBytes 1 e.source ++ leBytes 1 e.cause ++ leBytes 1 e.die ++ leBytes 1 e.core ++ leBytes 4 e.who ++ leBytes 8 e.addr

/-- CYCLE of a die. -/
def State.cycle (s : State) (die : Nat) : Nat := s.now - (s.modu (die / 8)).resetAt

/-- The cause of a vat's first entry, 0 with none. -/
def Vat.firstCause (v : Vat) : Nat := ((v.entries.head?).map (·.cause)).getD 0

/-- The record of a vat with an outcome and a first cause (16 Table 16.4). The start cycle of a vat of which no wheel has started is 0 (log
entry 132). -/
def State.recordBytes (s : State) (vat outcome cause : Nat) : List Byte :=
  let v := s.vat vat
  let e0 := v.entries.head?
  leBytes 4 (vat % 2 ^ 32) ++ leBytes 1 outcome ++ leBytes 1 cause ++ leBytes 2 v.entryCount
  ++ leBytes 8 (s.cycle v.leader) ++ leBytes 8 (v.startAt.getD 0) ++ leBytes 8 v.used ++ leBytes 1 v.demotions ++ leBytes 1 0
  ++ leBytes 1 v.cls ++ leBytes 1 0 ++ leBytes 4 v.ended ++ leBytes 8 ((e0.map (·.addr)).getD 0) ++ leBytes 16 0
  ++ ((v.entries.flatMap RecEntry.bytes) ++ List.replicate 192 0).take 192

/-- The record is written, byte by byte where its translation stands and no unit's write meets an uncorrectable error; whether all of
it was (16 R347). On a page that is not resident it is not written (log entry 139). -/
def State.writeRecord (s : State) (vat outcome cause : Nat) : State × Bool :=
  let d := (s.vat vat).desc
  if d.record = 0 then (s, false)
  else
    let bs := s.recordBytes vat outcome cause
    let ws := (bs.zipIdx.filterMap fun (x : Byte × Nat) => match s.vatLocs vat (d.record + x.2) 1 false true with
      | some (l :: _) => if (s.vat vat).recBad.contains (x.2 / 32) then none else some (l, x.1)
      | _ => none)
    ((s.setBytes ws).healWhole (ws.map (·.1)), ws.length == 256)

/- Leaving the machine -/

/-- The ranges of a quad's dictionary store as a vat leaves it: a preload that waited for it is committed (16 R350). -/
def State.rangesAfter (s : State) (vat : Nat) (q : Quad) : List (Nat × (Nat × Nat)) :=
  let t := tdel q.dictRange vat
  match q.preload with
  | some (b, base, a) => if a = vat ∧ b ≠ vat then tset t b (base, (s.vat b).desc.dictSize) else t
  | none => t

/-- An ordering place left by a wheel of a vat that leaves: what it would do to the vat's objects has nothing to act on any more. -/
def LeftPlace.disarm (p : LeftPlace) (vat : Nat) : LeftPlace :=
  match p.act with
  | .signal _ _ _ => p
  | _ => if p.vat = vat then { p with act := .none } else p

/-- Everything that a vat holds on cores, quads and caches is freed (16 R346, 13 R291, R298). -/
def State.freeVat (s : State) (vat : Nat) : State :=
  let s := s.invalidate vat .vat
  { s with
    cores := s.cores.map fun k => (k.1, { k.2 with
      embers := k.2.embers, molds := k.2.molds.filter (·.vat != vat), moldRes := tdel k.2.moldRes vat, trapGran := tdel k.2.trapGran vat,
      left := k.2.left.map (·.disarm vat) }),
    quads := s.quads.map fun q => (q.1, { q.2 with
      parks := q.2.parks.map fun x => (x.1, x.2.filter fun p => p.vat != vat), parkRes := tdel q.2.parkRes vat, parkQ := tdel q.2.parkQ vat, parkHeld := tdel q.2.parkHeld vat,
      hoops := q.2.hoops.map fun x => if x.2.cur.owner = some vat then (x.1, x.2.put s.now {}) else x,
      bbs := q.2.bbs.map fun x => if x.2.cur.owner = some vat then (x.1, x.2.put s.now {}) else x,
      bbAcc := q.2.bbAcc.filter fun x => (q.2.bb x.1).cur.owner != some vat,
      dictRange := s.rangesAfter vat q.2, fixedRes := tdel q.2.fixedRes vat,
      preload := q.2.preload.filter fun p => p.1 != vat && p.2.2 != vat }),
    dies := s.dies.map fun d => (d.1, { d.2 with
      queues := d.2.queues.map fun x => (x.1, x.2.filter (· != vat)),
      doms := d.2.doms.filter fun x => x.2.1 != vat }) }

/-- An entry whose fields other than cause and address the specification does not state: they are free (log entry 23). -/
def State.looseEntry (s : State) (cause addr : Nat) : State × RecEntry :=
  let w (i : Nat) : Nat := (Config.freeWord (s.free + i)).toNat
  ({ s with free := s.free + 4 },
   { addr := addr, who := w 0 % 2 ^ 32, core := w 1 % 256, die := w 2 % 256, cause := cause, source := w 3 % 3 })

/-- The completion signal on the enqueuing die (16 R342). -/
def State.signalDone (s : State) (vat : Nat) : State :=
  let v := s.vat vat
  if v.desc.sigValid then s.signal v.die v.desc.sigSem v.desc.sigAmount else s

/-- A completion signal that a poisoned semaphore drops is noted in the vat's record (16 R343, R347). -/
def State.noteSignal (s : State) (vat : Nat) : State :=
  let v := s.vat vat
  if v.desc.sigValid && ((s.die v.die).sem v.desc.sigSem).cur.bad then
    let x := s.looseEntry cCOUNTER v.desc.sigSem
    x.1.updVat vat (·.addEntry x.2)
  else s

/-- The record, the signal and the notice of a vat that ends with an outcome, and the vat leaves (16 R346, R347). -/
def State.retire (s : State) (vat outcome : Nat) : State :=
  let s := s.noteSignal vat
  let v := s.vat vat
  let outcome := if outcome = 0 ∧ v.entryCount ≠ 0 then 1 else outcome
  let cause := v.firstCause
  let (s, whole) := s.writeRecord vat outcome cause
  let s := (s.signalDone vat).notify (vatMod vat) (.complete (vat % 2 ^ 32) v.desc.record outcome cause (!whole))
  let s := s.freeVat vat
  { s with vats := tdel s.vats vat }

/-- A vat that has not started is dropped with one entry (16 R334, R343); its signal and its notice follow as for any vat that
completes (log entry 121). -/
def State.dropVat (s : State) (vat cause addr : Nat) : State :=
  let x := s.looseEntry cause addr
  (x.1.updVat vat (·.addEntry x.2)).retire vat 1

/- Rings (16 R332) -/

/-- The next VATID of a die: its enqueue count, live ones skipped (16 R331). -/
def State.nextVatId (s : State) (die : Nat) : Nat × Nat :=
  let md := die / 8
  let key (n : Nat) : Nat := 2 ^ 32 * md + die % 8 * 2 ^ 29 + n % 2 ^ 29
  let n := (firstFrom (s.vats.length + 1) (s.die die).enq fun n => !thas s.vats (key n)).getD 0
  (key n, n + 1)

/-- A vat refused: its record, with the cause and no entry, where it can be written, and the notice (16 R330; log entry 27). -/
def State.refuse (s : State) (vat cause : Nat) : State :=
  let d := (s.vat vat).desc
  let s := s.updVat vat fun v => { v with cls := d.cls, leader := v.die }
  let s := if d.record = 0 ∨ d.record % 64 ≠ 0 ∨ d.xlat % 64 ≠ 0 then s else (s.writeRecord vat 2 cause).1
  let s := (s.freeVat vat).notify (vatMod vat) (.refused (vat % 2 ^ 32) cause)
  { s with vats := tdel s.vats vat }

/-- The leader and the shadow of a vat: its lowest and next-lowest healthy dies (16 R351). -/
def State.elect (s : State) (vat : Nat) : Option Nat × Option Nat :=
  let ds := (s.vatDies vat).filter s.dieHealthy
  (ds.head?, (ds.drop 1).head?)

/-- An unstarted vat's counters from its descriptor (16 R344, R349, R351). -/
def Vat.fresh (v : Vat) (elected : Option Nat × Option Nat) : Vat :=
  { v with phase := .queued, cls := v.desc.cls, startAt := none, next := v.desc.wheels, granted := 0, started := 0, lost := 0,
           ended := 0, spawns := [], spawned := 0, energy := v.desc.budget * 1000, used := 0, demotions := 0, entries := [],
           entryCount := 0, rerun := false, broken := [], bars := [], leader := elected.1.getD v.die, shadow := elected.2,
           grants := [], lostLeader := false, halting := [], saves := [], codeOld := [], recBad := [] }

/-- A ring entry consumed: the descriptor is read and checked, and the vat takes its place or is refused (16 R330). -/
def State.takeEntry (s : State) (die q pa : Nat) : State :=
  let (vat, n) := s.nextVatId die
  let s := s.updDie die fun d => { d with enq := n }
  let v0 : Vat := { descPa := pa, die := die, queue := q }
  match paLoc (die / 8) pa with
  | some loc =>
    let there := (s.die (loc / 2 ^ 39)).isolated
    if pa % 64 ≠ 0 then (s.setVat vat v0).refuse vat cALIGN
    else if there ∨ !paRunOk pa (pa + 255) then (s.setVat vat v0).refuse vat cMISS
    else if (List.range 8).any fun i => s.isBad (loc + 32 * i) then (s.setVat vat v0).refuse vat cPOISON
    else
      let b := s.bytesAt ((List.range 256).map (· + loc))
      let s := s.setVat vat { v0 with desc := descOf b }
      match s.refusal vat b with
      | some c => s.refuse vat c
      | none =>
        let s := s.updVat vat fun v => { v.fresh (s.elect vat) with peers := s.readPeers vat }
        s.updDie die fun d => { d with queues := tupd d.queues q (· ++ [vat]) }
  | none => (s.setVat vat v0).refuse vat (if pa % 64 ≠ 0 then cALIGN else cMISS)

/-- The location of ring entry i of a queue, and the head word's (16 R332, 21 Table 21.2). -/
def State.ringLocs (s : State) (die q i : Nat) : Option (Nat × Nat) :=
  let d := s.die die
  let size := 2 ^ ((tget d.qcfg q).toNat % 32)
  match paLoc (die / 8) ((tget d.qbase q).toNat + 16 * (i % size)), paLoc (die / 8) (tget d.qhead q).toNat with
  | some a, some h => some (a, h)
  | _, _ => none

/-- Whether something that a ring entry's vat is judged by lies in a stack that recalibrates (20 R424): its descriptor, its range entries
and tables, its peer table, its record. -/
def State.entryHeld (s : State) (die pa : Nat) : Bool :=
  s.recal && match paLoc (die / 8) pa with
  | none => false
  | some loc =>
    let locs := (List.range 256).map (· + loc)
    let vat := (s.nextVatId die).1
    let d := descOf (s.bytesAt locs)
    let t := s.setVat vat { descPa := pa, die := die, desc := d }
    let walks (va n : Nat) : Bool := n != 0 && (pagesOf va n).any fun p => t.walkHeld vat (p * 4096)
    s.hbmWaits locs || t.runHeld vat d.peerTab (16 * d.peers) || t.runHeld vat d.record 256 ||
      walks d.dictImg (48 * d.dictSize) || walks d.map ((d.codeLen / 2 + 7) / 8)

/-- RING_ENTRY_CONSUME (16 R330, R332): the next entry of an enabled queue, when its sequence word matches. -/
def execRingEntryConsume (die queue : Nat) (s : State) : Host.Outcome State Fault Refusal :=
  let d := s.die die
  let i := tget d.qnext queue
  if s.stopped (die / 8) || !s.dieHealthy die || decide (16 ≤ queue) || !(tget d.qcfg queue).getLsbD 8 then .next s
  else match s.ringLocs die queue i with
  | none => .next s
  | some (a, h) =>
    let pa := s.rd a 8
    let words := (List.range 16).map (· + a) ++ (List.range 8).map (· + h)
    if s.hbmWaits words || decide (s.rd (a + 8) 4 ≠ i % 2 ^ 32) || s.entryHeld die pa then .next s
    else
      let s := s.setBytes ((leBytes 8 (i + 1)).zipIdx.map fun (x : Byte × Nat) => (h + x.2, x.1))
      let s := s.updDie die fun d => { d with qnext := tset d.qnext queue (i + 1) }
      .next (s.takeEntry die queue pa)

/-- VAT_READY (16 R341 to R343): every valid dependence sees its threshold; consuming ones are subtracted together. Only a vat whose
dependences are not yet met is dropped for a poisoned semaphore (log entry 121). -/
def execVatReady (vat : Nat) (s : State) : Host.Outcome State Fault Refusal :=
  let v := s.vat vat
  let deps := v.desc.deps.filter (·.valid)
  let sem (x : VDep) : Sem := ((s.die v.die).sem x.sem).cur
  if s.stopped (vatMod vat) || !thas s.vats vat || v.phase != .queued || v.cancelled then .next s
  else match deps.find? fun x => (sem x).bad with
  | some x => .next (if s.runHeld vat v.desc.record 256 then s else s.dropVat vat cCOUNTER x.sem)
  | none =>
    if deps.any fun x => decide ((sem x).count < x.threshold) then .next s
    else
      let s := deps.foldl (fun s x =>
        if x.consume then
          let c := ((s.die v.die).sem x.sem).cur
          s.putSem v.die x.sem { c with count := c.count - x.threshold, takenAt := some s.now }
        else s) s
      .next (s.updVat vat fun v => { v with phase := .ready, readyAt := s.now })

/- Placement (16 R335, R336) -/

/-- The pane window of a context that holds a wheel. -/
def Ctx.window (c : Ctx) : Nat × Nat := if c.wheel.isSome then (c.panebase, c.panecnt) else (0, 0)
/-- Whether a run of panes is free on a core. -/
def State.panesFree (s : State) (core base n : Nat) : Bool :=
  decide (base < 96) && decide (base + n ≤ 96) && (List.range 4).all fun j =>
    let w := (s.ctx (4 * core + j)).window
    n == 0 || w.2 == 0 || decide (base + n ≤ w.1) || decide (w.1 + w.2 ≤ base)

/-- Whether a granule of a core is taken: reserved for molds or a trap block, or fixed (13 R302, 16 R335). -/
def State.granTaken (s : State) (core g : Nat) : Bool :=
  let k := s.core core
  k.moldRes.any (·.2.contains g) || k.trapGran.any (·.2 == g) || (s.quad (core / 4)).fixedRes.any fun x => decide (g < x.2)

/-- Whether the fixed granules of a vat are free on a quad (16 R335). -/
def State.fixedFree (s : State) (quad f : Nat) : Bool :=
  f == 0 || ((s.quad quad).fixedRes.all (·.2 == 0) && (List.range 4).all fun j => (List.range f).all fun g => !s.granTaken (4 * quad + j) g)

/-- Whether a dictionary range is free on a quad (02 R32). -/
def Quad.dictFree (q : Quad) (base n : Nat) : Bool :=
  decide (base < 4096) && decide (base + n ≤ 4096) && q.dictRange.all fun x => n == 0 || x.2.2 == 0 || decide (base + n ≤ x.2.1) || decide (x.2.1 + x.2.2 ≤ base)

/-- Whether a vat is new on a core, and on a quad. -/
def State.newOnCore (s : State) (vat core : Nat) : Bool := !thas (s.core core).moldRes vat
def State.newOnQuad (s : State) (vat quad : Nat) : Bool := !thas (s.quad quad).dictRange vat
/-- Granules a vat takes on a core: for molds, and one for its trap block (17 R361). -/
def Desc.grans (d : Desc) : Nat := d.moldGran + if d.trap = 0 then 0 else 1

/-- Whether granules may be reserved on a core. -/
def State.gransOk (s : State) (core : Nat) (d : Desc) (gs : List Nat) : Bool :=
  gs.length == d.grans && gs.eraseDups.length == gs.length && gs.all fun g => decide (d.fixed ≤ g) && decide (g < 256) && !s.granTaken core g

/-- One dictionary entry read from the image; bad where the image is poisoned. -/
def State.loadEntry (s : State) (vat quad base i : Nat) : State :=
  let a := (s.vat vat).desc.dictImg + 48 * i
  let e := base + i
  s.updQuad quad fun q => { q with
    dict := tset q.dict e (BitVec.ofNat 384 (leNat (s.vatBytes vat a 48))),
    dictBad := if s.vatBad vat a 48 then nsAdd q.dictBad e else nsDel q.dictBad e }

/-- A vat's dictionary image is loaded into a quad's store (02 R32, R33). -/
def State.loadDict (s : State) (vat quad base : Nat) : State :=
  (List.range (s.vat vat).desc.dictSize).foldl (fun s i => s.loadEntry vat quad base i) s

/-- The dictionary ranges of a quad, that of an uncommitted preload among them. -/
def State.dictRanges (s : State) (quad : Nat) : List (Nat × Nat × Nat) :=
  let q := s.quad quad
  q.dictRange ++ match q.preload with
    | some (b, base, _) => [(b, base, (s.vat b).desc.dictSize)]
    | none => []
/-- Entries with an uncorrectable error are reloaded before the next vat start on the quad (20 Table 20.1). -/
def State.reloadBad (s : State) (quad : Nat) : State :=
  (s.quad quad).dictBad.foldl (fun s e =>
    match (s.dictRanges quad).find? fun x => decide (x.2.1 ≤ e) && decide (e < x.2.1 + x.2.2) with
    | some x => s.loadEntry x.1 quad x.2.1 (e - x.2.1)
    | none => s.updQuad quad fun q => { q with dictBad := nsDel q.dictBad e }) s

/-- Whether a scratchpad byte keeps a defined value: it lies in a mold, a fixed granule or a trap block granule
(01 Table 1.3). -/
def State.keepsByte (s : State) (loc : Nat) : Bool :=
  let core := spadCore loc
  let g := (loc - spadLoc core 0) / 4096
  let k := s.core core
  k.moldGrans.contains g || k.trapGran.any (·.2 == g) || (s.quad (core / 4)).fixedRes.any fun x => decide (g < x.2)

/-- At the start of a wheel every other scratchpad byte of the quad is undefined (01 Table 1.3). -/
def State.forget (s : State) (quad : Nat) : State :=
  s.updQuad quad fun q => { q with epoch := q.epoch + 1, defd := q.defd.filter s.keepsByte }

/-- A preload discarded: its range and granules are free. -/
def State.discardPreload (s : State) (quad : Nat) : State :=
  match (s.quad quad).preload with
  | none => s
  | some (b, _, _) =>
    let s := (List.range 4).foldl (fun s j => s.updCore (4 * quad + j) fun k => { k with moldRes := tdel k.moldRes b }) s
    s.updQuad quad fun q => { q with preload := none, preTest := false }

/-- A vat that is new on a quad displaces a preload for a vat of a higher class number, and one for itself that is not
committed (16 R350). -/
def State.clearPreload (s : State) (vat quad : Nat) : State :=
  match (s.quad quad).preload with
  | some p =>
    if s.newOnQuad vat quad ∧ (p.1 = vat ∨ (s.vat vat).cls < (s.vat p.1).cls) then s.discardPreload quad else s
  | none => s

/-- The reservations of a vat that is new on a core or on a quad; none where they cannot all be had. The lists give the
choices of granules and dictionary ranges that are still to be used. -/
def State.reserve (s : State) (vat core : Nat) (grans dicts : List Nat) : Option (State × List Nat × List Nat) :=
  let d := (s.vat vat).desc
  let quad := core / 4
  let s := s.clearPreload vat quad
  let q := s.quad quad
  let quadPart : Option (State × List Nat) :=
    if s.newOnQuad vat quad then
      let base := pick dicts 0
      let parks := (q.parkRes.map (·.2)).foldl (· + ·) 0
      if dicts.isEmpty || !q.dictFree base d.dictSize || decide (32 < parks + d.parkSlots) || !s.fixedFree quad d.fixed
        || (match q.preload with | some p => !(decide (base + d.dictSize ≤ p.2.1) || decide (p.2.1 + (s.vat p.1).desc.dictSize ≤ base)) | none => false)
        then none
      else
        let s := (s.reloadBad quad).updQuad quad fun q => { q with
          dictRange := tset q.dictRange vat (base, d.dictSize), parkRes := tset q.parkRes vat d.parkSlots, fixedRes := tset q.fixedRes vat d.fixed }
        some (s, dicts.drop 1)
    else if !thas q.parkRes vat then
      let parks := (q.parkRes.map (·.2)).foldl (· + ·) 0
      if decide (32 < parks + d.parkSlots) || !s.fixedFree quad d.fixed then none
      else some ((s.reloadBad quad).updQuad quad fun q => { q with
        parkRes := tset q.parkRes vat d.parkSlots, fixedRes := tset q.fixedRes vat d.fixed }, dicts)
    else some (s, dicts)
  match quadPart with
  | none => none
  | some (s, dicts) =>
    if s.newOnCore vat core then
      let gs := grans.take d.grans
      if s.gransOk core d gs then
        some (s.updCore core fun k => { k with
          moldRes := tset k.moldRes vat (gs.take d.moldGran),
          trapGran := if d.trap = 0 then k.trapGran else tset k.trapGran vat (pick gs d.moldGran) }, grans.drop d.grans, dicts)
      else none
    else if d.trap ≠ 0 ∧ !thas (s.core core).trapGran vat then
      let g := pick grans 0
      if grans.isEmpty || s.granTaken core g || decide (g < d.fixed) || decide (256 ≤ g) then none
      else some (s.updCore core fun k => { k with trapGran := tset k.trapGran vat g }, grans.drop 1, dicts)
    else some (s, grans, dicts)

/-- Whether a core takes a wheel of a vat (16 R335, 20 R422, R423). -/
def State.coreTakes (s : State) (vat core : Nat) : Bool :=
  (s.vatDies vat).contains (core / 128) && s.dieHealthy (core / 128) && !s.coreAbsent core && !(s.core core).draining && !(s.quad (core / 4)).draining
  && !s.halting vat core && !(s.vat vat).saves.any (fun k => k.core / 4 == core / 4) && !(s.modu (core / 1024)).halted

/-- The state of a context at the start of a wheel (03 R74). -/
def startCtx (d : Desc) (w : WheelId) (cx base dictbase : Nat) (saveptr arg : Word) : Ctx :=
  { wheel := some w, phase := .running, pc := BitVec.ofNat 64 (d.code + d.entry), tvec := BitVec.ofNat 64 d.trap,
    saveptr := if d.trap = 0 then 0 else saveptr + BitVec.ofNat 64 (768 * (cx % 4)),
    s := [(1, arg)], panebase := base, panecnt := d.panecnt, dictbase := dictbase }

/-- A wheel starts on a context whose reservations are made (03 R74, 16 R337). The start is an acquire at scope `module`, which
empties the L1 (14 R313, Table 14.2; log entry 26), and a placement wakes a gated core (R354). -/
def State.startWheel (s : State) (vat idx : Nat) (arg : Word) (cx base : Nat) : State :=
  let v := s.vat vat
  let core := coreOf cx
  let quad := quadOf cx
  let w : WheelId := { vat := vat, idx := idx, start := v.starts }
  let dictbase := (tget (s.quad quad).dictRange vat).1
  let saveptr := BitVec.ofNat 64 (4096 * tget (s.core core).trapGran vat)
  let s := s.forget quad
  let s := s.setCtx cx (startCtx v.desc w cx base dictbase saveptr arg)
  let s := s.updCore core fun k =>
    { k.emptyL1 with
      gated := false, panes := k.panes.filter fun x => decide (x.1 < 64 * base) || decide (64 * (base + v.desc.panecnt) ≤ x.1) }
  s.updVat vat fun v => { v with
    phase := .running, starts := v.starts + 1, startAt := if v.startAt.isSome then v.startAt else some (s.cycle v.leader) }

/-- The reservations of one wheel; none where the placement is not possible. -/
def State.holdOne (s : State) (vat cx base : Nat) (grans dicts : List Nat) : Option (State × List Nat × List Nat) :=
  if (s.ctx cx).wheel.isSome || !s.coreTakes vat (coreOf cx) || !s.panesFree (coreOf cx) base (s.vat vat).desc.panecnt then none
  else s.reserve vat (coreOf cx) grans dicts

/-- One wheel placed and started; where its vat is new on the quad, the dictionary image is loaded first (02 R32). -/
def State.placeOne (s : State) (vat idx : Nat) (arg : Word) (cx base : Nat) (grans dicts : List Nat) :
    Option (State × List Nat × List Nat) :=
  let load (t : State) : State := if s.newOnQuad vat (quadOf cx) then t.loadDict vat (quadOf cx) (pick dicts 0) else t
  (s.holdOne vat cx base grans dicts).map fun x => ((load x.1).startWheel vat idx arg cx base, x.2.1, x.2.2)

/-- The argument of wheel i (16 R331). -/
def Desc.arg (d : Desc) (i : Nat) : Word := BitVec.ofNat 64 (d.argBase + i * d.argStride)

/-- Wheels with consecutive indices placed together. -/
def State.placeAll (s : State) (vat : Nat) : Nat → List (Nat × Nat) → List Nat → List Nat → Option State
  | _, [], _, _ => some s
  | idx, (cx, base) :: t, grans, dicts =>
    match s.placeOne vat idx ((s.vat vat).desc.arg idx) cx base grans dicts with
    | some (s, grans, dicts) => s.placeAll vat (idx + 1) t grans dicts
    | none => none

/-- The lowest choices that place a wheel on a context. -/
def State.fitOne (s : State) (vat cx : Nat) : Option (Nat × List Nat × List Nat) :=
  let d := (s.vat vat).desc
  let core := coreOf cx
  let quad := quadOf cx
  let s := s.clearPreload vat quad
  match firstFrom 97 0 fun b => s.panesFree core b d.panecnt with
  | none => none
  | some base =>
    let grans := if s.newOnCore vat core then
        ((List.range 256).filter fun g => decide (d.fixed ≤ g) && !s.granTaken core g).take d.grans
      else if d.trap ≠ 0 ∧ !thas (s.core core).trapGran vat then
        ((List.range 256).filter fun g => decide (d.fixed ≤ g) && !s.granTaken core g).take 1 else []
    let q := s.quad quad
    let dicts := if s.newOnQuad vat quad then ((firstFrom 4097 0 fun b => q.dictFree b d.dictSize && match q.preload with
        | some p => decide (b + d.dictSize ≤ p.2.1) || decide (p.2.1 + (s.vat p.1).desc.dictSize ≤ b)
        | none => true).map fun b => [b]).getD [] else []
    some (base, grans, dicts)

/-- A search for n contexts of a list on which wheels can be placed together, with the choices made. -/
def State.search (s : State) (vat : Nat) : Nat → List Nat → Option (List (Nat × Nat) × List Nat × List Nat)
  | 0, _ => some ([], [], [])
  | _ + 1, [] => none
  | n + 1, cx :: t =>
    match s.fitOne vat cx with
    | none => s.search vat (n + 1) t
    | some (base, grans, dicts) =>
      match s.holdOne vat cx base grans dicts with
      | none => s.search vat (n + 1) t
      | some (s', _, _) =>
        let u := s'.setCtx cx { wheel := some { vat := vat }, panebase := base, panecnt := (s.vat vat).desc.panecnt }
        (u.search vat n t).map fun x => ((cx, base) :: x.1, grans ++ x.2.1, dicts ++ x.2.2)

/-- The contexts of a die. -/
def dieCtxs (die : Nat) : List Nat := (List.range 512).map (· + 512 * die)
/-- The extent instances in which a gang may lie (16 R336, Table 16.1). -/
def gangInsts (d : Desc) (dies : List Nat) : List (List Nat) :=
  let run (lo n : Nat) : List Nat := (List.range n).map (· + lo)
  if d.extent = 1 then dies.flatMap fun x => (List.range 128).map fun k => run (512 * x + 4 * k) 4
  else if d.extent = 2 then dies.flatMap fun x => (List.range 32).map fun q => run (512 * x + 16 * q) 16
  else if d.extent = 3 then dies.map dieCtxs
  else [dies.flatMap dieCtxs]

/-- Whether a vat's dictionary image lies in a stack that recalibrates (20 R424). -/
def State.dictHeld (s : State) (vat : Nat) : Bool := s.runHeld vat (s.vat vat).desc.dictImg (48 * (s.vat vat).desc.dictSize)

/-- Whether a placement of a vat on a quad reloads bad dictionary entries from images, its own or other vats', in a stack that
recalibrates (20 R424, Table 20.1). -/
def State.reloadHeld (s : State) (vat quad : Nat) : Bool :=
  s.recal && (s.newOnQuad vat quad || !thas (s.quad quad).parkRes vat) && (s.quad quad).dictBad.any fun e =>
    (s.dictRanges quad).any fun x => decide (x.2.1 ≤ e) && decide (e < x.2.1 + x.2.2) &&
      s.runHeld x.1 ((s.vat x.1).desc.dictImg + 48 * (e - x.2.1)) 48

/-- Wheels placed in one go: a gang, or one wheel. -/
def Desc.batch (d : Desc) : Nat := if d.gang = 255 then 1 else 2 ^ d.gang

/-- A placement of the vat's next gang or wheel on some of its dies, where one exists. -/
def State.findPlace (s : State) (vat : Nat) (dies : List Nat) : Option (List (Nat × Nat) × List Nat × List Nat) :=
  let d := (s.vat vat).desc
  if d.gang = 255 then s.search vat 1 (dies.flatMap dieCtxs)
  else (gangInsts d dies).findSome? fun cs => s.search vat d.batch cs

/-- Whether a vat spans dies and takes its indices in ranges (16 R351). -/
def State.spans (s : State) (vat : Nat) : Bool := decide (1 < (s.vatDies vat).length)

/-- Whether a vat has no valid dependence (16 R333). -/
def Desc.free (d : Desc) : Bool := !d.deps.any (·.valid)
/-- Whether every wheel of a vat's wheel count has started. -/
def Vat.allStarted (v : Vat) : Bool := decide (v.desc.wheels ≤ v.started + v.lost)

/-- The order within a queue and a class (16 R333). -/
def State.orderOk (s : State) (vat : Nat) : Bool :=
  let v := s.vat vat
  !v.desc.free || ((tget (s.die v.die).queues v.queue).takeWhile (· != vat)).all fun w =>
    let u := s.vat w
    !u.desc.free || u.cls != v.cls || (u.allStarted && u.saves.isEmpty) || u.cancelled

/-- Whether a vat waits for the placement of a wheel of its wheel count. -/
def State.wantsPlace (s : State) (vat : Nat) : Bool :=
  let v := s.vat vat
  (v.phase == .ready || v.phase == .running) && !v.cancelled && !v.allStarted && !v.lostLeader && s.orderOk vat
/-- Whether a vat waits for the placement of a wheel of its wheel count and could be placed. -/
def State.placeable (s : State) (vat : Nat) : Bool := s.wantsPlace vat && (s.findPlace vat (s.vatDies vat)).isSome

/- Saved vats (11 R249, 17 R368) -/

/-- The saves of a vat from one quad. -/
def Vat.savedOn (v : Vat) (quad : Nat) : List CoreSave := v.saves.filter fun k => k.core / 4 == quad
/-- The saves that resume together with one of them: those of its quad, but where two of them hold one bank each comes back by
itself (11 R249, 12 R275; log entry 112). -/
def Vat.resumeSet (v : Vat) (k : CoreSave) : List CoreSave :=
  let g := v.savedOn (k.core / 4)
  let twice (f : CoreSave → Option Bank) : Bool := decide (1 < (g.filter fun x => (f x).isSome).length)
  if twice (·.bank0) || twice (·.bank1) then [k] else g

/-- Whether the places of one core's save are free on a core (11 R249, 12 R275, 13 R305, 17 R368). -/
def State.coreFits (s : State) (vat new : Nat) (k : CoreSave) : Bool :=
  let q := s.quad (new / 4)
  !(s.vat vat).halting.contains new && (s.vatDies vat).contains (new / 128) && s.dieHealthy (new / 128)
  && !s.coreAbsent new && !(s.core new).draining && s.newOnCore vat new
  && k.ctxs.all (fun x => (s.ctx (4 * new + x.1)).wheel.isNone && s.panesFree new x.2.panebase x.2.panecnt)
  && k.moldRes.all (fun g => !s.granTaken new g) && k.trapGran.all (fun g => !s.granTaken new g)
  && k.embers.all (fun x => ((s.core new).ember x.1).isNone && (!(s.core new).fenced.contains x.1 || x.2.any (·.fenced)))
  && (k.bank0.isNone || q.bank0.holder.isNone) && (k.bank1.isNone || q.bank1.holder.isNone)

/-- Whether the parts of a quad that a vat brings there are free: dictionary, park slots, fixed granules, hoops, byte barriers. -/
def State.quadFits (s : State) (vat quad : Nat) (g : List CoreSave) : Bool :=
  let q := s.quad quad
  let d := (s.vat vat).desc
  (firstFrom 4097 0 fun b => q.dictFree b d.dictSize).isSome && decide ((q.parkRes.map (·.2)).foldl (· + ·) 0 + d.parkSlots ≤ 32)
  && s.fixedFree quad d.fixed
  && g.all fun k => k.hoops.all (fun x => (q.hoop x.1).cur.owner.isNone) && k.bbs.all fun x => (q.bb x.1).cur.owner.isNone

/-- Whether a vat's saves from the quad of one of them may resume together on a quad: all places and resources are free there. A vat
that keeps its parts on the old quad comes back there, unless a core is gone (20 R422, R423). -/
def State.groupFits (s : State) (vat quad : Nat) (k : CoreSave) : Bool :=
  let v := s.vat vat
  let old := k.core / 4
  let q := s.quad quad
  let g := v.resumeSet k
  let stays := thas (s.quad old).dictRange vat
  let first := !thas q.dictRange vat
  let parks := g.foldl (fun n k => n + k.parks.length) 0
  (quad == old || (first && !v.saves.any (fun x => x.core / 4 == quad) &&
    (!stays || g.any fun x => s.coreAbsent x.core || (s.core x.core).draining)))
  && !v.cancelled && !q.draining && !(s.modu (quad / 256)).halted && !(List.range 4).any (fun j => v.halting.contains (4 * old + j))
  && g.all (fun k => s.coreFits vat (4 * quad + k.core % 4) k) && (!first || s.quadFits vat quad (v.savedOn old))
  && decide ((q.parks.filter fun x => x.2.isSome).length + parks ≤ 32)
  && decide (q.copies.length + g.foldl (fun n k => n + k.copies.length) 0 ≤ 8)

/-- Whether some saves of a vat could resume somewhere. -/
def State.resumable (s : State) (vat : Nat) : Bool :=
  (s.vat vat).saves.any fun k => s.groupFits vat (k.core / 4) k ||
    (s.vatDies vat).any fun d => (List.range 32).any fun q => s.groupFits vat (32 * d + q) k

/-- The flue's choice among the vats of its die that are ready to place or to resume (16 R333, R345): the lowest class, then the
first queue after the last one served, then a saved vat, which stands at the head, then the order of the queue. -/
def State.flueChoice (s : State) (die : Nat) : Option Nat :=
  let d := s.die die
  let ready := (tkeys s.vats).filter fun v => (s.vat v).die == die && (s.placeable v || s.resumable v)
  let best := ready.filter fun v => ready.all fun w => decide ((s.vat v).cls ≤ (s.vat w).cls)
  match firstFrom 16 (d.rr + 1) fun q => best.any fun v => (s.vat v).queue == q % 16 with
  | some q =>
    let l := tget d.queues (q % 16)
    (l.find? fun v => best.contains v && s.resumable v).or (l.find? fun v => best.contains v)
  | none => none

/-- Whether the places of a gang lie in one unit of its extent. -/
def gangInside (d : Desc) (places : List (Nat × Nat)) : Bool :=
  let key (cx : Nat) : Nat := if d.extent = 1 then cx / 4 else if d.extent = 2 then cx / 16 else if d.extent = 3 then cx / 512 else cx / 4096
  d.gang == 255 || match places with
    | [] => true
    | x :: t => t.all fun y => key y.1 == key x.1

/-- Wheels of the wheel count are placed from an index on. -/
def State.placeRange (s : State) (vat idx : Nat) (places : List (Nat × Nat)) (grans dicts : List Nat) : Option State :=
  if gangInside (s.vat vat).desc places then
    (s.placeAll vat idx places grans dicts).map fun s => s.updVat vat fun v => { v with started := v.started + places.length }
  else none

/-- Places of a range lie on one healthy die of the vat, but that a gang whose extent is a module may take several (16 R336, R351). -/
def State.rangePlaces (s : State) (vat : Nat) (places : List (Nat × Nat)) : Bool :=
  let d := (s.vat vat).desc
  let wide := d.gang != 255 && (d.extent == 0 || d.extent == 4)
  match places with
  | [] => false
  | x :: t => wide || t.all fun y => dieOf y.1 == dieOf x.1

/-- A range of indices that a die asks for, which can place every wheel of it at once: the leader grants it, the leader, the die and
the shadow record it, and its wheels start (16 R351, R352). A range is a gang, or up to 64 wheels of a vat without gangs. -/
def State.grantRange (s : State) (vat : Nat) (places : List (Nat × Nat)) (grans dicts : List Nat) : Option State :=
  let v := s.vat vat
  let n := places.length
  let die := match places with | x :: _ => dieOf x.1 | [] => 0
  if v.lostLeader || (if v.desc.gang = 255 then decide (64 < n) else n != v.desc.batch) || decide (v.desc.wheels < v.granted + n)
    || !s.rangePlaces vat places || s.flueChoice v.die != some vat then none
  else (s.placeRange vat v.granted places grans dicts).map fun s => (s.updVat vat fun v => { v with
    granted := v.granted + n, grants := v.grants ++ [{ first := v.granted, count := n, die := die, next := v.granted + n }] }).updDie v.die
      fun d => { d with rr := v.queue }

/-- The first pending spawn is placed (16 R338). -/
def State.placeSpawn (s : State) (vat : Nat) (places : List (Nat × Nat)) (grans dicts : List Nat) : Option State :=
  match (s.vat vat).spawns, places with
  | w :: rest, [(cx, base)] =>
    if w.released && (w.core.isNone || w.core == some (coreOf cx)) then
      (s.placeOne vat w.idx w.arg cx base grans dicts).map fun x => x.1.updVat vat fun v => { v with spawns := rest }
    else none
  | _, _ => none

/-- WHEEL_PLACE (16 R333, R335 to R338, R351): a gang, a wheel, a range of a vat that spans dies, or a spawned wheel is placed with
the choices of contexts, pane windows, granules and dictionary ranges given; an impossible choice places nothing. -/
def execWheelPlace (vat : Nat) (spawned : Bool) (places : List (Nat × Nat)) (granules dicts : List Nat) (s : State) :
    Host.Outcome State Fault Refusal :=
  let v := s.vat vat
  if s.stopped (vatMod vat) || !thas s.vats vat || v.cancelled || v.phase == .queued || s.dictHeld vat
    || places.any fun x => s.reloadHeld vat (quadOf x.1) then .next s
  else if spawned then .next ((s.placeSpawn vat places granules dicts).getD s)
  else if s.spans vat then .next ((s.grantRange vat places granules dicts).getD s)
  else if places.length ≠ v.desc.batch ∨ s.flueChoice v.die ≠ some vat then .next s
  else match s.placeRange vat v.granted places granules dicts with
  | some s => .next ((s.updVat vat fun v => { v with granted := v.granted + places.length }).updDie v.die fun d => { d with rr := v.queue })
  | none => .next s

/-- The contexts among which a die looks for the places of a range: its own; a gang whose extent is a module takes those of the
vat's other dies after them (16 R336). -/
def State.rangeCtxs (s : State) (vat die : Nat) : List (List Nat) :=
  let d := (s.vat vat).desc
  if d.gang = 255 then [dieCtxs die]
  else if d.extent = 0 ∨ d.extent = 4 then [(die :: (s.vatDies vat).filter (· != die)).flatMap dieCtxs]
  else gangInsts d [die]

/-- INDEX_RANGE_GRANT (16 R351, R352): a die that can place every wheel of a range at once asks for it, is granted it, and starts its
wheels on the first places that it finds. -/
def execIndexRangeGrant (vat die count : Nat) (s : State) : Host.Outcome State Fault Refusal :=
  let v := s.vat vat
  let n := if v.desc.gang = 255 then count else v.desc.batch
  if s.stopped (vatMod vat) || !thas s.vats vat || v.cancelled || v.phase == .queued || !s.spans vat || s.dictHeld vat
    || !(s.vatDies vat).contains die || !s.dieHealthy die then .next s
  else match (s.rangeCtxs vat die).findSome? fun c => s.search vat n c with
  | some x => .next (if x.1.any fun y => s.reloadHeld vat (quadOf y.1) then s else (s.grantRange vat x.1 x.2.1 x.2.2).getD s)
  | none => .next s

/- Preloads (16 R350) -/

/-- Vats with a wheel or an unfinished ember on a quad. -/
def State.vatsOn (s : State) (quad : Nat) : List Nat :=
  (((List.range 16).filterMap fun j => (s.ctx (16 * quad + j)).wheel.map (·.vat)) ++
    (List.range 4).flatMap fun j => ((s.core (4 * quad + j)).live.filter fun x => !x.2.st.cur.final).map (·.2.vat)).eraseDups

/-- Whether a vat is the next to be placed on a quad: of the lowest class among those that wait, and of its flue's choice among
them; a saved vat waits too, at the head of its queue (16 R333, R345, R350), and it has no preload (log entry 65). -/
def State.nextFor (s : State) (quad vat : Nat) : Bool :=
  let v := s.vat vat
  let d := s.die v.die
  let saved (w : Nat) : Bool := !(s.vat w).saves.isEmpty && !(s.vat w).cancelled
  let want := (tkeys s.vats).filter fun w => (saved w || s.wantsPlace w) && (s.vatDies w).contains (quad / 32) && s.newOnQuad w quad
  let peers := want.filter fun w => (s.vat w).die == v.die && (s.vat w).cls == v.cls
  want.contains vat && want.all (fun w => decide (v.cls ≤ (s.vat w).cls)) &&
    match firstFrom 16 (d.rr + 1) fun q => peers.any fun w => (s.vat w).queue == q % 16 with
    | some q =>
      let l := (tget d.queues (q % 16)).filter peers.contains
      !saved vat && !l.any saved && l.head? == some vat
    | none => false

/-- PRELOAD (16 R350): the next vat, which only the resources of the one vat on the quad block, has its dictionary image loaded into
a free range, and its mold granules reserved. -/
def execPreload (quad vat : Nat) (s : State) : Host.Outcome State Fault Refusal :=
  let v := s.vat vat
  let d := v.desc
  let q := s.quad quad
  let cores := ((List.range 4).map (· + 4 * quad)).filter fun k => !s.coreAbsent k
  match s.vatsOn quad with
  | [a] =>
    if s.stopped (quad / 256) || !thas s.vats vat || v.cancelled || v.phase != .ready || a == vat || q.preload.isSome || q.isolated || q.draining || !s.dieHealthy (quad / 32)
      || (s.vat a).rerun || !s.nextFor quad vat || cores.any (fun k => !s.newOnCore vat k)
      || s.placeable vat || s.dictHeld vat || (List.range 4).any (fun j => (s.core (4 * quad + j)).draining) then .next s
    else match firstFrom 4097 0 fun b => q.dictFree b d.dictSize with
    | none => .next s
    | some base =>
      let gs (k : Nat) : List Nat := ((List.range 256).filter fun g => decide (d.fixed ≤ g) && !s.granTaken k g).take d.moldGran
      if cores.any fun k => (gs k).length != d.moldGran then .next s
      else
        let s := cores.foldl (fun t k => t.updCore k fun c => { c with moldRes := tset c.moldRes vat (gs k) }) s
        .next ((s.loadDict vat quad base).updQuad quad fun q => { q with preload := some (vat, base, a) })
  | _ => .next s

/-- A preload that is to be judged again is kept exactly when its vat is still the next for the quad (16 R350). -/
def State.testPreload (s : State) (quad : Nat) : State :=
  match (s.quad quad).preload with
  | some (b, _, _) =>
    if !(s.quad quad).preTest then s
    else if s.nextFor quad b then s.updQuad quad fun q => { q with preTest := false } else s.discardPreload quad
  | none => s
/-- The preloads that a vat holds up are judged before it leaves. -/
def State.testPreloads (s : State) (vat : Nat) : State :=
  (tkeys s.quads).foldl (fun s q => if (s.quad q).preload.any fun p => p.2.2 == vat then s.testPreload q else s) s

/-- PRELOAD_COMMIT (16 R350): the vat before it has left the quad, and is not to run again. A preload that is to be judged again is
discarded unless its vat is still the next for the quad. -/
def execPreloadCommit (quad vat : Nat) (s : State) : Host.Outcome State Fault Refusal :=
  match (s.quad quad).preload with
  | some (b, base, a) =>
    if s.stopped (quad / 256) || b != vat then .next s
    else if (s.quad quad).preTest then .next (s.testPreload quad)
    else if (s.vatsOn quad).contains a || (s.vat a).rerun then .next s
    else .next (s.updQuad quad fun q => { q with
      preload := none, dictRange := tset q.dictRange vat (base, (s.vat vat).desc.dictSize) })
  | none => .next s

/- Completion (16 R346, R347, R349) -/

/-- Whether a vat holds a running wheel or a saved one. -/
def State.vatHasWheel (s : State) (vat : Nat) : Bool :=
  s.ctxs.any (fun x => x.2.wheel.isSome && x.2.vatKey == vat) || (s.vat vat).saves.any fun k => !k.ctxs.isEmpty

/-- The live embers of a vat on cores, and those saved with it. -/
def State.vatEmbers (s : State) (vat : Nat) : List (Nat × Nat × Ember) :=
  s.cores.flatMap fun k => (k.2.live.filter fun x => x.2.vat == vat).map fun x => (k.1, x.1, x.2)
def Vat.savedEmbers (v : Vat) : List (Nat × Ember) :=
  v.saves.flatMap fun k => k.embers.filterMap fun x => x.2.map fun e => (k.core, e)

/-- Whether a far store is parked on a page of a vat. -/
def State.parkedOn (s : State) (vat r : Nat) : Bool := s.dies.any fun d => d.2.parked.any fun p => p.vat == vat && p.far == some r
/-- Whether nothing holds the queues of a context of a cancelled vat but far stores parked on pages of that vat, which no residency command
need ever drain (17 R379). -/
def State.heldByOwn (s : State) (cx : Nat) : Bool :=
  let c := s.ctx cx
  let waiting := c.farSent.filter s.farOpen
  let place (o : MOp) : Bool := match o.kind with | .order _ _ _ _ => true | _ => false
  c.phase == .faulting && c.rets.isEmpty && c.lq.all place && !waiting.isEmpty && waiting.all (s.parkedOn c.vatKey) &&
    match c.sq with
    | o :: _ => match o.kind with
      | .order _ pod _ _ => pod
      | .far .flag _ _ _ _ => !c.sentFar o.id
      | _ => false
    | [] => false

/-- Whether all but its wheels lets a vat complete: no spawn is pending, its embers are final, none of its arrivals is parked and no far
store of its own is; a cancelled vat starts no further wheel, and waits for nothing parked on its own pages (16 R346 to R348, 17 R376,
R379). -/
def State.vatOver (s : State) (vat : Nat) : Bool :=
  let v := s.vat vat
  let isOver (e : Ember) : Bool := e.st.cur.final || (v.cancelled && e.allDone && e.late.isEmpty)
  (v.cancelled || ((v.allStarted || v.lostLeader) && v.spawns.isEmpty))
  && (s.vatEmbers vat).all (fun x => isOver x.2.2) && v.savedEmbers.all (fun x => isOver x.2)
  && (v.cancelled || !s.dies.any fun d => d.2.parked.any fun p => p.vat == vat)
  && !s.colls.any (fun c => c.vat == vat)
  && !s.fars.any fun x => x.2.wheel.vat == vat && x.2.answered && !x.2.performed && !x.2.poison && !(v.cancelled && s.parkedOn vat x.1)
/-- Whether a vat may complete: its wheels have ended too. -/
def State.vatDone (s : State) (vat : Nat) : Bool := !s.vatHasWheel vat && s.vatOver vat
/-- Whether all that a cancelled vat waits for is its own far stores, parked on its own pages, whose discard is part of its completion
(17 R379; log entry 111). -/
def State.vatStuck (s : State) (vat : Nat) : Bool :=
  (s.vat vat).cancelled && s.vatOver vat && !(s.vat vat).saves.any (fun k => !k.ctxs.isEmpty) &&
    let on := s.ctxs.filter fun x => x.2.wheel.isSome && x.2.vatKey == vat
    !on.isEmpty && on.all fun x => s.heldByOwn x.1

/-- Parked arrivals of a cancelled vat are discarded; the senders of far stores are told (17 R379), with the effective address that the
sender used (log entry 154). A far store that is discarded holds its sender's later fences no more (log entry 151). -/
def State.dropParked (s : State) (vat : Nat) (which : Parked → Bool := fun _ => true) : State :=
  let out (p : Parked) : Bool := p.vat == vat && which p
  let gone := s.dies.flatMap fun d => d.2.parked.filter out
  let s := { s with dies := s.dies.map fun d => (d.1, { d.2 with parked := d.2.parked.filter fun p => !out p }) }
  gone.foldl (fun s p => match p.far with
    | some id =>
      let r := tget s.fars id
      let s := s.notify p.sender.1 (.farLost (p.sender.2.1 % 2 ^ 32) p.sender.2.2 p.bytes.length)
      if !thas s.fars id then s
      else if r.acked then { s with fars := tdel s.fars id } else { s with fars := tset s.fars id { r with performed := true } }
    | none => s) s

/-- The resident dictionaries of a vat to rerun stay, as they stood in a state before (16 R350). -/
def State.keepDict (s : State) (vat : Nat) (old : State) : State :=
  (old.quads.filter fun x => thas x.2.dictRange vat).foldl (fun s x =>
    s.updQuad x.1 fun q => { q with dictRange := tset q.dictRange vat (tget x.2.dictRange vat) }) s

/-- A cancelled vat's own far stores on its own pages are discarded, so that what its wheels' queues still hold is performed. -/
def State.dropOwn (s : State) (vat : Nat) : State :=
  s.dropParked vat fun p => p.far.any fun r => (tget s.fars r).wheel.vat == vat

/-- VAT_COMPLETE (16 R346, R347, R349): its embers are reaped, the FAULTED ones entered; the record, the signal and the notice follow; a
vat marked for rerun takes its place again, one that has lost its leader and its shadow too (log entry 123). -/
def execVatComplete (vat : Nat) (s : State) : Host.Outcome State Fault Refusal :=
  let v := s.vat vat
  if s.stopped (vatMod vat) || !thas s.vats vat || !(v.phase == .running || v.cancelled || v.lostLeader) then .next s
  else if s.vatStuck vat then .next (s.dropOwn vat)
  else if !s.vatDone vat || s.runHeld vat v.desc.record 256 then .next s
  else
    let s := s.testPreloads vat
    let live := s.vatEmbers vat
    let faulted := (live.filter fun x => x.2.2.st.cur == .faulted).map (fun x => emberEntry x.1 x.2.2) ++
      (v.savedEmbers.filter fun x => x.2.st.cur == .faulted).map fun x => emberEntry x.1 x.2
    let s := s.dropParked vat
    let s := live.foldl (fun s x => (s.updCore x.1 (·.reapSlot x.2.1)).leaveArray x.1 x.2.1) s
    let s := s.updVat vat fun v => faulted.foldl Vat.addEntry v
    if v.cancelled then .next (s.retire vat 3)
    else if v.rerun then
      let s := s.noteSignal vat
      let w := s.vat vat
      let cause := w.firstCause
      let (s, whole) := s.writeRecord vat 4 cause
      let s := (s.signalDone vat).notify (vatMod vat) (.complete (vat % 2 ^ 32) v.desc.record 4 cause (!whole))
      let s := s.quads.foldl (fun s x => match (s.quad x.1).preload with
        | some p => if p.2.2 = vat then s.discardPreload x.1 else s
        | none => s) s
      let s := (s.freeVat vat).keepDict vat s
      let s := s.updVat vat fun v => v.fresh (s.elect vat)
      .next (s.updDie v.die fun d => { d with queues := tupd d.queues v.queue fun l => vat :: l })
    else .next (s.retire vat (if v.lostLeader then 5 else 0))

/- Energy and classes -/

/-- Whether a vat is at work: a wheel of it runs, or an engine works on an ember of it. Placement, waiting and pre-emption use no
budget (16 R344). -/
def State.atWork (s : State) (vat : Nat) : Bool :=
  s.ctxs.any (fun x => x.2.wheel.isSome && x.2.vatKey == vat && x.2.phase != .halted) ||
  (s.vatEmbers vat).any fun x => x.2.2.began && !x.2.2.stopped && !x.2.2.st.cur.final

/-- ENERGY_UPDATE (16 R344): microjoules used; at 0 the class falls once, and preloads that the vat holds up are to be judged again
(R350). -/
def execEnergyUpdate (vat amount : Nat) (s : State) : Host.Outcome State Fault Refusal :=
  if !thas s.vats vat || !s.atWork vat then .next s
  else
    let spent := (s.vat vat).desc.budget != 0 && (s.vat vat).energy - amount == 0 && (s.vat vat).demotions == 0
    let s := if spent then s.askPreload vat fun _ => true else s
    .next (s.updVat vat fun v =>
    let v := { v with used := v.used + amount }
    if v.desc.budget = 0 then v
    else
      let e := v.energy - amount
      if e = 0 ∧ v.demotions = 0 then { v with energy := 0, demotions := 1, cls := min (v.cls + 1) 3 } else { v with energy := e })

/-- The cores on which a vat has anything: it holds its granules there. -/
def State.vatCores (s : State) (vat : Nat) : List Nat := (s.cores.filter fun k => thas k.2.moldRes vat).map (·.1)

/-- A set of cores with every core of each gang of a vat that has a member in it. -/
def State.withGangs (s : State) (vat : Nat) (cores : List Nat) : List Nat :=
  let v := s.vat vat
  let gang (x : Nat × Ctx) : Option Nat := v.gangOf x.2.wid.idx
  let on := s.ctxs.filter fun x => x.2.wheel.isSome && x.2.vatKey == vat
  let hit := (on.filter fun x => cores.contains (coreOf x.1)).filterMap gang
  ((on.filter fun x => match gang x with | some g => hit.contains g | none => false).map fun x => coreOf x.1).foldl nsAdd cores

/-- A pre-emption request: the set of cores, extended to every core of each gang that has one in it, and so on until no gang is left in
part (17 R364, 01 R22). -/
def State.askPreempt (s : State) (vat : Nat) (cores : List Nat) : State :=
  let all := Nat.repeat (s.withGangs vat) (s.ctxs.length + 1) (cores.foldl nsAdd [])
  s.updVat vat fun v => { v with
    halting := (all.filter fun k => thas (s.core k).moldRes vat || s.ctxs.any fun x => coreOf x.1 == k && x.2.wheel.isSome && x.2.vatKey == vat).foldl
      nsAdd v.halting }

/-- STARVATION_PREEMPT (16 R345): a ready vat without a placement for 160,000 cycles pre-empts the running vat of the
highest class number above its own, the latest-started first; the next follows when the cores of the last are saved. -/
def execStarvationPreempt (vat victim : Nat) (s : State) : Host.Outcome State Fault Refusal :=
  let v := s.vat vat
  let u := s.vat victim
  let worse (w : Nat) : Bool :=
    let x := s.vat w
    decide (v.cls < x.cls) && x.phase == .running && !(s.vatCores w).isEmpty && (s.vatCores w).any (fun k => !x.halting.contains k)
    && (s.vatDies w).any (s.vatDies vat).contains
  let after (w : Nat) : Bool := let x := s.vat w; decide (u.cls < x.cls) || (x.cls == u.cls && decide (u.startAt.getD 0 < x.startAt.getD 0))
  if s.stopped (vatMod vat) || v.phase != .ready || v.cancelled || decide (s.now < v.readyAt + 160000) || s.placeable vat || !worse victim
    || (tkeys s.vats).any (fun w => worse w && after w)
    || (tkeys s.vats).any (fun w => !(s.vat w).halting.isEmpty && (s.vatDies w).any (s.vatDies vat).contains) then .next s
  else .next (s.askPreempt victim (s.vatCores victim))

/- Power gating (16 R354) -/

/-- Whether something wakes a core: a spawned wheel that is to start on it, or a save that is asked of it (16 R354). -/
def State.wakePending (s : State) (core : Nat) : Bool :=
  s.vats.any fun v => v.2.halting.contains core || v.2.spawns.any fun w => w.core == some core
/-- CORE_POWER_GATE: a core with no wheel on any context and no placement pending; a wake that is pending wins. -/
def execCorePowerGate (core : Nat) (s : State) : Host.Outcome State Fault Refusal :=
  if s.issue.active || (List.range 4).any (fun j => (s.ctx (4 * core + j)).wheel.isSome) || s.wakePending core then .next s
  else .next (s.updCore core fun k => { k with gated := true })

/-- CORE_WAKE. -/
def execCoreWake (core : Nat) (s : State) : Host.Outcome State Fault Refusal :=
  .next (s.updCore core fun k => { k with gated := false })

end Sys2Proof.Machine
end

