-- ==== Sys2Proof/Machine/Preempt.lean ====
section
/-! DEFINITION. Pre-emption (17 R364 to R368): halting contexts, the save of a vat on one core (Table 17.4, 11 R248, 12 R275,
13 R305, 01 R22) and its resume on another (R249). -/

namespace Sys2Proof.Machine

/- Halting (17 R365, 16 R348) -/

/-- A context halts at a bundle boundary; a wheel of a cancelled vat ends there instead. -/
def State.haltCtx (s : State) (cx : Nat) : State :=
  let s := s.leaveWaits cx
  if (s.vat (s.ctx cx).vatKey).cancelled then
    (s.updCtx cx fun c => { c with
      phase := .faulting, endFault := none, barIn := none,
      l0 := { c.l0 with land := [], fmtp := none, loops := [] },
      l1 := { c.l1 with land := [], fmtp := none, loops := [] } }).settleFar cx
  else s.updCtx cx fun c => { c with phase := .halted, haltAt := s.now }

/-- CONTEXT_HALT (17 R365): a context of a vat that is being pre-empted or cancelled on its core. -/
def execContextHalt (cx : Nat) (s : State) : Host.Outcome State Fault Refusal :=
  let c := s.ctx cx
  let halts := c.phase == .running || ((c.phase == .halted || c.phase == .ending) && (s.vat c.vatKey).cancelled)
  if s.stopped (modOf cx) || c.wheel.isNone || !s.halting c.vatKey (coreOf cx) || !halts then .next s else .next (s.haltCtx cx)

/- What a save waits for (17 R366) -/

/-- The contexts of a core that hold wheels of a vat. -/
def State.ctxsOf (s : State) (vat core : Nat) : List Nat :=
  ((List.range 4).map (· + 4 * core)).filter fun cx => (s.ctx cx).wheel.isSome && (s.ctx cx).vatKey == vat

/-- What may stand in the queues of a context that is saved: a far instruction that has been sent, with the acquire of a far atomic (17
R367, 18 R395). -/
def Ctx.savable (c : Ctx) (o : MOp) : Bool :=
  c.sentFar o.id || match o.kind with
    | .order (some .pod) _ .none false => c.farWait.any fun w => o.id == w.op + 1 && c.lq.any fun f => f.id == w.op &&
        match f.kind with | .far (.amo _) _ _ _ _ => true | _ => false
    | _ => false

/-- A context's operations are over, every mark and fence performed and every counter 0, but for far instructions that are outstanding (07
R155, 10 R208, 17 R366, R367). A place that waits for a parked far store waits for its drain (R376; log entry 111). -/
def Ctx.drained_ (c : Ctx) : Bool :=
  c.rets.isEmpty && c.lq.all c.savable && c.sq.all c.savable && c.farWait.all (fun w => w.req.isSome || w.closed)
    && c.outs.all fun o => c.farWait.any fun w => w.op == o.id

/-- Whether the command on an array may be stopped: at a boundary that it has reached, or at the start of a press.stat
that waits for a partner; a press.zero and a local press.stat run to their end (12 Table 12.9, R275). -/
def PressRun.stoppable (r : PressRun) (e : Ember) : Bool :=
  e.allDone || match e.op with
    | .stat _ _ => fld e.cmd 56 1 != 0 && !r.sending
    | .run _ _ _ => r.atBoundary
    | .drain _ _ => r.atBoundary
    | _ => false

/-- The press and the copies of a vat on a core stand at boundaries, or are held by a hoop. -/
def State.enginesStill (s : State) (vat core : Nat) : Bool :=
  let q := s.quad (core / 4)
  let mine (k slot : Nat) : Bool := k == core && ((s.core k).ember slot).any fun e => e.vat == vat
  (match q.run with
    | some r => match (s.core r.core).ember r.slot with
      | some e => r.core != core || e.vat != vat || r.stoppable e
      | none => true
    | none => true)
  && q.copies.all fun r => !mine r.core r.slot || (r.uncounted.isEmpty && r.todo != some [] && (r.atBoundary || !s.copyReady r))

/-- Whether the save of a vat on a core may be made. -/
def State.maySave (s : State) (vat core : Nat) : Bool :=
  let v := s.vat vat
  v.halting.contains core && !v.cancelled && s.enginesStill vat core && !(s.core core).left.any (·.vat == vat)
  && !((s.core core).live.any fun x => x.2.vat == vat && x.2.late.any fun l => s.hbmWaits (l.ws.map (·.1)))
  && (s.ctxsOf vat core).all fun cx =>
    let c := s.ctx cx
    (c.phase == .halted || c.phase == .ending || c.phase == .faulting) && c.drained_

/- Stopping (11 R248, 12 R275, 13 R285, R305) -/

/-- The command of a vat on the array stops; a cancel accepted before is honoured. -/
def State.stopPress (s : State) (vat core : Nat) : State :=
  match s.pressRun (core / 4) with
  | none => s
  | some (r, e) =>
    if r.core ≠ core ∨ e.vat ≠ vat then s
    else if e.cancel && !e.allDone then
      let s := if e.isStat then s.updQuad (core / 4) fun q => { q with image := none } else s
      (s.pressEnd (core / 4) r .cancelled cCANCEL 0 e.prog).updQuad (core / 4) fun q => { q with run := none }
    else
      let s := s.updQuad (core / 4) fun q => { q with run := none }
      s.updCore core fun k => k.setEmber r.slot { e with stopped := !e.allDone }

/-- The image of the lease that counts an ember is invalid, on the array where the lease is granted, else with the lease (12 Table
12.9). -/
def Quad.dropImage (q : Quad) (e : Ember) : Quad :=
  { q with image := if q.leaseGranted e then none else q.image,
           leases := q.leases.map fun w => if w.cur.num = e.lease then { w with image := none } else w }
/-- A press command that an earlier pre-emption stopped, and that has not been taken up again, honours a cancel accepted since (11
R248); a press.stat leaves its lease's image invalid (12 Table 12.9). -/
def State.stopStopped (s : State) (vat core : Nat) : State :=
  (s.core core).live.foldl (fun s x =>
    if x.2.vat = vat ∧ x.2.op.kind = 0 ∧ x.2.stopped ∧ x.2.cancel ∧ !x.2.st.cur.final then
      (if x.2.isStat then s.updQuad (core / 4) (·.dropImage x.2) else s).emberEnd x.2.uid .cancelled cCANCEL 0 x.2.prog
    else s) s

/-- Writes that the embers of a vat on a core put off are performed before the save. -/
def State.flushCore (s : State) (vat core : Nat) : State :=
  (s.core core).live.foldl (fun s x => if x.2.vat = vat then s.flushLate x.2.uid else s) s

/-- The copies of a vat on a core stop; a chunk of which nothing is written is read again. -/
def State.stopCopies (s : State) (vat core : Nat) : State :=
  (s.quad (core / 4)).copies.foldl (fun s r =>
    match (s.core r.core).ember r.slot with
    | some e =>
      if r.core ≠ core ∨ e.vat ≠ vat then s
      else if e.cancel && r.atBoundary then s.copyEnd r .cancelled cCANCEL 0
      else if r.atBoundary then s.updQuad (core / 4) (·.putCopy { r with todo := none }) else s
    | none => s) s

/- Saving -/

/-- The bytes of granules of a core, by offset. -/
def State.granBytes (s : State) (core : Nat) (gs : List Nat) : List (Nat × Byte) :=
  gs.flatMap fun g => (List.range 4096).map fun i => (4096 * g + i, s.byte (spadLoc core (4096 * g + i)))
/-- Poisoned units of granules of a core, by offset. -/
def State.granBad (s : State) (core : Nat) (gs : List Nat) : List Nat :=
  (s.poison.filter fun u => isSpad (32 * u) && spadCore (32 * u) == core && gs.contains ((32 * u - spadLoc core 0) / 4096)).map
    fun u => 32 * u - spadLoc core 0

/-- Whether a core is the last of its quad on which the vat has anything. -/
def State.lastOfQuad (s : State) (vat core : Nat) : Bool :=
  (List.range 4).all fun j => 4 * (core / 4) + j == core || s.newOnCore vat (4 * (core / 4) + j)

/-- The record of an ember as it is saved: what its engine had read ahead goes, but for row groups that it has read whole for the
command (12 R273, 14 R321). -/
def State.savedEmber (s : State) (core : Nat) (e : Ember) : Ember :=
  let e := { e with offered := false }
  match e.op.kind with
  | 0 =>
    let bm := s.bitmapOf core e
    { e with snap := if e.grouped && !e.snap.isEmpty then
        (e.tile.groups bm 0 256).flatMap fun g =>
          let vas := e.tile.groupAddrs bm [g]
          if (e.unread 0 vas).isEmpty then e.snap.filter fun x => vas.contains x.2.1 else []
      else [] }
  | 1 => { e with snap := [] }
  | _ => e

/-- The save of a vat on a core. -/
def State.saveOf (s : State) (vat core : Nat) : CoreSave :=
  let k := s.core core
  let q := s.quad (core / 4)
  let cxs := s.ctxsOf vat core
  let last := s.lastOfQuad vat core
  let molds := k.molds.filter fun m => m.vat == vat
  let grans := (molds.flatMap fun m => (List.range m.count).map (· + m.first)) ++
    if thas k.trapGran vat then [tget k.trapGran vat] else []
  let mine (cx : Nat) (w : WheelId) : Bool := coreOf cx == core && w.vat == vat
  let bank (b : Bool) : Option Bank := match (q.bank b).holder with
    | some (cx, w) => if mine cx w then some (q.bank b) else none
    | none => none
  let fixed := List.range (tget q.fixedRes vat)
  let fixedOf (f : Nat → List Nat) : List Nat := (List.range 4).flatMap f
  { core := core, ctxs := cxs.map fun cx => (cx % 4, s.ctx cx),
    panes := k.panes.filter fun x => cxs.any fun cx =>
      let w := (s.ctx cx).window
      decide (64 * w.1 ≤ x.1) && decide (x.1 < 64 * (w.1 + w.2)),
    embers := (k.live.filter fun x => x.2.vat == vat).map fun x => (x.1, some (s.savedEmber core x.2)),
    molds := molds, moldRes := tget k.moldRes vat, trapGran := if thas k.trapGran vat then some (tget k.trapGran vat) else none,
    bytes := s.granBytes core grans, bad := s.granBad core grans,
    leases := (q.leases.filter fun l => mine l.ctx l.wheel).map fun l =>
      if l.cur.isGranted then { l with image := q.image.filter fun i => i.vat == vat } else l,
    bank0 := bank false, bank1 := bank true,
    parks := q.parks.filter fun x => x.2.any fun p => mine p.ctx p.wheel,
    copies := q.copies.filter fun r => r.core == core && ((k.ember r.slot).any fun e => e.vat == vat),
    hasQuad := last,
    fixedBytes := (List.range 4).flatMap fun j => (s.granBytes (4 * (core / 4) + j) fixed).map fun x => (2 ^ 20 * j + x.1, x.2),
    fixedBad := fixedOf fun j => (s.granBad (4 * (core / 4) + j) fixed).map (· + 2 ^ 20 * j),
    hoops := q.hoops.filter fun x => x.2.cur.owner == some vat,
    bbs := q.bbs.filter fun x => x.2.cur.owner == some vat,
    bbAcc := q.bbAcc.filter fun x => (q.bb x.1).cur.owner == some vat }

/-- What was saved leaves the core and the quad. The generation of each slot that is freed advances, as at a reap (11 R225; log entry
113). A park slot of the vat's that stays reserved on the quad is not free while its pane is saved (03 R72, R73). -/
def State.clearSaved (s : State) (vat core : Nat) : State :=
  let cxs := s.ctxsOf vat core
  let last := s.lastOfQuad vat core
  let mine (cx : Nat) (w : WheelId) : Bool := coreOf cx == core && w.vat == vat
  let freed (b : Bank) : Bank := match b.holder with
    | some (cx, w) => if mine cx w then { b with holder := none, release := none } else b
    | none => b
  let s := s.updQuad (core / 4) fun q =>
    let granted := q.leases.any fun l => mine l.ctx l.wheel && l.cur.isGranted
    { q with
      leases := q.leases.filter fun l => !mine l.ctx l.wheel, image := if granted then none else q.image,
      endedAt := if granted then some s.now else q.endedAt, bank0 := freed q.bank0, bank1 := freed q.bank1,
      parks := q.parks.map fun x => (x.1, x.2.filter fun p => !mine p.ctx p.wheel),
      parkHeld := tupd q.parkHeld vat fun n => n + (q.parks.filter fun x => x.2.any fun p => mine p.ctx p.wheel).length,
      copies := q.copies.filter fun r => !(r.core == core && (((s.core core).ember r.slot).any fun e => e.vat == vat)) }
  let s := s.updCore core fun k =>
    let k := (k.live.filter fun x => x.2.vat == vat).foldl (fun (k : Core) x => k.reapSlot x.1) k
    { k with molds := k.molds.filter (·.vat != vat), moldRes := tdel k.moldRes vat, trapGran := tdel k.trapGran vat,
             tlb := k.tlb.filter (·.vat != vat) }
  let s := if last then s.updQuad (core / 4) fun q => { q with
      parkRes := tdel q.parkRes vat, parkHeld := tdel q.parkHeld vat, parkQ := tdel q.parkQ vat, dictRange := tdel q.dictRange vat, fixedRes := tdel q.fixedRes vat,
      hoops := q.hoops.filter fun x => x.2.cur.owner != some vat, bbAcc := q.bbAcc.filter fun x => (q.bb x.1).cur.owner != some vat,
      bbs := q.bbs.filter fun x => x.2.cur.owner != some vat } else s
  let idxs := cxs.map fun cx => (s.ctx cx).wid.idx
  let s := cxs.foldl (fun s cx => s.setCtx cx {}) s
  s.updVat vat fun v => { v with
    bars := (v.bars.map fun b => { b with arrived := b.arrived.filter fun i => !idxs.contains i }).filter fun b => !b.arrived.isEmpty }

/-- The save: invalidations complete, engines stop, and everything leaves the core, which a request to save it has woken (16 R354,
17 R366). -/
def State.saveCore (s : State) (vat core : Nat) : State :=
  let s := (s.ctxsOf vat core).foldl (fun s cx => match (s.ctx cx).xinv with
    | some x => (s.invalidate vat x).updCtx cx fun c => { c with xinv := none }
    | none => s) s
  let s := (s.updCore core fun k => { k with gated := false }).flushCore vat core
  let s := ((s.stopPress vat core).stopStopped vat core).stopCopies vat core
  let k := s.saveOf vat core
  (s.clearSaved vat core).updVat vat fun v => { v with saves := v.saves ++ [k], halting := nsDel v.halting core }

/-- VAT_SAVE (17 R366). -/
def execVatSave (vat core : Nat) (s : State) : Host.Outcome State Fault Refusal :=
  if s.stopped (vatMod vat) || !thas s.vats vat || !s.maySave vat core then .next s else .next (s.saveCore vat core)

/- Resuming (11 R249, 17 R368) -/

/-- A context key, a scratchpad location and a quad's parts on another core or quad. -/
def moveCx (new cx : Nat) : Nat := 4 * new + cx % 4
def moveLoc (oldQuad newQuad loc : Nat) : Nat :=
  if isSpad loc && spadCore loc / 4 == oldQuad then
    spadLoc (4 * newQuad + spadCore loc % 4) (loc - spadLoc (spadCore loc) 0) else loc
def OrdAct.move (new : Nat) : OrdAct → OrdAct
  | .fork _ slot uid => .fork new slot uid
  | .bbArrive _ bb id => .bbArrive (new / 4) bb id
  | .hoopRel _ h i => .hoopRel (new / 4) h i
  | a => a
def MOp.move (old new : Nat) (o : MOp) : MOp :=
  let o := { o with locs := o.locs.map (moveLoc (old / 4) (new / 4)) }
  match o.kind with
  | .order acq pod act e => { o with kind := .order acq pod (act.move new) e }
  | _ => o
def Mold.move (new : Nat) (m : Mold) : Mold :=
  match m.st with
  | .owned cx w => { m with st := .owned (moveCx new cx) w }
  | .passed cx w => { m with st := .passed (moveCx new cx) w }
  | _ => m
def Bank.move (new : Nat) (b : Bank) : Bank := { b with holder := b.holder.map fun x => (moveCx new x.1, x.2) }
def CopyRun.move (new : Nat) (r : CopyRun) : CopyRun :=
  { r with core := new, pend := r.pend.map (moveLoc (r.core / 4) (new / 4)) }
def Hoop.move (oldQuad newQuad : Nat) (h : Hoop) : Hoop := { h with base := moveLoc oldQuad newQuad h.base }
/-- A saved lease enters arbitration as a request, under a number of its own on the quad (12 R275). -/
def Lease.asRequest (l : Lease) (num : Nat) : Lease :=
  { l with num := num, st := match l.st with | .freeing _ => .freeing false | _ => .requested }

/-- A restored context; one that was halted is still so until its gang is back (01 R22). -/
def Ctx.restored (c : Ctx) (old new dictbase : Nat) (slots : List (Nat × Nat)) : Ctx :=
  { c with
    dictbase := dictbase, lq := c.lq.map (·.move old new), sq := c.sq.map (·.move old new),
    tags := c.tags.map fun x => (x.1, ((slots.find? fun y => y.1 == x.2).map (·.2)).getD x.2) }

/-- The parts of the quad come back with the first saves of a group (13 R305): dictionary, park slots, fixed granules, hoops,
byte barriers, as the last of the saves holds them; the saves that stay follow, and so do pending spawned wheels tied to their
cores (16 R338). Where other cores of the vat are still on the old quad, the new one gets the parts as they were saved (log entry
122). -/
def State.resumeQuad (s : State) (vat oldQuad quad : Nat) (group : List CoreSave) : State :=
  let d := (s.vat vat).desc
  let base := (firstFrom 4097 0 fun b => (s.quad quad).dictFree b d.dictSize).getD 0
  let s := match (s.quad quad).preload with
    | some p => if (s.vat vat).cls < (s.vat p.1).cls || !(decide (base + d.dictSize ≤ p.2.1) || decide (p.2.1 + (s.vat p.1).desc.dictSize ≤ base))
      then s.discardPreload quad else s
    | none => s
  let s := (s.reloadBad quad).updQuad quad fun q => { q with
    dictRange := tset q.dictRange vat (base, d.dictSize), parkRes := tset q.parkRes vat d.parkSlots, fixedRes := tset q.fixedRes vat d.fixed,
    tlb := q.tlb.filter (·.vat != vat) }
  let s := s.loadDict vat quad base
  let s := group.foldl (fun s g =>
    let at_ (x : Nat) : Nat := spadLoc (4 * quad + x / 2 ^ 20) (x % 2 ^ 20)
    let s := s.setBytes (g.fixedBytes.map fun x => (at_ x.1, x.2))
    let s := g.fixedBad.foldl (fun s x => s.setBad (at_ x / 32)) s
    s.updQuad quad fun q => { q with
      hoops := g.hoops.foldl (fun t x => tset t x.1 { cur := x.2.cur.move oldQuad quad, prev := x.2.prev.move oldQuad quad, at_ := x.2.at_ }) q.hoops,
      bbs := g.bbs.foldl (fun t x => tset t x.1 x.2) q.bbs, bbAcc := g.bbAcc.foldl (fun t x => tset t x.1 x.2) q.bbAcc }) s
  s.updVat vat fun v => { v with
    spawns := v.spawns.map fun (w : Spawn) => match w.core with
      | some c => if group.any fun g => g.core == c then { w with core := some (4 * quad + c % 4) } else w
      | none => w,
    saves := v.saves.map fun g => if g.core / 4 = oldQuad then { g with core := 4 * quad + g.core % 4, hasQuad := false, fixedBytes := [], fixedBad := [], hoops := [], bbs := [], bbAcc := [] } else g }

/-- The parts of a core come back. -/
def State.resumeCore (s : State) (vat new : Nat) (k : CoreSave) : State :=
  let quad := new / 4
  let q := s.quad quad
  let free := (List.range 32).filter fun i => (tget q.parks i).isNone
  let slots := (k.parks.map (·.1)).zip free
  let nums := (k.leases.flatMap fun l => l.cur.num :: (l.next.map (·.num)).toList).zipIdx.map fun x => (x.1, q.leaseNum + x.2)
  let num (n : Nat) : Nat := ((nums.find? fun x => x.1 == n).map (·.2)).getD 0
  let leases := k.leases.map fun l =>
    { l with ctx := moveCx new l.ctx, cur := l.cur.asRequest (num l.cur.num), next := l.next.map fun n => n.asRequest (num n.num) }
  let dictbase := (tget q.dictRange vat).1
  let orders := (k.embers.filterMap fun x => x.2.map (·.order)) ++ k.molds.map (·.order) ++
    ([k.bank0, k.bank1].filterMap fun b => b.bind (·.release))
  let s := s.updCore new fun c =>
    let inWin (r : Nat) : Bool := k.ctxs.any fun x => decide (64 * x.2.panebase ≤ r) && decide (r < 64 * (x.2.panebase + x.2.panecnt))
    { c.emptyL1 with
      gated := false,
      tlb := c.tlb.filter (·.vat != vat), order := (orders.map (· + 1)).foldl max c.order,
      panes := k.panes.foldl (fun t x => tset t x.1 x.2) (c.panes.filter fun x => !inWin x.1),
      embers := k.embers.foldl (fun t x => tset t x.1 (x.2.map fun e => { e with ctx := moveCx new e.ctx, lease := num e.lease })) c.embers,
      molds := c.molds ++ k.molds.map (·.move new), moldRes := tset c.moldRes vat k.moldRes,
      trapGran := match k.trapGran with | some g => tset c.trapGran vat g | none => c.trapGran }
  let s := s.setBytes (k.bytes.map fun x => (spadLoc new x.1, x.2))
  let s := k.bad.foldl (fun s x => s.setBad (spadLoc new x / 32)) s
  let s := s.updQuad quad fun q => { q with
    leases := q.leases ++ leases, leaseNum := q.leaseNum + nums.length,
    bank0 := match k.bank0 with | some b => b.move new | none => q.bank0,
    bank1 := match k.bank1 with | some b => b.move new | none => q.bank1,
    parks := (k.parks.zip slots).foldl (fun t x => tset t x.2.2 (x.1.2.map fun p => { p with ctx := moveCx new p.ctx })) q.parks,
    copies := q.copies ++ k.copies.map (·.move new) }
  k.ctxs.foldl (fun s x => s.setCtx (4 * new + x.1) (x.2.restored k.core new dictbase slots)) s

/-- A restored context's kept arrival joins the barrier at its new place (01 R22, 07 R160). -/
def State.rejoin (s : State) (cx : Nat) : State :=
  let c := s.ctx cx
  match c.barIn, (s.vat c.vatKey).gangOf c.wid.idx with
  | some sc, some g =>
    let inst := instOf cx sc
    s.updVat c.vatKey fun v =>
      if v.bars.any fun b => b.gang == g && b.scope == sc && b.inst == inst then
        { v with bars := v.bars.map fun b =>
          if b.gang = g ∧ b.scope = sc ∧ b.inst = inst then { b with arrived := nsAdd b.arrived c.wid.idx } else b }
      else { v with bars := v.bars ++ [{ gang := g, scope := sc, inst := inst, arrived := [c.wid.idx] }] }
  | _, _ => s

/-- Whether a gang's members are all back, or none of them was saved: none is saved and none is being halted (01 R22). -/
def State.gangBack (s : State) (vat g : Nat) : Bool :=
  let v := s.vat vat
  let member (c : Ctx) : Bool := match c.wheel with | some w => w.vat == vat && v.gangOf w.idx == some g | none => false
  !v.saves.any (fun k => k.ctxs.any fun x => member x.2) && !s.ctxs.any fun x => member x.2 && v.halting.contains (coreOf x.1)
/-- The contexts of a vat that were restored run on, a gang's once the whole of it is back (01 R22, 17 R368); a far
instruction that is over by then completes or traps (R367). -/
def State.wakeHalted (s : State) (vat : Nat) : State :=
  let v := s.vat vat
  let back := s.ctxs.filter fun x => x.2.phase == .halted && x.2.wheel.isSome && x.2.vatKey == vat && !v.halting.contains (coreOf x.1) &&
    match v.gangOf x.2.wid.idx with | some g => s.gangBack vat g | none => true
  back.foldl (fun s x => (s.updCtx x.1 fun c => { c with phase := .running }).settleFar x.1) s

/-- Park slots of saved panes are no longer held on the quad they were saved from. -/
def State.unholdParks (s : State) (vat quad n : Nat) : State :=
  s.updQuad quad fun q => if thas q.parkHeld vat then { q with parkHeld := tupd q.parkHeld vat (· - n) } else q

/-- Panes parked among some saves. -/
def parksOf (l : List CoreSave) : Nat := l.foldl (fun n k => n + k.parks.length) 0

/-- What a vat saved from the quad of one of its saves resumes on a quad. Park slots of panes that stay saved are held where their wheels
will come back (03 R72, R73). -/
def State.resume (s : State) (vat quad : Nat) (k : CoreSave) : State :=
  let old := k.core / 4
  let set := (s.vat vat).resumeSet k
  let group := (s.vat vat).savedOn old
  let stays := thas (s.quad quad).dictRange vat
  let s := s.unholdParks vat old (parksOf (if stays then set else group))
  let s := (s.updVat vat fun v => { v with saves := v.saves.filter fun x => !set.contains x }).forget quad
  let s := if stays then s
    else (s.resumeQuad vat old quad group).updQuad quad fun q => { q with
      parkHeld := tset q.parkHeld vat (parksOf (group.filter fun x => !set.contains x)) }
  let s := set.foldl (fun s k => s.resumeCore vat (4 * quad + k.core % 4) k) s
  let cxs := set.flatMap fun k => k.ctxs.map fun x => 4 * (4 * quad + k.core % 4) + x.1
  let s := cxs.foldl (fun s cx => s.rejoin cx) (s.wakeHalted vat)
  let s := cxs.foldl (fun s cx => s.settleFar cx) s
  (((s.settleBars vat).settleLeases quad).settleBank quad false).settleBank quad true

/-- VAT_RESUME (11 R249, 17 R368): the wheels saved from the cores of one quad resume together on a quad, each core's on the core of
the same place in it, in the flue's order (16 R345). -/
def execVatResume (vat oldCore newCore : Nat) (s : State) : Host.Outcome State Fault Refusal :=
  match (s.vat vat).saves.find? fun k => k.core == oldCore with
  | none => .next s
  | some k =>
    if s.stopped (vatMod vat) || newCore % 4 != oldCore % 4 || !s.groupFits vat (newCore / 4) k || s.flueChoice (s.vat vat).die != some vat
      || (!thas (s.quad (newCore / 4)).dictRange vat && s.dictHeld vat) || s.reloadHeld vat (newCore / 4) then .next s
    else .next ((s.resume vat (newCore / 4) k).updDie (s.vat vat).die fun d => { d with rr := (s.vat vat).queue })

end Sys2Proof.Machine
end

