-- ==== Sys2Proof/Machine/Supervise.lean ====
section
/-! DEFINITION. What the supervisor asks of a vat: cancelling it (16 R348), making a page resident (17 R378), bindings (18
R388). -/

namespace Sys2Proof.Machine

/- Cancelling (16 R348) -/

/-- An ember of a cancelled vat in a save: all but collectives and cave updates under way are CANCELLED, once nothing keeps them open
(17 R378). -/
def State.cancelSaved (s : State) (e : Ember) : Ember :=
  let runsOn := e.began && (e.op == .coll || e.op == .cave)
  if e.st.cur.final || runsOn || e.allDone then e
  else if s.emberOpen e then e.willEnd .cancelled cCANCEL 0 e.prog
  else e.finish s.now .cancelled cCANCEL 0 e.prog

/-- One live ember of a cancelled vat: PENDING or stopped, it is CANCELLED at once; running on the press or the copy engine,
it stops at its next boundary (11 R237). -/
def State.cancelEmber (s : State) (core slot : Nat) (e : Ember) : State :=
  if e.st.cur.final then s
  else if !e.began then s.finishEmber core slot .cancelled cCANCEL 0 e.prog
  else if e.stopped then s.emberEnd e.uid .cancelled cCANCEL 0 e.prog
  else if e.op == .coll || e.op == .cave then s
  else s.updCore core fun k => k.setEmber slot { e with cancel := true, cancelAt := s.now }

/-- A vat is cancelled: nothing of it starts, its contexts are to halt, its embers are cancelled, what is saved of it
ends, its park slots free (03 R72), with the entries that the ends of its saved wheels leave in the record (10 R210, 18 R393). -/
def State.cancelVat (s : State) (vat : Nat) : State :=
  if (s.vat vat).cancelled then s
  else
    let cores := s.vatCores vat
    let s := s.updVat vat fun v =>
      let es := v.saves.flatMap fun k => k.ctxs.flatMap fun x => x.2.endEntries (4 * k.core + x.1 % 4)
      { es.foldl Vat.addEntry v with
        cancelled := true, spawns := [], halting := cores.foldl nsAdd v.halting,
        ended := v.ended + (v.saves.foldl (fun n k => n + k.ctxs.length) 0),
        saves := v.saves.map fun k => { k with
          ctxs := [], leases := [], copies := [], parks := [], embers := k.embers.map fun x => (x.1, x.2.map s.cancelSaved) } }
    let s := { s with quads := s.quads.map fun (q : Nat × Quad) => (q.1, { q.2 with parkHeld := tdel q.2.parkHeld vat }) }
    let s := cores.foldl (fun s c => (s.core c).live.foldl (fun s x =>
      match (s.core c).ember x.1 with
      | some e => if e.vat = vat then s.cancelEmber c x.1 e else s
      | none => s) s) s
    s.quads.foldl (fun s q => match q.2.preload with
      | some p => if p.1 = vat then s.discardPreload q.1 else s
      | none => s) s

/- Residency (17 R378) -/

/-- One arrival is drained: its bytes are written, counted where its unit is owed, and its sender learns. -/
def State.drainOne (s : State) (p : Parked) (loc : Nat) : State :=
  let locs := (List.range p.bytes.length).map (· + loc)
  let s := { s with dies := s.dies.map fun (d : Nat × Die) => (d.1, { d.2 with parked := d.2.parked.erase p }) }
  let s := (s.setBytes (locs.zip p.bytes)).healWhole locs
  match p.far, p.ember with
  | some id, _ =>
    let r := tget s.fars id
    if !thas s.fars id then s
    else if r.acked then { s with fars := tdel s.fars id }.updWheel r.wheel fun c => { c with farSent := c.farSent.filter (· != id) }
    else { s with fars := tset s.fars id { r with performed := true } }
  | none, some uid => (match p.unit with | some u => s.noteUnit uid u | none => s).drained uid
  | none, none => s

/-- Where an arrival goes once the page of an address is resident: none for an arrival at another page. -/
def State.drainLoc (s : State) (vat va : Nat) (p : Parked) : Option Nat :=
  if p.vat ≠ vat then none
  else match s.walk vat p.va, s.walk vat va with
  | some t, some u => if t.resident && t.leaf p.va == u.leaf va then some (t.loc + p.va % 4096) else none
  | _, _ => none
/-- The arrivals that the residency command drains, with where they go, in the order of their arrival. -/
def State.toDrain (s : State) (vat va : Nat) : List (Parked × Nat) :=
  s.dies.flatMap fun d => d.2.parked.filterMap fun p => (s.drainLoc vat va p).map fun l => (p, l)
/-- Whether the residency command waits for a stack that recalibrates (20 R424). -/
def State.residentHeld (s : State) (vat va : Nat) : Bool :=
  s.recal && (s.walkHeld vat va || s.hbmWaits ((s.toDrain vat va).flatMap fun x => (List.range x.1.bytes.length).map (x.2 + ·)))

/-- The residency command: cached translations of the page go, and where its leaf is now resident its parked writes are
performed in the order of their arrival. -/
def State.makeResident (s : State) (vat va : Nat) : State :=
  let s := s.invalidate vat (.page va)
  (s.toDrain vat va).foldl (fun s x => s.drainOne x.1 x.2) s

/- Bindings (18 R388) -/

def State.bindDomain (s : State) (die domain vat table : Nat) : State :=
  s.updDie die fun d => { d with doms := tset d.doms domain (vat, table) }
def State.unbindDomain (s : State) (die domain : Nat) : State :=
  s.updDie die fun d => { d with doms := tdel d.doms domain }

end Sys2Proof.Machine
end

