-- ==== Sys2Proof/Machine/Health.lean ====
section
/-! DEFINITION. Health and repair (20 R417 to R424, R430), the security alarm (R427, R428), firmware (R425, R426), and what the
module does about failures of its parts (11 R250, 16 R334, R343, R353). -/

namespace Sys2Proof.Machine

/- The alarm (20 R427, R428) -/

/-- The policy in force at the start of a cycle: halt until SECPOL has been written in an earlier one (20 R427, R428). -/
def Modu.policy (m : Modu) (now : Nat) : Nat :=
  if m.secpol.getLsbD 63 && m.secpolAt != some now then m.secpol.toNat % 4 else 1

/-- The module halts; the key store is erased where the policy says so. -/
def Modu.act (m : Modu) (policy now : Nat) : Modu :=
  if policy = 0 then m
  else { m with halted := true, haltedAt := if m.halted then m.haltedAt else some now, erased := m.erased || policy == 2 }
/-- Whether a module was halted in an earlier cycle: a write of SECPOL in the cycle of its alarm still takes effect (20 R428). -/
def Modu.haltedBefore (m : Modu) (now : Nat) : Bool := m.halted && m.haltedAt != some now

/-- A source raises the alarm: its bit, the count of alarms, and the policy's action. -/
def State.raiseAlarm (s : State) (md bit : Nat) : State :=
  s.updMod md fun m =>
    let n := min (m.alarm.toNat / 2 ^ 56 + 1) 255
    let bits := m.alarm.toNat % 2 ^ 56 ||| 2 ^ bit
    { m with alarm := BitVec.ofNat 64 (n * 2 ^ 56 + bits) }.act (m.policy s.now) s.now

/-- TAMPER_MESH (20 R427). -/
def execTamperMesh (md : Nat) (s : State) : Host.Outcome State Fault Refusal := .next (s.raiseAlarm md 0)
/-- VOLTAGE_GLITCH (20 R427, 21 R431). -/
def execVoltageGlitch (md : Nat) (s : State) : Host.Outcome State Fault Refusal := .next (s.raiseAlarm md 1)
/-- CLOCK_GLITCH (20 R427). -/
def execClockGlitch (md : Nat) (s : State) : Host.Outcome State Fault Refusal := .next (s.raiseAlarm md 2)

/-- A SECPOL value that the register accepts, and its one write (20 R428, Table 20.4). -/
def secpolOk (v : Word) : Bool := decide (v.toNat % 2 ^ 63 < 3)
def State.secpolWrite (s : State) (md : Nat) (v : Word) : State :=
  let m := s.modu md
  if m.secpol.getLsbD 63 || !secpolOk v then s
  else s.updMod md fun m => { m with secpol := BitVec.ofNat 64 (v.toNat % 4 + 2 ^ 63), secpolAt := some s.now }
/-- SECPOL_WRITE (20 R428): in a module halted in an earlier cycle the host port takes no write. -/
def execSecpolWrite (md : Nat) (val : Word) (s : State) : Host.Outcome State Fault Refusal :=
  .next (if (s.modu md).haltedBefore s.now then s else s.secpolWrite md val)

/- Draining (20 R422, R423) -/

/-- What stands on a list of cores: wheels, ordering places that they left, embers, molds, and collectives or cave updates under
way. -/
def State.coresBusy (s : State) (ks : List Nat) : Bool :=
  ks.any (fun k => (List.range 4).any (fun j => (s.ctx (4 * k + j)).wheel.isSome) || !(s.core k).live.isEmpty || !(s.core k).molds.isEmpty
    || !(s.core k).left.isEmpty)
  || s.colls.any (fun r => ks.contains r.core)
  || s.vats.any fun v => v.2.saves.any fun k => k.embers.any fun x =>
    x.2.any fun e => e.op == .cave && e.began && !e.st.cur.final && ks.contains (coreOf e.ctx)
/-- What stands on a quad beside its cores: hoops, byte barriers, parked panes. -/
def State.quadBusy (s : State) (quad : Nat) : Bool :=
  let q := s.quad quad
  s.coresBusy ((List.range 4).map (· + 4 * quad)) || q.hoops.any (·.2.cur.owner.isSome) || q.bbs.any (·.2.cur.owner.isSome)
  || q.parks.any (·.2.isSome)

/-- Every vat with something on a list of cores is pre-empted there. -/
def State.preemptAll (s : State) (ks : List Nat) : State :=
  (tkeys s.vats).foldl (fun s v =>
    let on := (s.vatCores v).filter ks.contains
    if on.isEmpty then s else s.askPreempt v on) s

/-- Draining of a quad begins: no placement, preloads discarded, its vats pre-empted. -/
def State.drainQuad (s : State) (quad : Nat) : State :=
  ((s.updQuad quad fun q => { q with draining := true }).discardPreload quad).preemptAll ((List.range 4).map (· + 4 * quad))
/-- Draining of a core that is to be retired; a preload on its quad is discarded (20 R422, R423). -/
def State.drainCore (s : State) (core : Nat) : State :=
  ((s.updCore core fun k => { k with draining := true }).discardPreload (core / 4)).preemptAll [core]
/-- A core is retired; with the last core of its quad the quad is isolated (20 R423, Table 20.2). -/
def State.retire_ (s : State) (core : Nat) : State :=
  let s := s.updCore core fun k => { k with retired := true, draining := false }
  if (List.range 4).all fun j => (s.core (core / 4 * 4 + j)).retired then
    s.updQuad (core / 4) fun q => { q with isolated := true, draining := false }
  else s

/-- A management command that is under way ends with a result (20 R430). -/
def State.hcmdDone (s : State) (die result : Nat) : State :=
  s.updDie die fun d => { d with hcmd := { d.hcmd with busy := false, result := result } }
/-- Whether an operation on a target is under way on a die. -/
def State.hcmdIs (s : State) (die op target : Nat) : Bool :=
  let h := (s.die die).hcmd
  h.busy && h.op == op && h.target == target
def State.hcmdEnd (s : State) (die op target result : Nat) : State := if s.hcmdIs die op target then s.hcmdDone die result else s

/-- DRAIN_ISOLATE_QUAD (20 R422): the drain begins; once nothing is left on the quad it is isolated. A command ends too where the quad
has been isolated otherwise. -/
def execDrainIsolateQuad (die quad : Nat) (s : State) : Host.Outcome State Fault Refusal :=
  let k := 32 * die + quad
  if s.stopped (die / 8) || decide (32 ≤ quad) || !(s.hcmdIs die 1 quad || (s.quad k).draining) then .next s
  else if (s.quad k).isolated then .next (s.hcmdEnd die 1 quad 0)
  else if !(s.quad k).draining then .next (s.drainQuad k)
  else if s.quadBusy k then .next (s.preemptAll ((List.range 4).map (· + 4 * k)))
  else .next ((s.updQuad k fun q => { q with isolated := true, draining := false }).hcmdEnd die 1 quad 0)

/-- RETURN_QUAD (20 R430). -/
def execReturnQuad (die quad : Nat) (s : State) : Host.Outcome State Fault Refusal :=
  if s.stopped (die / 8) || !s.hcmdIs die 2 quad then .next s
  else .next ((s.updQuad (32 * die + quad) fun q => { q with isolated := false, draining := false }).hcmdDone die 0)

/-- RETIRE_CORE (20 R423): drained as a unit of one core, then retired. -/
def execRetireCore (die core : Nat) (s : State) : Host.Outcome State Fault Refusal :=
  let k := 128 * die + core
  if s.stopped (die / 8) || decide (128 ≤ core) || !(s.hcmdIs die 3 core || (s.core k).draining) then .next s
  else if (s.core k).retired then .next (s.hcmdEnd die 3 core 0)
  else if !(s.core k).draining then .next (s.drainCore k)
  else if s.coresBusy [k] then .next (s.preemptAll [k])
  else .next ((s.retire_ k).hcmdEnd die 3 core 0)

/-- DRAIN_ISOLATE_DIE (20 R422). -/
def execDrainIsolateDie (die : Nat) (s : State) : Host.Outcome State Fault Refusal :=
  let ks := (List.range 128).map (· + 128 * die)
  let d := s.die die
  if s.stopped (die / 8) || !(s.hcmdIs die 4 0 || d.draining) then .next s
  else if d.isolated then .next (s.hcmdEnd die 4 0 0)
  else if !d.draining then
    .next (((List.range 32).foldl (fun s q => s.discardPreload (32 * die + q)) (s.updDie die fun d => { d with draining := true })).preemptAll ks)
  else if (List.range 32).any fun q => s.quadBusy (32 * die + q) then .next (s.preemptAll ks)
  else .next ((s.updDie die fun d => { d with isolated := true, draining := false }).hcmdEnd die 4 0 0)

/-- RETURN_DIE (20 R430, 21 R434): the die is in service. -/
def execReturnDie (die : Nat) (s : State) : Host.Outcome State Fault Refusal :=
  if s.stopped (die / 8) || !s.hcmdIs die 5 0 then .next s
  else .next ((s.updDie die fun d => { d with isolated := false, draining := false, stage := 5 }).hcmdDone die 0)

/- Recalibration (20 R424) -/

/-- The link between two dies of a module, as each of them keeps it. -/
def State.updLink (s : State) (a b : Nat) (f : Link → Link) : State :=
  (s.updDie a fun d => { d with links := tupd d.links (b % 8) f }).updDie b fun d => { d with links := tupd d.links (a % 8) f }
def State.link (s : State) (a b : Nat) : Link := tget (s.die a).links (b % 8)

/-- Whether a link has a spare lane free in each direction: each recalibration of it, on the command of either die, takes up one (20
R424, R430). -/
def State.laneFree (s : State) (a b : Nat) : Bool :=
  let used := (s.hcmdIs a 6 (b % 8)).toNat + (s.hcmdIs b 6 (a % 8)).toNat
  decide (used < (s.link a b).spare) && decide (used < (s.link b a).spare)
/-- A change of a link's record on one of its dies. -/
def State.updSide (s : State) (a b : Nat) (f : Link → Link) : State := s.updDie a fun d => { d with links := tupd d.links (b % 8) f }

/-- RECALIBRATE_LINK (20 R424): one lane at a time, on a spare. -/
def execRecalibrateLink (die other : Nat) (s : State) : Host.Outcome State Fault Refusal :=
  if s.stopped (die / 8) || !s.hcmdIs die 6 other then .next s
  else .next (s.updSide die other fun l => { l with recal := true })

/-- RECALIBRATE_HBM (20 R424): accesses to the stack wait. -/
def execRecalibrateHbm (die stack : Nat) (s : State) : Host.Outcome State Fault Refusal :=
  if s.stopped (die / 8) || !s.hcmdIs die 7 stack then .next s
  else .next (s.updDie die fun d => { d with hbmRecal := some stack })

/-- RECALIBRATION_DONE (20 R424). -/
def execRecalibrationDone (die : Nat) (s : State) : Host.Outcome State Fault Refusal :=
  let h := (s.die die).hcmd
  if s.stopped (die / 8) || !h.busy then .next s
  else if h.op = 6 ∧ (s.link die (die / 8 * 8 + h.target)).recal then
    .next ((s.updSide die h.target fun l => { l with recal := false }).hcmdDone die 0)
  else if h.op = 7 ∧ (s.die die).hbmRecal.isSome then
    .next ((s.updDie die fun d => { d with hbmRecal := none }).hcmdDone die 0)
  else .next s

/- Semaphores (20 R430) -/

/-- REINIT_SEMAPHORE: count 0, saturated and poison cleared. -/
def execReinitSemaphore (die sem : Nat) (s : State) : Host.Outcome State Fault Refusal :=
  if s.stopped (die / 8) || !s.hcmdIs die 8 sem then .next s else .next ((s.putSem die sem {}).hcmdDone die 0)
/-- CLEAR_SATURATED. -/
def execClearSaturated (die sem : Nat) (s : State) : Host.Outcome State Fault Refusal :=
  if s.stopped (die / 8) || !s.hcmdIs die 9 sem then .next s
  else .next ((s.putSem die sem { ((s.die die).sem sem).cur with sat := false }).hcmdDone die 0)

/- Firmware (20 R425, R426) -/

/-- LoadImage: version and security version of an image that verifies, and its body. A body length outside Table 20.3
fails it (log entry 152). -/
def State.loadImage (s : State) (die : Nat) : Option (Nat × Nat × List Byte) :=
  let d := s.die die
  let pa := d.fwsrc.toNat
  let len := d.fwlen.toNat
  match paLoc (die / 8) pa with
  | none => none
  | some loc =>
    let b (lo n : Nat) : List Byte := s.bytesAt ((List.range n).map fun i => loc + lo + i)
    let body := leNat (b 12 4)
    if len < 2584 ∨ !paRunOk pa (pa + len - 1) then none
    else if leNat (b 0 4) ≠ 0x4E415246 ∨ len ≠ 2584 + body ∨ body % 64 ≠ 0 ∨ body < 64 ∨ 2 ^ 24 < body then none
    else if BitVec.ofNat 256 (leNat (Config.shake256 (b 16 68))) ≠ Config.rootHash (die / 8) then none
    else if !Config.xmssVerify (b 16 68) (b 0 16 ++ b 2584 body) (b 84 2500) then none
    else if leNat (b 8 4) < d.fwsvn then none
    else some (leNat (b 4 4), leNat (b 8 4), b 2584 body)

/-- LOAD_FIRMWARE (20 R426): an image that verifies runs; otherwise no firmware runs and the alarm is raised. -/
def execLoadFirmware (die : Nat) (s : State) : Host.Outcome State Fault Refusal :=
  let held := s.recal && match paLoc (die / 8) (s.die die).fwsrc.toNat with
    | some l => s.hbmWaits ((List.range (s.die die).fwlen.toNat).map (· + l))
    | none => false
  if s.stopped (die / 8) || !s.hcmdIs die 0x10 0 || held then .next s
  else match s.loadImage die with
  | some (v, sv, body) => .next ((s.updDie die fun d => { d with fwRun := some (v, sv), fwBody := body }).hcmdDone die 0)
  | none => .next (((s.updDie die fun d => { d with fwRun := none, fwBody := [] }).hcmdDone die 2).raiseAlarm (die / 8) 3)

/-- RAISE_FWSVN (20 R426): the running image's security version is burned. -/
def execRaiseFwsvn (die : Nat) (s : State) : Host.Outcome State Fault Refusal :=
  if s.stopped (die / 8) || !s.hcmdIs die 0x11 0 then .next s
  else match (s.die die).fwRun with
  | some (_, sv) => .next ((s.updDie die fun d => { d with fwsvn := max d.fwsvn sv }).hcmdDone die 0)
  | none => .next (s.hcmdDone die 1)

/- Fault counters (20 R419) -/

/-- Cycles of the window of a kind: milliseconds, or microseconds for link lanes. -/
def windowCycles (kind w : Nat) : Nat := if kind = 2 then 1600 * w else 1600000 * w

/-- A health event is kept, or counted as lost beyond 1,024. -/
def Die.addEvent (d : Die) (e : HEvent) : Die :=
  if d.events.length < 1024 then { d with events := d.events ++ [e] } else { d with lost := min (d.lost + 1) (2 ^ 32 - 1) }

/-- Milliseconds since die reset. -/
def State.ms (s : State) (die : Nat) : Nat := s.cycle die / 1600000 % 2 ^ 32

/-- The unit of an array of SRAM word-lines (log entry 24): arrays 0 to 127 are the cores', 128 to 159 the quads', 160 to 254 hold
sets of the memory-side cache, 255 is what no repair of a unit removes (21 R434). -/
inductive ArrayOf where
  | core (k : Nat) | quad (k : Nat) | cacheSet (m : Nat) | fixed
  deriving DecidableEq, Repr, Inhabited
def arrayOf (die m : Nat) : ArrayOf :=
  if m < 128 then .core (128 * die + m) else if m < 160 then .quad (32 * die + (m - 128)) else if m < 255 then .cacheSet m else .fixed

/-- A spare word-line is used up, where its array has one left (20 Table 20.2). -/
def State.spareLine (s : State) (die m : Nat) : Option State :=
  let used := tget (s.die die).lineSpare m
  if used < 4 then some (s.updDie die fun d => { d with lineSpare := tset d.lineSpare m (used + 1) }) else none

/-- A word-line is spared; without a spare its core or quad is drained, or its cache set disabled. -/
def State.repairLine (s : State) (die res : Nat) : State :=
  match s.spareLine die (res / 256) with
  | some s => s
  | none => match arrayOf die (res / 256) with
    | .core k => s.drainCore k
    | .quad k => s.drainQuad k
    | .cacheSet m => s.updDie die fun d => { d with setsOff := nsAdd d.setsOff m }
    | .fixed => s

/-- The resource that a corrected error at a place counts against: its kind and number (20 R419; log entry 24); none where the place
has none. -/
def siteResource (w : UeSite) : Option (Nat × Nat) :=
  let line (m : Nat) : Option (Nat × Nat) := some (0, 256 * m + Config.siteLine w % 256)
  match w with
  | .unit loc =>
    if isSpad loc then line (spadCore loc % 128) else some (1, 8192 * (Config.hbmStack loc % 6) + Config.siteLine w % 8192)
  | .reg cx _ | .landing cx _ => line (coreOf cx % 128)
  | .emberField core _ | .emberOwner core _ | .engineQueue core _ => line (core % 128)
  | .coreUnit core => line (core % 128)
  | .acc quad _ _ | .park quad _ _ | .dict quad _ | .quadUnit quad => line (128 + quad % 32)
  | .flueEntry _ | .dieUnit _ => line 255
  | .semaphore _ _ | .recordWrite _ _ => none

/-- A lasting fault is repaired (20 Table 20.2). A lane is one of the direction towards the die that counts its retries (log entry
131). -/
def State.repair (s : State) (die kind res : Nat) : State :=
  if kind = 0 then s.repairLine die res
  else if kind = 1 then
    let st := res / 2 ^ 13
    let left := tget (s.die die).hbmSpare st
    if left = 0 then s.notify (die / 8) (.frames die (Config.rowFrames die res))
    else s.updDie die fun d => { d with hbmSpare := tset d.hbmSpare st (left - 1) }
  else if kind = 2 then
    let other := die / 8 * 8 + res / 256 % 8
    if (s.link die other).spare ≠ 0 then s.updDie die fun d => { d with links := tupd d.links (other % 8) fun l => { l with spare := l.spare - 1 } }
    else s.updLink die other fun l => if !l.half then { l with half := true } else { l with down := true }
  else s.drainCore (128 * die + res % 128)

/-- One corrected event of a resource is counted and judged: its time is kept, and those in the window that ends now are held
against the threshold (20 R419, R420). -/
def State.countEvent (s : State) (die kind res : Nat) : State :=
  let key := 2 ^ 16 * kind + res
  let (thr, w) := tget (s.die die).fclim kind
  let kept := tget (s.die die).counters key ++ [s.now]
  let lasting := decide (thr ≤ (kept.filter fun t => decide (s.now ≤ t + windowCycles kind w)).length)
  let s := s.updDie die fun d => { d with
    ce := min (d.ce + 1) (2 ^ 64 - 1), counters := tset d.counters key (if lasting then [] else kept) }
  let s := s.updDie die fun d => d.addEvent { res := res, kind := kind, lasting := lasting, ms := s.ms die }
  if lasting then s.repair die kind res else s

/-- A corrected error of a core's SRAM may be a parity error of its L1, whose line is discarded, to be filled again at a later load:
which line, if one, is free (20 Table 20.1; log entry 115). -/
def State.l1Error (s : State) (core : Nat) : State :=
  { s with free := s.free + 1 }.updCore core fun k => { k with
    l1 := k.l1.eraseIdx ((Config.freeWord s.free).toNat % (k.l1.length + 1)) }

/-- CORRECTED_ERROR (20 R417, R419). -/
def execCorrectedError (die kind res : Nat) (s : State) : Host.Outcome State Fault Refusal :=
  if s.issue.active || decide (4 ≤ kind) || decide (2 ^ 16 ≤ res) then .next s
  else
    let s := if kind = 0 ∧ res / 256 < 128 then s.l1Error (128 * die + res / 256) else s
    .next (s.countEvent die kind res)

/-- LINK_FLIT_RECEIVE (18 R380, 20 R417): a flit whose CRC fails is sent again, and the lane's retry is counted. -/
def execLinkFlitReceive (die other lane : Nat) (ok : Bool) (s : State) : Host.Outcome State Fault Refusal :=
  if s.issue.active || ok then .next s else .next (s.countEvent die 2 (other % 8 * 256 + lane % 256))

/-- PARITY_ERROR (20 R418): the bundle is issued again; a second error makes it trap. -/
def execParityError (core : Nat) (again : Bool) (s : State) : Host.Outcome State Fault Refusal :=
  if s.issue.active then .next s
  else
    let s := s.countEvent (core / 128) 3 (core % 128)
    if again then .next { s.countEvent (core / 128) 3 (core % 128) with parity := s.parity ++ [(core, true)] } else .next s

/- Uncorrectable errors (20 Table 20.1) -/

/-- The die of a place. -/
def ueDie : UeSite → Nat
  | .unit loc => if isSpad loc then spadCore loc / 128 else loc / 2 ^ 39
  | .reg cx _ => dieOf cx
  | .landing cx _ => dieOf cx
  | .acc quad _ _ => quad / 32
  | .park quad _ _ => quad / 32
  | .dict quad _ => quad / 32
  | .emberField core _ => core / 128
  | .emberOwner core _ => core / 128
  | .engineQueue core _ => core / 128
  | .flueEntry vat | .recordWrite vat _ => vat % 2 ^ 32 / 2 ^ 29 + 8 * vatMod vat
  | .semaphore die _ => die
  | .quadUnit quad => quad / 32
  | .coreUnit core => core / 128
  | .dieUnit die => die

/-- An ember whose record an error struck ends FAULTED with QUEUE_UE, at once when it is final, otherwise when its engine next
reports to the record: at its start, at a boundary of a press or copy command, at the end of a collective or cave update (11 R250; log
entry 73). -/
def State.strikeEmber (s : State) (core slot : Nat) (e : Ember) : State :=
  let e := { e with struck := true }
  s.updCore core fun k => k.setEmber slot (if e.st.cur.final then e.finish s.now .faulted cQUEUE 0 0 else e)

/-- The two copies of an ember's vat, owner or generation disagree (11 R250): its slot is fenced and the ember runs to its end with no
owner. QUEUE_UE goes to its vat's record, or, where the vat cannot be told, which is free (log entry 116), to the record of every vat
with a live ember on the core. -/
def State.fenceEmber (s : State) (core slot : Nat) (e : Ember) : State :=
  let told := Config.freeBit s.free
  let vats := if told then [e.vat] else ((s.core core).live.map fun x => x.2.vat).eraseDups
  let s := { s with free := s.free + 1 }.updCore core fun k => k.setEmber slot { e with owner := 4, fenced := true }
  vats.foldl (fun s v => let x := s.looseEntry cQUEUE 0; x.1.updVat v (·.addEntry x.2)) s

/-- The fate of an uncorrectable error (20 Table 20.1). -/
def State.strike (s : State) (w : UeSite) : State :=
  match w with
  | .unit loc => s.setBad (loc / 32)
  | .reg cx r => s.updCtx cx fun c => { c with marks := r :: c.marks.filter (· != r) }
  | .landing cx i => s.updCtx cx fun c =>
    let hit (l : LevelSt) (n : Nat) : LevelSt := { l with land := l.land.zipIdx.map fun x => if x.2 + n = i then { x.1 with bad := true } else x.1 }
    { c with l0 := hit c.l0 0, l1 := hit c.l1 c.l0.land.length }
  | .acc quad b u => s.updQuad quad fun q => q.setBank b { q.bank b with bad := nsAdd (q.bank b).bad u }
  | .park quad slot _ => s.updQuad quad fun q => { q with parks := q.parks.map fun x => if x.1 = slot then (x.1, x.2.map fun p => { p with bad := true }) else x }
  | .dict quad e => s.updQuad quad fun q => { q with dictBad := nsAdd q.dictBad e }
  | .emberField core slot => match (s.core core).ember slot with
    | some e => s.strikeEmber core slot e
    | none => s
  | .engineQueue core slot => match (s.core core).ember slot with
    | some e => if e.st.cur.final || e.began then s else s.finishEmber core slot .faulted cQUEUE 0 0
    | none => s
  | .emberOwner core slot =>
    let s := s.updCore core fun k => { k with fenced := nsAdd k.fenced slot }
    match (s.core core).ember slot with
    | some e => s.fenceEmber core slot e
    | none => s
  | .flueEntry vat =>
    let v := s.vat vat
    if !thas s.vats vat then s
    else if v.phase == .running then
      let x := s.looseEntry cQUEUE 0
      (x.1.updVat vat (·.addEntry x.2)).cancelVat vat
    else s.dropVat vat cQUEUE 0
  | .recordWrite vat unit => if thas s.vats vat then s.updVat vat fun v => { v with recBad := nsAdd v.recBad unit } else s
  | .semaphore die sem => s.putSem die sem { ((s.die die).sem sem).cur with bad := true }
  | _ => s

/-- An uncorrectable event is counted. -/
def State.countUe (s : State) (die : Nat) : State := s.updDie die fun d => { d with ue := min (d.ue + 1) (2 ^ 64 - 1) }

/-- Whether an uncorrectable error drops a vat whose record lies in a stack that recalibrates: it waits (20 R424). -/
def State.strikeHeld (s : State) : UeSite → Bool
  | .flueEntry vat => thas s.vats vat && (s.vat vat).phase != .running && s.runHeld vat (s.vat vat).desc.record 256
  | _ => false

/-- UNCORRECTABLE_ERROR (20 R417). -/
def execUncorrectableError (where_ : UeSite) (s : State) : Host.Outcome State Fault Refusal :=
  if s.issue.active || s.strikeHeld where_ then .next s else .next ((s.countUe (ueDie where_)).strike where_)

/-- PATROL_SCRUB (20 R417, R419, 16 R343): what a scrub finds is corrected, counted and judged, or takes its structure's fate. -/
def execPatrolScrub (where_ : UeSite) (bad : Bool) (s : State) : Host.Outcome State Fault Refusal :=
  if s.issue.active || (bad && s.strikeHeld where_) then .next s
  else if bad then .next ((s.countUe (ueDie where_)).strike where_)
  else match siteResource where_ with
  | some (kind, res) => .next (s.countEvent (ueDie where_) kind res)
  | none => .next s

/- Failing dies (16 R353) -/

/-- The cause codes that the machine records (17 R358, Table 17.1). -/
def producedCodes : List Nat := (List.range 13).tail ++ (List.range 9).map (· + 0x11) ++ [0x1F]

/-- What a vat had running, saved or granted on failing dies, and its spawned wheels that wait for a core there or whose
release was not performed there: an entry of source 2 for each wheel. Its cause, among those that are produced, and its address are not stated: they are free (log entry 23). -/
def State.lostEntries (s : State) (vat : Nat) (dead : Nat → Bool) : List RecEntry :=
  let mk (core idx : Nat) : RecEntry := { who := idx, core := coreId core, die := core / 128 % 8, source := 2 }
  let v := s.vat vat
  let live := (s.ctxs.filter fun x => x.2.wheel.isSome && x.2.vatKey == vat && dead (dieOf x.1)).map fun x => mk (coreOf x.1) x.2.wid.idx
  let saved := v.saves.flatMap fun k => if dead (k.core / 128) then k.ctxs.map fun x => mk k.core x.2.wid.idx else []
  let granted := v.grants.flatMap fun g => if dead g.die then
    (List.range (g.first + g.count - g.next)).map fun i => mk (128 * g.die) (g.next + i) else []
  let tied := v.spawns.filterMap fun w => match w.core with | some k => if dead (k / 128) then some (mk k w.idx) else none | none => none
  let unsent := v.spawns.filterMap fun w => if w.core.isNone && !w.released && dead w.die then some (mk (128 * w.die) w.idx) else none
  (live ++ saved ++ granted ++ tied ++ unsent).zipIdx.map fun x =>
    let (e, i) := x
    { e with
      cause := producedCodes.getD ((Config.freeWord (s.free + 2 * i)).toNat % 22) 1,
      addr := (Config.freeWord (s.free + 2 * i + 1)).toNat }

/-- A vat after some of its dies have failed: entries, a new election, what was granted there is lost. -/
def State.failVat (s : State) (vat : Nat) (ds : List Nat) : State :=
  let dead (d : Nat) : Bool := ds.contains d
  let v := s.vat vat
  let es := s.lostEntries vat dead
  let unstarted := (v.grants.filter fun g => dead g.die).foldl (fun n g => n + (g.first + g.count - g.next)) 0
  let both := dead v.leader && v.shadow.all dead
  let gone := es.map (·.who)
  let elected := s.elect vat
  { s with free := s.free + 2 * es.length }.updVat vat fun v =>
    let v : Vat := es.foldl Vat.addEntry v
    { v with
      lost := v.lost + unstarted, grants := v.grants.filter (fun g => !dead g.die),
      saves := v.saves.filter (fun k => !dead (k.core / 128)),
      halting := v.halting.filter (fun k => !dead (k / 128)), lostLeader := v.lostLeader || both,
      leader := elected.1.getD v.leader, shadow := elected.2,
      spawns := v.spawns.filter fun w => !(w.core.any fun k => dead (k / 128)) && (w.core.isSome || w.released || !dead w.die),
      broken := (gone.filterMap v.gangOf).foldl (fun b g => if thas b g then b else tset b g s.now) v.broken,
      bars := v.bars.map (fun (b : BarInst) => { b with arrived := b.arrived.filter (fun i => !gone.contains i) }) }

/-- Everything on failing dies is lost. -/
def State.clearDies (s : State) (ds : List Nat) : State :=
  let dead (d : Nat) : Bool := ds.contains d
  let lostRuns := s.colls.filter fun r => dead (r.core / 128)
  let s := { s with
    ctxs := s.ctxs.filter (fun x => !dead (dieOf x.1)),
    cores := s.cores.map (fun k => if dead (k.1 / 128) then (k.1, { (default : Core) with retired := k.2.retired }) else k),
    quads := s.quads.map (fun q => if dead (q.1 / 32) then (q.1, { (default : Quad) with isolated := q.2.isolated }) else q),
    colls := s.colls.filter (fun r => !dead (r.core / 128)),
    fars := s.fars.filter (fun r => !dead (dieOf r.2.ctx)) }
  lostRuns.foldl (fun s l => s.colls.foldl (fun s r =>
    if r.group.any fun x => x.2 == l.uid then s.loseMember ((s.collRun r.uid).getD r) l.pid else s) s) s

/-- DIE_FAILURE (16 R353). -/
def execDieFailure (dies : List Nat) (s : State) : Host.Outcome State Fault Refusal :=
  if s.issue.active then .next s
  else
    let s := dies.foldl (fun s d => s.updDie d fun x => { x with isolated := true, draining := false }) s
    let hit := (tkeys s.vats).filter fun v => (s.vatDies v).any dies.contains
    let s := hit.foldl (fun s v => s.failVat v dies) s
    .next (hit.foldl (fun s v => s.settleBars v) (s.clearDies dies))

end Sys2Proof.Machine
end

