-- ==== Sys2Proof/Machine/Manage.lean ====
section
/-! DEFINITION. The management registers of a die and its module (20 R429, R430, Table 20.4; 21 R437, Table 21.2). -/

namespace Sys2Proof.Machine

/-- A word of bits taken from a test. -/
def bitsWord (n : Nat) (p : Nat → Bool) : Nat := (List.range n).foldl (fun a i => if p i then a + 2 ^ i else a) 0
/-- Fields of w bits side by side. -/
def fieldsWord (w n : Nat) (f : Nat → Nat) : Nat := (List.range n).foldl (fun a i => a + f i % 2 ^ w * 2 ^ (w * i)) 0

/-- Register numbers that exist (20 Table 20.4, 21 Table 21.2). -/
def mgmtOk (r : Nat) : Bool :=
  decide (0x200 ≤ r ∧ r ≤ 0x204) || decide (0x208 ≤ r ∧ r ≤ 0x20B) || decide (0x210 ≤ r ∧ r ≤ 0x211) || decide (0x218 ≤ r ∧ r ≤ 0x21B)
  || decide (0x220 ≤ r ∧ r ≤ 0x222) || decide (0x230 ≤ r ∧ r ≤ 0x233) || decide (0x240 ≤ r ∧ r ≤ 0x241)
  || decide (0x300 ≤ r ∧ r ≤ 0x304) || decide (0x308 ≤ r ∧ r ≤ 0x30C) || decide (0x310 ≤ r ∧ r < 0x350)
  || decide (0x350 ≤ r ∧ r ≤ 0x351) || decide (0x358 ≤ r ∧ r ≤ 0x359) || r == 0x360

/-- HEVENT as a word. -/
def HEvent.word (e : HEvent) : Nat := e.res % 2 ^ 16 * 2 ^ 48 + e.kind % 256 * 2 ^ 40 + e.lasting.toNat * 2 ^ 32 + e.ms % 2 ^ 32

/-- In how many cycles of the last 1 ms the die was throttled (21 R432; log entry 129). -/
def Die.throttled (d : Die) (now : Nat) : Nat :=
  let lo := now - 1600000
  let spans := d.hotSpans ++ if d.hotPower || d.hotDie then [(d.hotSince, now)] else []
  spans.foldl (fun n x => n + (x.2 - max lo x.1)) 0

/-- THROTTLE as it reads (21 Table 21.2): the causes in force, and the cycles of the last 1 ms in which the die was throttled. -/
def Die.throttleWord (d : Die) (now : Nat) : Word :=
  BitVec.ofNat 64 (d.hotPower.toNat + 2 * d.hotDie.toNat + 2 ^ 32 * d.throttled now)

/-- The value of a management register. -/
def State.mgmtVal (s : State) (die r : Nat) : Word :=
  let d := s.die die
  let md := die / 8
  let m := s.modu md
  let retired (c : Nat) : Bool := (s.core (128 * die + c)).retired
  let iso (q : Nat) : Bool := (s.quad (32 * die + q)).isolated
  let count (n : Nat) (p : Nat → Bool) : Nat := ((List.range n).filter p).length
  let narrow (j : Nat) : Bool := j != die % 8 && ((tget d.links j).half || (tget d.links j).down)
  let nat (n : Nat) : Word := BitVec.ofNat 64 n
  let lim (k : Nat) : Word := let x := tget d.fclim k; nat (x.1 + x.2 * 2 ^ 16)
  if r = 0x200 then nat (d.isolated.toNat + 2 * d.draining.toNat + 4 * d.fwRun.isSome.toNat + 2 ^ 8 * (count 128 retired)
      + 2 ^ 16 * (count 32 iso) + 2 ^ 24 * (count 8 narrow))
  else if r = 0x201 then nat (bitsWord 64 retired)
  else if r = 0x202 then nat (bitsWord 64 fun c => retired (64 + c))
  else if r = 0x203 then nat (bitsWord 32 iso)
  else if r = 0x204 then nat (d.hcmd.busy.toNat * 2 ^ 63 + d.hcmd.op * 2 ^ 8 + d.hcmd.result)
  else if r < 0x20C then lim (r - 0x208)
  else if r = 0x210 then nat (((d.events.head?).map HEvent.word).getD 0)
  else if r = 0x211 then nat (d.events.length + d.lost * 2 ^ 16)
  else if r = 0x218 then nat d.ce
  else if r = 0x219 then nat d.ue
  else if r = 0x21A then nat (fieldsWord 4 8 fun j => if j = die % 8 then 0 else (s.link die (8 * md + j)).spare + (s.link (8 * md + j) die).spare)
  else if r = 0x21B then nat (fieldsWord 8 6 fun k => tget d.hbmSpare k)
  else if r < 0x223 then Config.sensor die (r - 0x220) s.now
  else if r = 0x230 then nat ((d.fwRun.map (·.1)).getD 0)
  else if r = 0x231 then nat d.fwsvn
  else if r = 0x232 then d.fwsrc
  else if r = 0x233 then d.fwlen
  else if r = 0x240 then m.secpol
  else if r = 0x241 then m.alarm
  else if r = 0x300 then nat (d.stage + 2 ^ 8 * d.trip.toNat + 2 ^ 9 * d.heldTest.toNat + 2 ^ 10 * d.heldHbm.toNat + 2 ^ 11 * (d.badStack % 8)
      + 2 ^ 16 * (match m.hostport with | some b => (die % 8 == if b then 4 else 0).toNat | none => 0))
  else if r = 0x301 then m.modcfg
  else if r = 0x302 then nat ((m.hostport == some true).toNat + 2 * m.mirrored.toNat)
  else if r = 0x303 then m.pwrcap
  else if r = 0x304 then d.throttleWord s.now
  else if r < 0x30C then nat ((Config.rootHash md).toNat / 2 ^ (64 * (r - 0x308)) % 2 ^ 64)
  else if r = 0x30C then nat 0x4E380A01
  else if r < 0x320 then tget d.qbase (r - 0x310)
  else if r < 0x330 then tget d.qcfg (r - 0x320)
  else if r < 0x340 then tget d.qhead (r - 0x330)
  else if r < 0x350 then tget d.qtail (r - 0x340)
  else if r = 0x350 then d.savebase
  else if r = 0x351 then d.savelen
  else if r = 0x358 then d.resvat
  else if r = 0x359 then 0
  else d.planecc

/-- A read of HEVENT takes the oldest event (20 Table 20.4). -/
def State.heventTake (s : State) (die : Nat) : State := s.updDie die fun d => { d with events := d.events.tail }
/-- HEVENT_READ (20 R429). -/
def execHeventRead (die : Nat) (s : State) : Host.Outcome State Fault Refusal := .next (s.heventTake die)

/-- MODCFG: its value and its one write per reset (21 Table 21.2). -/
def modcfgOk (v : Word) : Bool := decide (v.toNat % 2 ^ 63 < 512)
def State.modcfgWrite (s : State) (md : Nat) (v : Word) : State :=
  if (s.modu md).modcfg.getLsbD 63 || !modcfgOk v then s
  else s.updMod md fun m => { m with modcfg := BitVec.ofNat 64 (v.toNat % 512 + 2 ^ 63) }
/-- MODCFG_WRITE (21 R437): in a module halted in an earlier cycle the host port takes no write (20 R428). -/
def execModcfgWrite (md : Nat) (val : Word) (s : State) : Host.Outcome State Fault Refusal :=
  .next (if (s.modu md).haltedBefore s.now then s else s.modcfgWrite md val)

/-- Whether a vat of a die is saved: a live one that was enqueued there, or of which wheels of that die's cores are saved (21 R437). -/
def State.savedHere (s : State) (die : Nat) : Bool :=
  s.vats.any fun x => !x.2.saves.isEmpty && (x.2.die == die || x.2.saves.any fun k => k.core / 128 == die)

/-- The vat that RESVAT names. -/
def State.resVat (s : State) (die : Nat) : Nat := die / 8 * 2 ^ 32 + (s.die die).resvat.toNat % 2 ^ 32
/-- RESIDENCY_COMMAND (17 R378, 21 Table 21.2): a write of RESPAGE; one that names no live vat is refused. -/
def execResidencyCommand (die page : Nat) (s : State) : Host.Outcome State Fault Refusal :=
  if s.stopped (die / 8) || !thas s.vats (s.resVat die) || s.residentHeld (s.resVat die) page then .next s
  else .next (s.makeResident (s.resVat die) page)

/- HCMD (20 Table 20.5) -/

/-- Whether a command is refused. -/
def State.hcmdRefused (s : State) (die op target : Nat) : Bool :=
  let d := s.die die
  if op = 1 then decide (32 ≤ target) || (s.quad (32 * die + target)).isolated
  else if op = 2 then decide (32 ≤ target) || !(s.quad (32 * die + target)).isolated
  else if op = 3 then decide (128 ≤ target) || (s.core (128 * die + target)).retired
  else if op = 4 then target != 0 || d.isolated
  else if op = 5 then target != 0 || !d.isolated || d.fwRun.isNone || decide (d.stage < 4) || !(s.modu (die / 8)).modcfg.getLsbD 63
  else if op = 6 then decide (8 ≤ target) || target == die % 8 || !s.laneFree die (die / 8 * 8 + target)
  else if op = 7 then decide (6 ≤ target) || d.hbmRecal.isSome
  else if op = 8 then decide (1024 ≤ target) || !(tget d.waiters target).isEmpty
  else if op = 9 then decide (1024 ≤ target)
  else if op = 0x10 then target != 0 || !d.isolated
  else if op = 0x11 then target != 0 || (match d.fwRun with | some (_, sv) => decide (sv ≤ d.fwsvn) | none => true)
  else true

/-- A write of HCMD: the state after it and whether the command starts (20 R430). -/
def State.hcmdWrite (s : State) (die : Nat) (v : Word) : State × Bool :=
  let op := v.toNat % 256
  let target := v.toNat / 256
  if (s.die die).hcmd.busy then (s.updDie die fun d => { d with hcmd := { d.hcmd with result := 1 } }, false)
  else if s.hcmdRefused die op target then (s.updDie die fun d => { d with hcmd := { busy := false, op := op, target := target, result := 1 } }, false)
  else (s.updDie die fun d => { d with hcmd := { busy := true, op := op, target := target, result := 0 } }, true)

/- Writing -/

/-- A fault limit that its row of 20 Table 20.2 allows: threshold and window. -/
def fclimOk (k : Nat) (v : Word) : Bool :=
  let t := v.toNat % 2 ^ 16
  let w := v.toNat / 2 ^ 16
  decide (1 ≤ t) && decide (w < 2 ^ 32) &&
    if k = 0 then decide (t ≤ 255) && decide (1000 ≤ w) && decide (w ≤ 604800000)
    else if k = 1 then decide (t ≤ 255) && decide (1000 ≤ w) && decide (w ≤ 604800000)
    else if k = 2 then decide (100 ≤ w) && decide (w ≤ 1000000)
    else decide (t ≤ 255) && decide (1000 ≤ w) && decide (w ≤ 86400000)

/-- Whether a queue is enabled. -/
def Die.queueOn (d : Die) (q : Nat) : Bool := (tget d.qcfg q).getLsbD 8
/-- The head word of a queue as memory holds it. -/
def State.headWord (s : State) (die q : Nat) : Nat :=
  match paLoc (die / 8) (tget (s.die die).qhead q).toNat with
  | some l => s.rd l 8
  | none => 0

/-- A write of QCFG: legal, and while the queue is enabled only a clearing of enable. -/
def State.qcfgWrite (s : State) (die q : Nat) (v : Word) : Option State :=
  let d := s.die die
  let n := v.toNat
  let old := (tget d.qcfg q).toNat
  let legal := decide (4 ≤ n % 32) && decide (n % 32 ≤ 16) && n / 32 % 8 == 0 && decide (n < 512)
  if !legal || (d.queueOn q && n + 256 != old && n != old) then none
  else
    let head := s.headWord die q
    let starts := decide (256 ≤ n) && !d.queueOn q
    some (s.updDie die fun d => { d with qcfg := tset d.qcfg q v, qnext := if starts then tset d.qnext q head else d.qnext })

/-- A write of PWRCAP; the value that it ends is kept for 1 ms (21 R432). -/
def Modu.setCap (m : Modu) (now : Nat) (v : Word) : Modu :=
  { m with pwrcap := v, caps := (m.caps.filter fun x => decide (now < x.1 + 1600000)) ++ [(now, m.pwrcap)] }
/-- PWRCAP as it stood in a cycle of the last 1 ms. -/
def Modu.capAt (m : Modu) (t : Nat) : Word := ((m.caps.find? fun x => decide (t < x.1)).map (·.2)).getD m.pwrcap

/-- A management write: the state after it and whether it was done; none where it is refused without effect (20 R429,
21 R437; PLANECC and RESVAT by log entry 153). -/
def State.mgmtSet (s : State) (die r : Nat) (v : Word) : Option (State × Bool) :=
  let d := s.die die
  let md := die / 8
  let m := s.modu md
  let ok (f : Die → Die) : Option (State × Bool) := some (s.updDie die f, true)
  let mult (n : Nat) : Bool := v.toNat % n == 0
  if r = 0x204 then (if v.toNat < 2 ^ 24 then some (s.hcmdWrite die v) else none)
  else if 0x208 ≤ r ∧ r ≤ 0x20B then
    if fclimOk (r - 0x208) v then ok fun d => { d with fclim := tset d.fclim (r - 0x208) (v.toNat % 2 ^ 16, v.toNat / 2 ^ 16) } else none
  else if r = 0x232 then (if mult 64 then ok fun d => { d with fwsrc := v } else none)
  else if r = 0x233 then ok fun d => { d with fwlen := v }
  else if r = 0x240 then (if m.secpol.getLsbD 63 || !secpolOk v then none else some (s.secpolWrite md v, true))
  else if r = 0x301 then (if m.modcfg.getLsbD 63 || !modcfgOk v then none else some (s.modcfgWrite md v, true))
  else if r = 0x303 then
    if 4000000 ≤ v.toNat ∧ v.toNat ≤ 10800000 then some (s.updMod md (·.setCap s.now v), true) else none
  else if 0x310 ≤ r ∧ r < 0x320 then
    if mult 64 && !d.queueOn (r - 0x310) then ok fun d => { d with qbase := tset d.qbase (r - 0x310) v } else none
  else if 0x320 ≤ r ∧ r < 0x330 then (s.qcfgWrite die (r - 0x320) v).map fun s => (s, true)
  else if 0x330 ≤ r ∧ r < 0x340 then
    if mult 8 && !d.queueOn (r - 0x330) then ok fun d => { d with qhead := tset d.qhead (r - 0x330) v } else none
  else if 0x340 ≤ r ∧ r < 0x350 then
    if mult 8 && !d.queueOn (r - 0x340) then ok fun d => { d with qtail := tset d.qtail (r - 0x340) v } else none
  else if r = 0x350 then (if mult 4096 && !s.savedHere die then ok fun d => { d with savebase := v } else none)
  else if r = 0x351 then (if mult 4096 && !s.savedHere die then ok fun d => { d with savelen := v } else none)
  else if r = 0x358 then (if v.toNat < 2 ^ 32 then ok fun d => { d with resvat := v } else none)
  else if r = 0x359 then (if thas s.vats (s.resVat die) then some (s.makeResident (s.resVat die) v.toNat, true) else none)
  else if r = 0x360 then (if v.toNat < 2 then ok fun d => { d with planecc := v } else none)
  else none

end Sys2Proof.Machine
end

