-- ==== Sys2Proof/Machine/Perzer.lean ====
section
/-! DEFINITION. The Perzer host protocol (18 R409, R410, Table 18.10): requests executed one at a time in sequence order, their
statuses and responses. -/

namespace Sys2Proof.Machine

/-- Whether the link of the active host port is up (18 R410). -/
def Modu.hostUp (m : Modu) : Bool := match m.hostport with | some true => m.ports4 | some false => m.ports0 | none => false

/-- Whether a request is the next to execute: the active host port's link is up, nothing is half done, its sequence number is next; a
halted module answers only MGMT_READ (20 R428). A number already executed has its kept response; a later one waits. -/
def State.takes (s : State) (md sq : Nat) (read : Bool) : Bool :=
  let m := s.modu md
  !s.issue.active && m.hostUp && sq == m.nextSq && (read || !m.halted)

/-- The header of a message: type, flags, body length, sequence number, argument, status (18 R409). -/
def perzerHeader (ty flags len sq arg status : Nat) : List Byte :=
  leBytes 2 ty ++ leBytes 2 flags ++ leBytes 4 len ++ leBytes 8 sq ++ leBytes 8 arg ++ leBytes 8 status
/-- The header of a response. -/
def Resp.header (r : Resp) : List Byte := perzerHeader r.ty 0 r.body.length r.sq r.arg r.status
/-- The type and the flags of a notice (18 Table 18.10); a health notice (20 R421) has no type there. -/
def Notice.tyFlags : Notice → Option (Nat × Nat)
  | .complete _ _ _ _ lost => some (0x20, lost.toNat)
  | .refused _ _ => some (0x21, 0)
  | .staged _ _ => some (0x22, 0)
  | .farLost _ _ _ => some (0x23, 0)
  | .frames _ _ => none

/-- A response is kept, the last 1,024 of them, and the next number follows (18 R410). -/
def State.answer (s : State) (md ty status arg : Nat) (body : List Byte) : State :=
  s.updMod md fun m =>
    let l := m.resps ++ [{ sq := m.nextSq, ty := ty, status := status, arg := arg, body := body }]
    { m with resps := l.drop (l.length - 1024), nextSq := m.nextSq + 1 }

/-- A request refused or malformed: nothing else changes. -/
def State.decline (s : State) (md ty status : Nat) : State := s.answer md ty status 0 []

/-- The key of a VATID of a module. -/
def vatKeyOf (md vat : Nat) : Nat := 2 ^ 32 * md + vat
/-- A message that names a vat: malformed, no such vat, or an action. -/
def State.onVat (s : State) (md ty vat : Nat) (f : State → State × Nat) : State :=
  if 2 ^ 32 ≤ vat then s.decline md ty 1
  else if !thas s.vats (vatKeyOf md vat) then s.decline md ty 2
  else let x := f s; x.1.answer md ty x.2 0 []

/-- A die that the host may ask for work: in service (20 R422, 21 R434). -/
def State.dieServes (s : State) (die : Nat) : Bool := !(s.die die).isolated && (s.die die).stage == 5

/-- The producer's steps on a ring (16 R332): the next index, and the state once the entry is written; none while the ring
is full. -/
def State.produce (s : State) (die q pa : Nat) : Option (Option State) :=
  let d := s.die die
  let md := die / 8
  match paLoc md (tget d.qtail q).toNat, paLoc md (tget d.qhead q).toNat with
  | some t, some h =>
    let i := s.rd t 8
    match s.ringLocs die q i with
    | none => none
    | some (a, _) =>
      if 2 ^ ((tget d.qcfg q).toNat % 32) ≤ i - s.rd h 8 then some none
      else
        let put (loc n v : Nat) (s : State) : State := s.setBytes ((leBytes n v).zipIdx.map fun (x : Byte × Nat) => (loc + x.2, x.1))
        some (some (put (a + 8) 4 i (put a 8 pa (put t 8 (i + 1) s))))
  | _, _ => none

/-- Whether a ring's words, or the entry that its tail names, lie in a stack that recalibrates (20 R424). -/
def State.ringHeld (s : State) (die q : Nat) : Bool :=
  let d := s.die die
  let word (a : Word) : List Nat := match paLoc (die / 8) a.toNat with | some l => (List.range 8).map (· + l) | none => []
  let entry : List Nat := match (paLoc (die / 8) (tget d.qtail q).toNat).bind fun t => s.ringLocs die q (s.rd t 8) with
    | some (a, _) => (List.range 16).map (· + a)
    | none => []
  s.recal && s.hbmWaits (word (tget d.qtail q) ++ word (tget d.qhead q) ++ entry)

/-- Whether a management write reads or writes memory in a stack that recalibrates (20 R424): the residency command, and the head word that
the enabling of a queue reads. -/
def State.mgmtHeld (s : State) (die reg : Nat) (val : Word) : Bool :=
  s.recal && ((reg == 0x359 && s.residentHeld (s.resVat die) val.toNat) ||
    (decide (0x320 ≤ reg) && decide (reg < 0x330) && s.ringHeld die (reg - 0x320)))

/-- SUBMIT (18 Table 18.10, 16 R332). A full ring holds the request back. -/
def execSubmit (md sq die queue pa : Nat) (s : State) : Host.Outcome State Fault Refusal :=
  let d := 8 * md + die
  if !s.takes md sq false then .next s
  else if 7 < die ∨ 15 < queue ∨ 2 ^ 64 ≤ pa then .next (s.decline md 1 1)
  else if !s.dieServes d || (paLoc md pa).isNone || !(s.die d).queueOn queue then .next (s.decline md 1 3)
  else if s.ringHeld d queue then .next s
  else match s.produce d queue pa with
  | none => .next (s.decline md 1 3)
  | some none => .next s
  | some (some s) => .next (s.answer md 1 0 0 [])

/-- CANCEL (16 R348). -/
def execCancel (md sq vat : Nat) (s : State) : Host.Outcome State Fault Refusal :=
  if !s.takes md sq false then .next s
  else .next (s.onVat md 2 vat fun s => (s.cancelVat (vatKeyOf md vat), 0))

/-- PREEMPT (17 R364): cores numbered 128 * die + COREID within the module; no core named means all of the vat's. -/
def execPreempt (md sq vat : Nat) (cores : List Nat) (s : State) : Host.Outcome State Fault Refusal :=
  if !s.takes md sq false then .next s
  else if cores.any fun c => decide (1024 ≤ c) then .next (s.decline md 3 1)
  else .next (s.onVat md 3 vat fun s =>
    let v := vatKeyOf md vat
    if (s.vat v).cancelled then (s, 3)
    else (s.askPreempt v (if cores.isEmpty then s.vatCores v else cores.map (· + 1024 * md)), 0))

/-- A vat is marked for rerun: it is the vat that will occupy its quads next, so the preload of any other vat there is discarded
(16 R349, R350). -/
def State.markRerun (s : State) (vat : Nat) : State :=
  s.quads.foldl (fun s q => match q.2.preload with
    | some (b, _, a) => if a = vat ∧ b ≠ vat then s.discardPreload q.1 else s
    | none => s) (s.updVat vat fun v => { v with rerun := true })

/-- RERUN (16 R349): a running vat is marked. -/
def execRerun (md sq vat : Nat) (s : State) : Host.Outcome State Fault Refusal :=
  if !s.takes md sq false then .next s
  else .next (s.onVat md 4 vat fun s =>
    let v := s.vat (vatKeyOf md vat)
    if v.phase == .running && !v.cancelled then (s.markRerun (vatKeyOf md vat), 0) else (s, 3))

/-- RESIDENT (17 R378): page is an address in the page. -/
def execResident (md sq vat page : Nat) (s : State) : Host.Outcome State Fault Refusal :=
  if !s.takes md sq false then .next s
  else if 2 ^ 64 ≤ page then .next (s.decline md 5 1)
  else if s.residentHeld (vatKeyOf md vat) page then .next s
  else .next (s.onVat md 5 vat fun s => (s.makeResident (vatKeyOf md vat) page, 0))

/-- BIND (18 R388). -/
def execBind (md sq die domain vat table : Nat) (s : State) : Host.Outcome State Fault Refusal :=
  let d := 8 * md + die
  if !s.takes md sq false then .next s
  else if 7 < die ∨ 2 ^ 32 ≤ domain ∨ 2 ^ 64 ≤ table then .next (s.decline md 6 1)
  else .next (s.onVat md 6 vat fun s =>
    if !s.dieServes d || thas (s.die d).doms domain || decide (64 ≤ (s.die d).doms.length) then (s, 3)
    else (s.bindDomain d domain (vatKeyOf md vat) table, 0))

/-- UNBIND (18 R388). -/
def execUnbind (md sq die domain : Nat) (s : State) : Host.Outcome State Fault Refusal :=
  let d := 8 * md + die
  if !s.takes md sq false then .next s
  else if 7 < die ∨ 2 ^ 32 ≤ domain then .next (s.decline md 7 1)
  else if !s.dieServes d || !thas (s.die d).doms domain then .next (s.decline md 7 3)
  else .next ((s.unbindDomain d domain).answer md 7 0 0 [])

/-- The location of a run of physical bytes that the host may reach: inside one die's HBM4E, the die at stage 4 or later. -/
def State.dmaLoc (s : State) (md pa n : Nat) : Option Nat :=
  match paLoc md pa with
  | some l => if paRunOk pa (pa + n - 1) && decide (4 ≤ (s.die (l / 2 ^ 39)).stage) then some l else none
  | none => none

/-- Whether a location lies in the save area of its die while a vat of that die is saved. -/
def State.inSaveArea (s : State) (loc : Nat) : Bool :=
  let die := loc / 2 ^ 39
  match paLoc (die / 8) (s.die die).savebase.toNat with
  | some b => decide (b ≤ loc) && decide (loc < b + (s.die die).savelen.toNat) && s.savedHere die
  | none => false
/-- A byte as the host reads it: in a save area it is the save's, whose layout is not stated: it is free (17 R366; log entry 67). -/
def State.hostByte (s : State) (loc : Nat) : Byte :=
  if s.inSaveArea loc then Config.freeByte (2 ^ 64 + s.now) loc else s.byte loc

/-- DMA_WRITE (18 R409). -/
def execDmaWrite (md sq pa : Nat) (bytes : List Byte) (s : State) : Host.Outcome State Fault Refusal :=
  if !s.takes md sq false then .next s
  else if bytes.isEmpty ∨ 2 ^ 20 < bytes.length ∨ 2 ^ 64 ≤ pa then .next (s.decline md 0x10 1)
  else match s.dmaLoc md pa bytes.length with
  | none => .next (s.decline md 0x10 3)
  | some l =>
    let locs := (List.range bytes.length).map (· + l)
    if s.hbmWaits locs then .next s
    else .next (((s.setBytes (locs.zip bytes)).healWhole locs).answer md 0x10 0 0 [])

/-- DMA_READ (18 R409): status 4 and the first marked unit's address where a byte is poisoned. -/
def execDmaRead (md sq pa len : Nat) (s : State) : Host.Outcome State Fault Refusal :=
  if !s.takes md sq false then .next s
  else if len = 0 ∨ 2 ^ 20 < len ∨ 2 ^ 64 ≤ pa then .next (s.decline md 0x11 1)
  else match s.dmaLoc md pa len with
  | none => .next (s.decline md 0x11 3)
  | some l =>
    let locs := (List.range len).map (· + l)
    if s.hbmWaits locs then .next s
    else match (List.range len).find? fun i => s.isBad (l + i) with
    | some i => .next (s.answer md 0x11 4 ((pa + i) / 32 * 32) (locs.map s.hostByte))
    | none => .next (s.answer md 0x11 0 0 (locs.map s.hostByte))

/-- MGMT_READ (18 R409, 20 R429). -/
def execMgmtRead (md sq die reg : Nat) (s : State) : Host.Outcome State Fault Refusal :=
  let d := 8 * md + die
  if !s.takes md sq true then .next s
  else if 7 < die ∨ !mgmtOk reg then .next (s.decline md 0x18 1)
  else
    let v := s.mgmtVal d reg
    let s := if reg = 0x210 then s.heventTake d else s
    .next (s.answer md 0x18 0 0 (leBytes 8 v.toNat))

/-- MGMT_WRITE (18 R409, 20 R429, R430, 21 R437). One of SECPOL in the cycle of the alarm that halts the module still takes effect (20
R428). -/
def execMgmtWrite (md sq die reg : Nat) (val : Word) (s : State) : Host.Outcome State Fault Refusal :=
  if !s.takes md sq (reg == 0x240 && !(s.modu md).haltedBefore s.now) || s.mgmtHeld (8 * md + die) reg val then .next s
  else if 7 < die ∨ !mgmtOk reg then .next (s.decline md 0x19 1)
  else match s.mgmtSet (8 * md + die) reg val with
  | none => .next (s.decline md 0x19 3)
  | some (s, done) => .next (s.answer md 0x19 (if done then 0 else 3) 0 [])

/-- MALFORMED_MESSAGE (18 R409): a message of an unknown type, or whose body length disagrees with its type. -/
def execMalformedMessage (md sq ty : Nat) (s : State) : Host.Outcome State Fault Refusal :=
  if !s.takes md sq false then .next s else .next (s.decline md ty 1)

/-- HOST_PORT_FAILOVER (18 R410): the active port has been down for 1 ms, or its die is isolated while the standby's is not (log entry
81): the standby port becomes active with the mirrored state. -/
def execHostPortFailover (md : Nat) (s : State) : Host.Outcome State Fault Refusal :=
  let m := s.modu md
  match m.hostport with
  | none => .next s
  | some p =>
    let die (b : Bool) : Nat := 8 * md + if b then 4 else 0
    let down := match m.downAt with | some t => decide (t + 1600000 ≤ s.now) | none => false
    let cut := (s.die (die p)).isolated && !(s.die (die !p)).isolated
    let up := if p then m.ports0 else m.ports4
    if s.issue.active || !(down || cut) then .next s
    else .next (s.updMod md fun m => { m with
      hostport := some !p, downAt := if up then none else some s.now, mirrored := m.hostUp })

end Sys2Proof.Machine
end

