-- ==== Sys2Proof/Machine/Bringup.lean ====
section
/-! DEFINITION. Module reset, the stages of bring-up, host-port selection, heat, plane ports (21 R432 to R436, 18 R382, R383). -/

namespace Sys2Proof.Machine

/-- What module reset keeps of a die: the fused security version and the repair fuses, which hold word-line spares, row remaps and lane
spares (21 R433); which sets and lanes are out of use is not among them. -/
def Die.afterReset (d : Die) : Die :=
  { fwsvn := d.fwsvn, lineSpare := d.lineSpare, hbmSpare := d.hbmSpare, links := d.links.map fun x => (x.1, { spare := x.2.spare }) }

/-- Whether a location lies in a module. -/
def locMod (loc : Nat) : Nat := if isSpad loc then spadCore loc / 1024 else loc / 2 ^ 39 / 8

/-- Everything of a module but fuses and the key store is cleared. -/
def State.resetMod (s : State) (md : Nat) : State :=
  let lostRuns := s.colls.filter fun r => r.core / 1024 == md
  let coreReset (x : Nat × Core) : Nat × Core :=
    if x.1 / 1024 = md then (x.1, { (default : Core) with retired := x.2.retired }) else x
  let dieReset (x : Nat × Die) : Nat × Die := if x.1 / 8 = md then (x.1, x.2.afterReset) else x
  let s := { s with
    mem := s.mem.filter (fun c => locMod c.1 != md),
    poison := s.poison.filter (fun u => locMod (32 * u) != md),
    ctxs := s.ctxs.filter (fun x => modOf x.1 != md),
    cores := s.cores.map coreReset,
    quads := s.quads.filter (fun x => x.1 / 256 != md),
    dies := s.dies.map dieReset,
    vats := s.vats.filter (fun x => vatMod x.1 != md),
    fars := s.fars.filter (fun x => modOf x.2.ctx != md),
    colls := s.colls.filter (fun r => r.core / 1024 != md),
    parity := s.parity.filter (fun x => x.1 / 1024 != md) }
  let s := s.updMod md fun m => { (default : Modu) with erased := m.erased, resetAt := s.now }
  lostRuns.foldl (fun s l => s.colls.foldl (fun s r =>
    if r.group.any fun x => x.2 == l.uid then s.loseMember ((s.collRun r.uid).getD r) l.pid else s) s) s

/-- MODULE_RESET (21 R433). -/
def execModuleReset (md : Nat) (s : State) : Host.Outcome State Fault Refusal :=
  if s.issue.active then .next s else .next (s.resetMod md)

/-- What the SRAM self-test does about a fault (21 R434): a spare word-line, or without one the core retired, the quad isolated, the
cache set disabled; none where no spare is left for a structure that no retirement or isolation of a unit removes (the array 255 of log
entry 24). A core's or a quad's own logic has no spares. -/
def State.selfTest (s : State) (die : Nat) (fault : UeSite) : Option State :=
  match fault with
  | .recordWrite _ _ => none
  | .coreUnit core => some (s.retire_ core)
  | .quadUnit quad => some (s.updQuad quad fun q => { q with isolated := true })
  | _ =>
    let m := match siteResource fault with
      | some (0, res) => res / 256
      | none => 255
      | _ => 160 + Config.siteLine fault % 95
    match s.spareLine die m with
    | some s => some s
    | none => match arrayOf die m with
      | .core k => some (s.retire_ k)
      | .quad k => some (s.updQuad k fun q => { q with isolated := true })
      | .cacheSet m => some (s.updDie die fun d => { d with setsOff := nsAdd d.setsOff m })
      | .fixed => none

/-- The self-test deals with the faults that it found, one after another; whether each was covered. -/
def State.selfTests (s : State) (die : Nat) (faults : List UeSite) : State × Bool :=
  faults.foldl (fun x f => match x.1.selfTest die f with
    | some s => (s, x.2)
    | none => (x.1, false)) (s, true)

/-- SELF_TEST_DONE (21 R434): from stage 1 the fuses are found valid, or the die stays there; from stage 2 the self-test ends with the
faults that it found on the die, and one that no repair or retirement covers holds the die. -/
def execSelfTestDone (die : Nat) (faults : List UeSite) (s : State) : Host.Outcome State Fault Refusal :=
  let d := s.die die
  if s.issue.active || d.heldFuse || d.heldTest || (s.modu (die / 8)).halted then .next s
  else if d.stage = 1 then .next (s.updDie die fun d => if faults.isEmpty then { d with stage := 2 } else { d with heldFuse := true })
  else if d.stage ≠ 2 then .next s
  else
    let x := s.selfTests die (faults.filter fun f => ueDie f == die)
    .next (x.1.updDie die fun d => if x.2 then { d with stage := 3 } else { d with heldTest := true })

/-- HBM_TRAINING_DONE (21 R434): all six stacks have trained within 80 ms of reset, or the die is held with the number of the
first that has not; the number is free where only the time is over (log entry 23). -/
def execHbmTrainingDone (die : Nat) (failed : Option (Fin 6)) (s : State) : Host.Outcome State Fault Refusal :=
  let d := s.die die
  if s.issue.active || d.stage != 3 || d.heldHbm || (s.modu (die / 8)).halted then .next s
  else match failed with
  | some k => .next (s.updDie die fun d => { d with heldHbm := true, badStack := k.val })
  | none =>
    if 128000000 < s.cycle die then
      .next ({ s with free := s.free + 1 }.updDie die fun d => { d with heldHbm := true, badStack := (Config.freeWord s.free).toNat % 6 })
    else .next (s.updDie die fun d => { d with stage := 4 })

/-- HOST_PORT_SELECT (21 R436, 18 R410): the links of the two host ports are up or down now. Until one is active: die 0's within
160,000,000 cycles (100 ms) of reset; from then on the first that is up. Afterwards the time since when the active port is down is kept. -/
def execHostPortSelect (md : Nat) (up0 up4 : Bool) (s : State) : Host.Outcome State Fault Refusal :=
  let m := s.modu md
  let t := s.now - m.resetAt
  let choice : Option Bool :=
    if t ≤ 160000000 ∧ up0 = true then some false
    else if t < 160000000 then none
    else if m.ports4 && !m.ports0 && up4 then some true
    else if up0 then some false
    else if up4 then some true
    else none
  let port := m.hostport.or choice
  let active := match port with | some true => up4 | some false => up0 | none => false
  let standby := match port with | some true => up0 | some false => up4 | none => false
  let m' : Modu := { m with
    hostport := port, ports0 := up0, ports4 := up4, mirrored := standby,
    downAt := if port.isNone || active then none else some (m.downAt.getD s.now) }
  if s.issue.active || m' == m then .next s else .next (s.setMod md m')

/-- Whether a die's hottest sensor has reached a temperature in °C at a cycle (20 Table 20.4, DIETEMP). -/
def dieHot (die now limit : Nat) : Bool := decide ((16 * limit : Int) ≤ (Config.sensor die 1 now).toInt)
/-- Whether a stack of HBM4E has reached 100 °C at a cycle (HBMTEMP). -/
def stackHot (die now : Nat) : Bool := (List.range 6).any fun k => decide (100 ≤ (Config.sensor die 2 now).toNat / 2 ^ (8 * k) % 256)
/-- The 1 ms mean of a module's power at a cycle: that of its dies (DIEPWR), of VHBM and of VIO (21 R431; log entry 10). -/
def modulePower (md now : Nat) : Nat :=
  (List.range 8).foldl (fun n d => n + (Config.sensor (8 * md + d) 0 now).toNat) 0
    + (Config.sensor (8 * md) 3 now).toNat + (Config.sensor (8 * md) 4 now).toNat
/-- Whether it exceeds PWRCAP in a cycle, and whether it is not below it. -/
def State.overPower (s : State) (md now : Nat) : Bool := decide (((s.modu md).capAt now).toNat < modulePower md now)
def State.atPower (s : State) (md now : Nat) : Bool := decide (((s.modu md).capAt now).toNat ≤ modulePower md now)
/-- Whether a cause of throttling is in force: it starts now, or it was in force and has not been below its limit for 1 ms (21 R432). -/
def causeOn (now : Nat) (was : Bool) (starts stays : Nat → Bool) : Bool :=
  starts now || (was && (List.range (min (now + 1) 1600000)).any fun i => stays (now - i))

/-- THERMAL_TRIP (21 R432): when a die has reached 115 °C or a stack of it 100 °C, the module halts as under policy 01b; BOOTSTAT records
the trip. -/
def execThermalTrip (die : Nat) (s : State) : Host.Outcome State Fault Refusal :=
  if s.issue.active then .next s
  else if dieHot die s.now 115 || stackHot die s.now then
    .next ((s.updDie die fun d => { d with trip := true }).updMod (die / 8) (·.act 1 s.now))
  else .next s

/-- The causes of throttling from a cycle on: a span begins with the first and ends with the last. -/
def Die.throttle (d : Die) (now : Nat) (power thermal : Bool) : Die :=
  let was := d.hotPower || d.hotDie
  let on := power || thermal
  { d with hotPower := power, hotDie := thermal, hotSince := if was || !on then d.hotSince else now,
           hotSpans := if was && !on then d.hotSpans ++ [(d.hotSince, now)] else d.hotSpans }

/-- The causes in force on a die: power over PWRCAP, and 105 °C (21 R432). -/
def State.powerOn (s : State) (die : Nat) : Bool := causeOn s.now (s.die die).hotPower (s.overPower (die / 8)) (s.atPower (die / 8))
def State.thermalOn (s : State) (die : Nat) : Bool := causeOn s.now (s.die die).hotDie (dieHot die · 105) (dieHot die · 105)

/-- THROTTLE (21 R432): throttling begins or ends with its causes; an event that names other causes than those in force, or another
count of throttled cycles than that of the last 1 ms, changes nothing. -/
def execThrottle (die : Nat) (power thermal : Bool) (cycles : Nat) (s : State) : Host.Outcome State Fault Refusal :=
  let d := s.die die
  let d' := d.throttle s.now power thermal
  if s.issue.active || d' == d then .next s
  else if power == s.powerOn die && thermal == s.thermalOn die && cycles == d.throttled s.now then .next (s.setDie die d')
  else .next s

/-- PLANE_LINK_BRINGUP (18 R382, R383): a port comes up unless its peer requires an option that is not implemented; PLANECC
takes effect. -/
def execPlaneLinkBringup (die port : Nat) (ok : Bool) (s : State) : Host.Outcome State Fault Refusal :=
  if decide (2 ≤ port) || !ok || (s.modu (die / 8)).halted then .next s
  else .next (s.updDie die fun d => { d with portUp := tset d.portUp port true, ccInUse := d.planecc })

/-- PLANE_PORT_DOWN (18 R382). -/
def execPlanePortDown (die port : Nat) (s : State) : Host.Outcome State Fault Refusal :=
  .next (s.updDie die fun d => { d with portUp := tset d.portUp port false })

end Sys2Proof.Machine
end

