-- ==== Sys2Proof/Machine/Dispatch.lean ====
section
/-! DEFINITION. The dispatch: one arm a constructor of the instruction type, each one call of a meaning. -/

namespace Sys2Proof.Machine

def exec (i : Instr) (s : State) : Host.Outcome State Fault Refusal :=
  match i with
  | .vadd h ty d a b => Sys2Proof.Machine.execVadd h ty d a b s
  | .vsub h ty d a b => Sys2Proof.Machine.execVsub h ty d a b s
  | .vmul h ty d a b => Sys2Proof.Machine.execVmul h ty d a b s
  | .vfma h ty d a b => Sys2Proof.Machine.execVfma h ty d a b s
  | .vadds h ty d a b => Sys2Proof.Machine.execVadds h ty d a b s
  | .vsubs h ty d a b => Sys2Proof.Machine.execVsubs h ty d a b s
  | .vmin h ty d a b => Sys2Proof.Machine.execVmin h ty d a b s
  | .vmax h ty d a b => Sys2Proof.Machine.execVmax h ty d a b s
  | .vabs h ty d a => Sys2Proof.Machine.execVabs h ty d a s
  | .vcmpeq h ty d a b => Sys2Proof.Machine.execVcmpeq h ty d a b s
  | .vcmplt h ty d a b => Sys2Proof.Machine.execVcmplt h ty d a b s
  | .vcmple h ty d a b => Sys2Proof.Machine.execVcmple h ty d a b s
  | .kand v1 d a b => Sys2Proof.Machine.execKand v1 d a b s
  | .kor v1 d a b => Sys2Proof.Machine.execKor v1 d a b s
  | .kxor v1 d a b => Sys2Proof.Machine.execKxor v1 d a b s
  | .kandn v1 d a b => Sys2Proof.Machine.execKandn v1 d a b s
  | .vshl h ty d a b => Sys2Proof.Machine.execVshl h ty d a b s
  | .vshr h ty d a b => Sys2Proof.Machine.execVshr h ty d a b s
  | .vsar h ty d a b => Sys2Proof.Machine.execVsar h ty d a b s
  | .vand h ty d a b => Sys2Proof.Machine.execVand h ty d a b s
  | .vor h ty d a b => Sys2Proof.Machine.execVor h ty d a b s
  | .vxor h ty d a b => Sys2Proof.Machine.execVxor h ty d a b s
  | .vmov h ty d a => Sys2Proof.Machine.execVmov h ty d a s
  | .vbfly h ty d a m => Sys2Proof.Machine.execVbfly h ty d a m s
  | .vrot h ty d a m => Sys2Proof.Machine.execVrot h ty d a m s
  | .vbcast h ty d a m => Sys2Proof.Machine.execVbcast h ty d a m s
  | .vperm h d a b => Sys2Proof.Machine.execVperm h d a b s
  | .vredsum h ty d a => Sys2Proof.Machine.execVredsum h ty d a s
  | .vredmax h ty d a => Sys2Proof.Machine.execVredmax h ty d a s
  | .vredmin h ty d a => Sys2Proof.Machine.execVredmin h ty d a s
  | .vredmask h d a b => Sys2Proof.Machine.execVredmask h d a b s
  | .vcvt h d a c => Sys2Proof.Machine.execVcvt h d a c s
  | .vmxq h d a c => Sys2Proof.Machine.execVmxq h d a c s
  | .vmxdq h d a c => Sys2Proof.Machine.execVmxdq h d a c s
  | .vrand h d a b => Sys2Proof.Machine.execVrand h d a b s
  | .panePark v1 pane tag => Sys2Proof.Machine.execPanePark v1 pane tag s
  | .paneUnpark v1 pane tag => Sys2Proof.Machine.execPaneUnpark v1 pane tag s
  | .vexp2 h ty d a => Sys2Proof.Machine.execVexp2 h ty d a s
  | .vlog2 h ty d a => Sys2Proof.Machine.execVlog2 h ty d a s
  | .vrcp h ty d a => Sys2Proof.Machine.execVrcp h ty d a s
  | .vrsqrt h ty d a => Sys2Proof.Machine.execVrsqrt h ty d a s
  | .vsqrt h ty d a => Sys2Proof.Machine.execVsqrt h ty d a s
  | .vtanh h ty d a => Sys2Proof.Machine.execVtanh h ty d a s
  | .vsigmoid h ty d a => Sys2Proof.Machine.execVsigmoid h ty d a s
  | .vsin2pi h ty d a => Sys2Proof.Machine.execVsin2pi h ty d a s
  | .vcos2pi h ty d a => Sys2Proof.Machine.execVcos2pi h ty d a s
  | .add p d a b => Sys2Proof.Machine.execAdd p d a b s
  | .sub p d a b => Sys2Proof.Machine.execSub p d a b s
  | .and p d a b => Sys2Proof.Machine.execAnd p d a b s
  | .or p d a b => Sys2Proof.Machine.execOr p d a b s
  | .xor p d a b => Sys2Proof.Machine.execXor p d a b s
  | .andn p d a b => Sys2Proof.Machine.execAndn p d a b s
  | .shl p d a b => Sys2Proof.Machine.execShl p d a b s
  | .shr p d a b => Sys2Proof.Machine.execShr p d a b s
  | .sar p d a b => Sys2Proof.Machine.execSar p d a b s
  | .min p d a b => Sys2Proof.Machine.execMin p d a b s
  | .max p d a b => Sys2Proof.Machine.execMax p d a b s
  | .lea p d a b sh => Sys2Proof.Machine.execLea p d a b sh s
  | .sel p d a b q => Sys2Proof.Machine.execSel p d a b q s
  | .mul p d a b => Sys2Proof.Machine.execMul p d a b s
  | .mulh p d a b => Sys2Proof.Machine.execMulh p d a b s
  | .clz p d a => Sys2Proof.Machine.execClz p d a s
  | .popc p d a => Sys2Proof.Machine.execPopc p d a s
  | .addi p d a imm => Sys2Proof.Machine.execAddi p d a imm s
  | .andi p d a imm => Sys2Proof.Machine.execAndi p d a imm s
  | .ori p d a imm => Sys2Proof.Machine.execOri p d a imm s
  | .xori p d a imm => Sys2Proof.Machine.execXori p d a imm s
  | .shli p d a n => Sys2Proof.Machine.execShli p d a n s
  | .shri p d a n => Sys2Proof.Machine.execShri p d a n s
  | .sari p d a n => Sys2Proof.Machine.execSari p d a n s
  | .li p d imm => Sys2Proof.Machine.execLi p d imm s
  | .lcat p d a imm => Sys2Proof.Machine.execLcat p d a imm s
  | .cmp p c d a b => Sys2Proof.Machine.execCmp p c d a b s
  | .cmpiEq p d a imm => Sys2Proof.Machine.execCmpiEq p d a imm s
  | .cmpiNe p d a imm => Sys2Proof.Machine.execCmpiNe p d a imm s
  | .cmpiLt p d a imm => Sys2Proof.Machine.execCmpiLt p d a imm s
  | .cmpiGe p d a imm => Sys2Proof.Machine.execCmpiGe p d a imm s
  | .cmpiLtu p d a imm => Sys2Proof.Machine.execCmpiLtu p d a imm s
  | .cmpiGeu p d a imm => Sys2Proof.Machine.execCmpiGeu p d a imm s
  | .pand p d a b => Sys2Proof.Machine.execPand p d a b s
  | .por p d a b => Sys2Proof.Machine.execPor p d a b s
  | .pxor p d a b => Sys2Proof.Machine.execPxor p d a b s
  | .bfx p d a pos len1 => Sys2Proof.Machine.execBfx p d a pos len1 s
  | .bfxu p d a pos len1 => Sys2Proof.Machine.execBfxu p d a pos len1 s
  | .bfi p d a b pos len1 => Sys2Proof.Machine.execBfi p d a b pos len1 s
  | .kput p d a => Sys2Proof.Machine.execKput p d a s
  | .kget p d a => Sys2Proof.Machine.execKget p d a s
  | .oget p e d a b => Sys2Proof.Machine.execOget p e d a b s
  | .oput p e d a b => Sys2Proof.Machine.execOput p e d a b s
  | .br p off => Sys2Proof.Machine.execBr p off s
  | .call p d off => Sys2Proof.Machine.execCall p d off s
  | .jmp p a => Sys2Proof.Machine.execJmp p a s
  | .callr p d a => Sys2Proof.Machine.execCallr p d a s
  | .loop p a off => Sys2Proof.Machine.execLoop p a off s
  | .loopi p n off => Sys2Proof.Machine.execLoopi p n off s
  | .waitc p t0 t1 t2 t3 => Sys2Proof.Machine.execWaitc p t0 t1 t2 t3 s
  | .csrr p n d => Sys2Proof.Machine.execCsrr p n d s
  | .csrw p n a => Sys2Proof.Machine.execCsrw p n a s
  | .csrs p n a d => Sys2Proof.Machine.execCsrs p n a d s
  | .csrc p n a d => Sys2Proof.Machine.execCsrc p n a d s
  | .bar p sc => Sys2Proof.Machine.execBar p sc s
  | .brk p imm => Sys2Proof.Machine.execBrk p imm s
  | .wheelEnd p => Sys2Proof.Machine.execWheelEnd p s
  | .wheelSpawn p a => Sys2Proof.Machine.execWheelSpawn p a s
  | .wheelSpawnCore p a => Sys2Proof.Machine.execWheelSpawnCore p a s
  | .semSig p a n => Sys2Proof.Machine.execSemSig p a n s
  | .semWait p a n => Sys2Proof.Machine.execSemWait p a n s
  | .semTest p d a => Sys2Proof.Machine.execSemTest p d a s
  | .tret p => Sys2Proof.Machine.execTret p s
  | .xlatInvRange p ni => Sys2Proof.Machine.execXlatInvRange p ni s
  | .xlatInvPage p a => Sys2Proof.Machine.execXlatInvPage p a s
  | .xlatInvVat p => Sys2Proof.Machine.execXlatInvVat p s
  | .ssave p a => Sys2Proof.Machine.execSsave p a s
  | .srest p a => Sys2Proof.Machine.execSrest p a s
  | .ldb p d a off => Sys2Proof.Machine.execLdb p d a off s
  | .ldbu p d a off => Sys2Proof.Machine.execLdbu p d a off s
  | .ldh p d a off => Sys2Proof.Machine.execLdh p d a off s
  | .ldhu p d a off => Sys2Proof.Machine.execLdhu p d a off s
  | .ldw p d a off => Sys2Proof.Machine.execLdw p d a off s
  | .ldwu p d a off => Sys2Proof.Machine.execLdwu p d a off s
  | .ldd p w8 d a off => Sys2Proof.Machine.execLdd p w8 d a off s
  | .stb p d a off => Sys2Proof.Machine.execStb p d a off s
  | .sth p d a off => Sys2Proof.Machine.execSth p d a off s
  | .stw p d a off => Sys2Proof.Machine.execStw p d a off s
  | .std p w8 d a off => Sys2Proof.Machine.execStd p w8 d a off s
  | .ldv p w at_ d a off => Sys2Proof.Machine.execLdv p w at_ d a off s
  | .stv p w at_ d a off => Sys2Proof.Machine.execStv p w at_ d a off s
  | .ldp p w at_ pane row a off => Sys2Proof.Machine.execLdp p w at_ pane row a off s
  | .stp p w at_ pane row a off => Sys2Proof.Machine.execStp p w at_ pane row a off s
  | .ldmx p el8 w d a off => Sys2Proof.Machine.execLdmx p el8 w d a off s
  | .stmx p el8 w d a off => Sys2Proof.Machine.execStmx p el8 w d a off s
  | .pref p a off => Sys2Proof.Machine.execPref p a off s
  | .clInv p a off => Sys2Proof.Machine.execClInv p a off s
  | .clZero p a off => Sys2Proof.Machine.execClZero p a off s
  | .mark => Sys2Proof.Machine.execMark s
  | .fence p sc o => Sys2Proof.Machine.execFence p sc o s
  | .amoAdd p sc o w8 d a b => Sys2Proof.Machine.execAmoAdd p sc o w8 d a b s
  | .amoSwap p sc o w8 d a b => Sys2Proof.Machine.execAmoSwap p sc o w8 d a b s
  | .amoCas p sc o failAcq w8 d a b => Sys2Proof.Machine.execAmoCas p sc o failAcq w8 d a b s
  | .amoAnd p sc o w8 d a b => Sys2Proof.Machine.execAmoAnd p sc o w8 d a b s
  | .amoOr p sc o w8 d a b => Sys2Proof.Machine.execAmoOr p sc o w8 d a b s
  | .amoXor p sc o w8 d a b => Sys2Proof.Machine.execAmoXor p sc o w8 d a b s
  | .amoMax p sc o w8 d a b => Sys2Proof.Machine.execAmoMax p sc o w8 d a b s
  | .amoMin p sc o w8 d a b => Sys2Proof.Machine.execAmoMin p sc o w8 d a b s
  | .fld p w8 d a off => Sys2Proof.Machine.execFld p w8 d a off s
  | .fst p w8 d a off => Sys2Proof.Machine.execFst p w8 d a off s
  | .ffenceFlag p w8 d a off => Sys2Proof.Machine.execFfenceFlag p w8 d a off s
  | .famoAdd p o w8 d a b => Sys2Proof.Machine.execFamoAdd p o w8 d a b s
  | .famoSwap p o w8 d a b => Sys2Proof.Machine.execFamoSwap p o w8 d a b s
  | .famoCas p o failAcq w8 d a b => Sys2Proof.Machine.execFamoCas p o failAcq w8 d a b s
  | .famoAnd p o w8 d a b => Sys2Proof.Machine.execFamoAnd p o w8 d a b s
  | .famoOr p o w8 d a b => Sys2Proof.Machine.execFamoOr p o w8 d a b s
  | .pressLease p => Sys2Proof.Machine.execPressLease p s
  | .pressFree p => Sys2Proof.Machine.execPressFree p s
  | .pressClaim p bank => Sys2Proof.Machine.execPressClaim p bank s
  | .pressRelease p bank => Sys2Proof.Machine.execPressRelease p bank s
  | .pressStatNorth p c b snap => Sys2Proof.Machine.execPressStatNorth p c b snap s
  | .pressStatWest p c b snap => Sys2Proof.Machine.execPressStatWest p c b snap s
  | .pressRun p c b bank sparse snap => Sys2Proof.Machine.execPressRun p c b bank sparse snap s
  | .pressDrain p c b bank acc => Sys2Proof.Machine.execPressDrain p c b bank acc s
  | .pressZero p c bank => Sys2Proof.Machine.execPressZero p c bank s
  | .copy p c snap => Sys2Proof.Machine.execCopy p c snap s
  | .copyHoop p c hoop snap => Sys2Proof.Machine.execCopyHoop p c hoop snap s
  | .copyBb p c bb snap => Sys2Proof.Machine.execCopyBb p c bb snap s
  | .coll p c => Sys2Proof.Machine.execColl p c s
  | .caveUpd p c b => Sys2Proof.Machine.execCaveUpd p c b s
  | .embWait p d a => Sys2Proof.Machine.execEmbWait p d a s
  | .embWaitTrap p d a => Sys2Proof.Machine.execEmbWaitTrap p d a s
  | .embTest p d a => Sys2Proof.Machine.execEmbTest p d a s
  | .embCancel p d a => Sys2Proof.Machine.execEmbCancel p d a s
  | .embDetach p d a => Sys2Proof.Machine.execEmbDetach p d a s
  | .embAdopt p d name => Sys2Proof.Machine.execEmbAdopt p d name s
  | .embPrio p d a n => Sys2Proof.Machine.execEmbPrio p d a n s
  | .embInfo p d a => Sys2Proof.Machine.execEmbInfo p d a s
  | .embAfter p d a => Sys2Proof.Machine.execEmbAfter p d a s
  | .hoopInit p hoop a b => Sys2Proof.Machine.execHoopInit p hoop a b s
  | .hoopAwait p d hoop => Sys2Proof.Machine.execHoopAwait p d hoop s
  | .hoopRel p hoop => Sys2Proof.Machine.execHoopRel p hoop s
  | .hoopQuery p d hoop => Sys2Proof.Machine.execHoopQuery p d hoop s
  | .bbExpect p d bb a => Sys2Proof.Machine.execBbExpect p d bb a s
  | .bbArrive p bb a => Sys2Proof.Machine.execBbArrive p bb a s
  | .bbWait p bb a => Sys2Proof.Machine.execBbWait p bb a s
  | .bbQuery p d bb => Sys2Proof.Machine.execBbQuery p d bb s
  | .moldGet p d a => Sys2Proof.Machine.execMoldGet p d a s
  | .moldPass p a => Sys2Proof.Machine.execMoldPass p a s
  | .moldFree p a => Sys2Proof.Machine.execMoldFree p a s
  | .bundleIssue core => Sys2Proof.Machine.execBundleIssue core s
  | .contextSelect core => Sys2Proof.Machine.execContextSelect core s
  | .resultDelivery cx => Sys2Proof.Machine.execResultDelivery cx s
  | .fmtWriteEffect cx => Sys2Proof.Machine.execFmtWriteEffect cx s
  | .wheelEnded cx => Sys2Proof.Machine.execWheelEnded cx s
  | .xlatInvComplete cx => Sys2Proof.Machine.execXlatInvComplete cx s
  | .loadComplete cx ret sel hit => Sys2Proof.Machine.execLoadComplete cx ret sel hit s
  | .storePerformed cx sel => Sys2Proof.Machine.execStorePerformed cx sel s
  | .atomicPerformed cx => Sys2Proof.Machine.execAtomicPerformed cx s
  | .markPerformed cx => Sys2Proof.Machine.execMarkPerformed cx s
  | .translationWalk unit vat va => Sys2Proof.Machine.execTranslationWalk unit vat va s
  | .leaseGrant quad => Sys2Proof.Machine.execLeaseGrant quad s
  | .bankDeferredRelease quad bank => Sys2Proof.Machine.execBankDeferredRelease quad bank s
  | .pressCommandStart quad core slot => Sys2Proof.Machine.execPressCommandStart quad core slot s
  | .multicastTransfer quad => Sys2Proof.Machine.execMulticastTransfer quad s
  | .pressBoundary quad => Sys2Proof.Machine.execPressBoundary quad s
  | .copyStart quad core slot => Sys2Proof.Machine.execCopyStart quad core slot s
  | .copyChunk quad core slot => Sys2Proof.Machine.execCopyChunk quad core slot s
  | .codecBlock quad core slot => Sys2Proof.Machine.execCodecBlock quad core slot s
  | .collectiveBegin ember => Sys2Proof.Machine.execCollectiveBegin ember s
  | .wheyPieceArrival ember sender block ok => Sys2Proof.Machine.execWheyPieceArrival ember sender block ok s
  | .wheyDeadline ember => Sys2Proof.Machine.execWheyDeadline ember s
  | .collectiveStep ember sender block => Sys2Proof.Machine.execCollectiveStep ember sender block s
  | .collectiveDone ember => Sys2Proof.Machine.execCollectiveDone ember s
  | .caveUpdateStep ember sel => Sys2Proof.Machine.execCaveUpdateStep ember sel s
  | .hoopSlotEmpty quad hoop slot => Sys2Proof.Machine.execHoopSlotEmpty quad hoop slot s
  | .bbArriveApply quad bb => Sys2Proof.Machine.execBbArriveApply quad bb s
  | .ringEntryConsume die queue => Sys2Proof.Machine.execRingEntryConsume die queue s
  | .vatReady vat => Sys2Proof.Machine.execVatReady vat s
  | .wheelPlace vat spawned places granules dicts => Sys2Proof.Machine.execWheelPlace vat spawned places granules dicts s
  | .indexRangeGrant vat die count => Sys2Proof.Machine.execIndexRangeGrant vat die count s
  | .preload quad vat => Sys2Proof.Machine.execPreload quad vat s
  | .preloadCommit quad vat => Sys2Proof.Machine.execPreloadCommit quad vat s
  | .vatComplete vat => Sys2Proof.Machine.execVatComplete vat s
  | .energyUpdate vat amount => Sys2Proof.Machine.execEnergyUpdate vat amount s
  | .starvationPreempt vat victim => Sys2Proof.Machine.execStarvationPreempt vat victim s
  | .corePowerGate core => Sys2Proof.Machine.execCorePowerGate core s
  | .coreWake core => Sys2Proof.Machine.execCoreWake core s
  | .contextHalt cx => Sys2Proof.Machine.execContextHalt cx s
  | .vatSave vat core => Sys2Proof.Machine.execVatSave vat core s
  | .vatResume vat oldCore newCore => Sys2Proof.Machine.execVatResume vat oldCore newCore s
  | .farRequestReceive req => Sys2Proof.Machine.execFarRequestReceive req s
  | .farResponse req => Sys2Proof.Machine.execFarResponse req s
  | .fstAck req => Sys2Proof.Machine.execFstAck req s
  | .farTimeout req => Sys2Proof.Machine.execFarTimeout req s
  | .linkFlitReceive die other lane ok => Sys2Proof.Machine.execLinkFlitReceive die other lane ok s
  | .planeLinkBringup die port ok => Sys2Proof.Machine.execPlaneLinkBringup die port ok s
  | .planePortDown die port => Sys2Proof.Machine.execPlanePortDown die port s
  | .hostPortSelect md up0 up4 => Sys2Proof.Machine.execHostPortSelect md up0 up4 s
  | .hostPortFailover md => Sys2Proof.Machine.execHostPortFailover md s
  | .submit md sq die queue pa => Sys2Proof.Machine.execSubmit md sq die queue pa s
  | .cancel md sq vat => Sys2Proof.Machine.execCancel md sq vat s
  | .preempt md sq vat cores => Sys2Proof.Machine.execPreempt md sq vat cores s
  | .rerun md sq vat => Sys2Proof.Machine.execRerun md sq vat s
  | .resident md sq vat page => Sys2Proof.Machine.execResident md sq vat page s
  | .bind md sq die domain vat table => Sys2Proof.Machine.execBind md sq die domain vat table s
  | .unbind md sq die domain => Sys2Proof.Machine.execUnbind md sq die domain s
  | .dmaWrite md sq pa bytes => Sys2Proof.Machine.execDmaWrite md sq pa bytes s
  | .dmaRead md sq pa len => Sys2Proof.Machine.execDmaRead md sq pa len s
  | .mgmtRead md sq die reg => Sys2Proof.Machine.execMgmtRead md sq die reg s
  | .mgmtWrite md sq die reg val => Sys2Proof.Machine.execMgmtWrite md sq die reg val s
  | .malformedMessage md sq ty => Sys2Proof.Machine.execMalformedMessage md sq ty s
  | .heventRead die => Sys2Proof.Machine.execHeventRead die s
  | .secpolWrite md val => Sys2Proof.Machine.execSecpolWrite md val s
  | .modcfgWrite md val => Sys2Proof.Machine.execModcfgWrite md val s
  | .residencyCommand die page => Sys2Proof.Machine.execResidencyCommand die page s
  | .drainIsolateQuad die quad => Sys2Proof.Machine.execDrainIsolateQuad die quad s
  | .returnQuad die quad => Sys2Proof.Machine.execReturnQuad die quad s
  | .retireCore die core => Sys2Proof.Machine.execRetireCore die core s
  | .drainIsolateDie die => Sys2Proof.Machine.execDrainIsolateDie die s
  | .returnDie die => Sys2Proof.Machine.execReturnDie die s
  | .recalibrateLink die other => Sys2Proof.Machine.execRecalibrateLink die other s
  | .recalibrateHbm die stack => Sys2Proof.Machine.execRecalibrateHbm die stack s
  | .recalibrationDone die => Sys2Proof.Machine.execRecalibrationDone die s
  | .reinitSemaphore die sem => Sys2Proof.Machine.execReinitSemaphore die sem s
  | .clearSaturated die sem => Sys2Proof.Machine.execClearSaturated die sem s
  | .loadFirmware die => Sys2Proof.Machine.execLoadFirmware die s
  | .raiseFwsvn die => Sys2Proof.Machine.execRaiseFwsvn die s
  | .correctedError die kind res => Sys2Proof.Machine.execCorrectedError die kind res s
  | .uncorrectableError where_ => Sys2Proof.Machine.execUncorrectableError where_ s
  | .patrolScrub where_ bad => Sys2Proof.Machine.execPatrolScrub where_ bad s
  | .parityError core again => Sys2Proof.Machine.execParityError core again s
  | .dieFailure dies => Sys2Proof.Machine.execDieFailure dies s
  | .tamperMesh md => Sys2Proof.Machine.execTamperMesh md s
  | .voltageGlitch md => Sys2Proof.Machine.execVoltageGlitch md s
  | .clockGlitch md => Sys2Proof.Machine.execClockGlitch md s
  | .thermalTrip die => Sys2Proof.Machine.execThermalTrip die s
  | .throttle die power thermal cycles => Sys2Proof.Machine.execThrottle die power thermal cycles s
  | .moduleReset md => Sys2Proof.Machine.execModuleReset md s
  | .selfTestDone die faults => Sys2Proof.Machine.execSelfTestDone die faults s
  | .hbmTrainingDone die failed => Sys2Proof.Machine.execHbmTrainingDone die failed s

end Sys2Proof.Machine
end

