-- ==== Sys2Proof/Machine/Default.lean ====
section
/-! DEFINITION. Which event comes next: the schedule's first event that is due, else the first of the machine's own events
that changes anything (log entries 3, 13). -/

namespace Sys2Proof

/-- Machine events: the rows that stand in no slot. -/
def Instr.isEvent (i : Instr) : Bool := i.encSlot.isNone

end Sys2Proof

namespace Sys2Proof.Machine

/-- Every byte. -/
def allBytes : Nat := 2 ^ 1024 - 1

/-- An event of a context's queues that can take place. -/
def State.queueEvent (s : State) (cx : Nat) : Option Instr :=
  let c := s.ctx cx
  if !c.rets.isEmpty || !(s.core (coreOf cx)).prefs.isEmpty then some (.loadComplete cx 1 allBytes false)
  else if (s.orderReached cx).isSome then some (.markPerformed cx)
  else
    let fromL : Option Instr := match c.lq with
      | op :: _ => match op.kind with
        | .load _ => some (.loadComplete cx 0 allBytes true)
        | .clInv => some (.loadComplete cx 0 allBytes true)
        | .amo _ _ _ _ _ => some (.atomicPerformed cx)
        | .far f _ _ _ _ => if c.sentFar op.id then none else match f with
          | .ld => some (.loadComplete cx 0 allBytes true)
          | _ => some (.atomicPerformed cx)
        | _ => none
      | [] => none
    match fromL, c.sq with
    | some e, _ => some e
    | none, op :: _ => match op.kind with
      | .store => some (.storePerformed cx allBytes)
      | .far .st _ _ _ _ => some (.storePerformed cx allBytes)
      | .far .flag _ _ _ _ => if c.sentFar op.id then none else some (.storePerformed cx allBytes)
      | _ => none
    | none, [] => if s.arrives cx then some (.markPerformed cx) else none

/-- The global pages a context's next bundle needs that its core has not cached yet. -/
def State.needPages (s : State) (cx : Nat) : List Nat :=
  let c := s.ctx cx
  let v := s.vat c.vatKey
  let pc := c.pc.toNat
  let map (a : Nat) : Nat := (v.desc.map + (a - v.desc.code) / 16) / 4096
  let data := match s.fetch cx with
    | .ok b _ => match decodeBundle b with
      | .ok slots => (opsOf slots).flatMap fun o => o.pages c
      | _ => []
    | _ => []
  let all := [pc / 4096, map pc, (pc + 49) / 4096, map (pc + 49)] ++ data
  (all.filter fun p => (match regionOf (p * 4096) with | some (.glob, _) => true | _ => false) &&
    match s.xlat (s.core (coreOf cx)).tlb c.vatKey (p * 4096) with
    | (some _, false) => true
    | _ => false).eraseDups

/-- Events of one context. -/
def State.ctxEvents (s : State) (cx : Nat) : List Instr :=
  let c := s.ctx cx
  if c.wheel.isNone then []
  else (s.queueEvent cx).toList ++
    (if c.phase = .running ∧ c.xinv.isNone then
      (s.atIssue cx).needPages cx |>.map fun p => Instr.translationWalk (coreOf cx) c.vatKey (p * 4096) else []) ++
    [.contextHalt cx, .wheelEnded cx] ++ if c.xinv.isSome then [.xlatInvComplete cx] else []

/-- Events of the embers of one core, and of the ordering places that ended wheels left there (07 R162). -/
def State.emberEvents (s : State) (core : Nat) : List Instr :=
  ((s.core core).left.map fun p => Instr.markPerformed p.ctx) ++ (s.core core).live.flatMap fun x =>
    match x.2.op with
    | .coll => [.collectiveBegin x.2.uid]
    | .cave => [.caveUpdateStep x.2.uid ((2 ^ 4096 - 1), none)]
    | .copy _ _ _ => [.copyStart (core / 4) core x.1]
    | _ => [.pressCommandStart (core / 4) core x.1]

/-- What an ember has still to do once its engine has gone on: writes put off, units owed to a byte barrier (13 R283, 14 R308). -/
def Ember.openEvents (core slot : Nat) (e : Ember) : List Instr :=
  if e.late.isEmpty && e.owed.isEmpty then []
  else match e.op with
  | .coll => [.collectiveDone (e.uid, .whole)]
  | .cave => []
  | .copy _ _ _ => [.copyChunk (core / 4) core (slot, .whole), .codecBlock (core / 4) core (slot, .whole)]
  | _ => [.pressBoundary ((core / 4), .whole)]
/-- Such events of the embers of one core, and of those saved with a vat. -/
def State.openLive (s : State) (core : Nat) : List Instr := (s.core core).live.flatMap fun x => x.2.openEvents core x.1
def State.openSaved (s : State) (vat : Nat) : List Instr :=
  (s.vat vat).saves.flatMap fun k => k.embers.flatMap fun x => match x.2 with | some e => e.openEvents k.core x.1 | none => []

/-- Events of one quad. -/
def State.quadEvents (s : State) (quad : Nat) : List Instr :=
  let q := s.quad quad
  (q.copies.flatMap fun r => [.copyChunk quad r.core (r.slot, .whole), .codecBlock quad r.core (r.slot, .whole)]) ++
  (q.hoops.flatMap fun h => (tkeys h.2.cur.rel).map fun i => Instr.hoopSlotEmpty quad h.1 i) ++
  ((tkeys q.bbAcc).map fun b => Instr.bbArriveApply quad b) ++
  [.multicastTransfer quad, .pressBoundary (quad, .whole), .leaseGrant quad, .bankDeferredRelease quad false, .bankDeferredRelease quad true] ++
  match q.preload with | some (v, _, _) => [.preloadCommit quad v] | none => []

/-- Events of one member of a collective. -/
def State.collEvents (r : CollRun) : List Instr :=
  let parts : List (Nat × Nat) := (List.range (collBlocks r.cmd)).flatMap fun b => (r.senders b).map fun m => (m, b)
  let wanted := parts.filter fun x => r.wants x.1 x.2
  (wanted.take 1).flatMap (fun x => [Instr.collectiveStep (r.uid, .whole) x.1 x.2, .wheyPieceArrival (r.uid, .whole) x.1 x.2 true])
    ++ [.wheyDeadline (r.uid, .whole), .collectiveDone (r.uid, .whole)]

/-- Events of one vat in its flue: where a placement is possible, the first one that the search finds. -/
def State.vatEvents (s : State) (vat : Nat) : List Instr :=
  let v := s.vat vat
  let place (sp : Bool) (x : Option (List (Nat × Nat) × List Nat × List Nat)) : List Instr :=
    (x.map fun x => Instr.wheelPlace vat sp x.1 x.2.1 x.2.2).toList
  let spawn : List Instr := match v.spawns with
    | w :: _ =>
      let cs := match w.core with | some k => (List.range 4).map (· + 4 * k) | none => (s.vatDies vat).flatMap dieCtxs
      if w.released then place true (s.search vat 1 cs) else []
    | [] => []
  let main : List Instr :=
    if v.cancelled ∨ v.phase = .queued then []
    else if v.desc.wheels ≤ v.granted then []
    else if s.spans vat then (s.vatDies vat).map fun d => Instr.indexRangeGrant vat d 1
    else if s.flueChoice v.die = some vat then place false (s.findPlace vat (s.vatDies vat)) else []
  [.vatComplete vat, .vatReady vat] ++ (v.halting.map fun k => Instr.vatSave vat k) ++
    (v.saves.flatMap fun k => (s.vatDies vat).flatMap fun d => (List.range 32).map fun q => Instr.vatResume vat k.core (128 * d + 4 * q + k.core % 4)) ++
    spawn ++ main ++ if v.phase = .ready then (tkeys s.vats).map fun w => Instr.starvationPreempt vat w else []

/-- A command of a die that is under way (20 Table 20.5), a drain without one, and the rings. -/
def State.dieEvents (s : State) (die : Nat) : List Instr :=
  let d := s.die die
  let h := d.hcmd
  let own : List Instr :=
    if !h.busy then []
    else if h.op = 1 then [.drainIsolateQuad die h.target] else if h.op = 2 then [.returnQuad die h.target]
    else if h.op = 3 then [.retireCore die h.target] else if h.op = 4 then [.drainIsolateDie die] else if h.op = 5 then [.returnDie die]
    else if h.op = 6 then [.recalibrationDone die, .recalibrateLink die h.target]
    else if h.op = 7 then [.recalibrationDone die, .recalibrateHbm die h.target]
    else if h.op = 8 then [.reinitSemaphore die h.target] else if h.op = 9 then [.clearSaturated die h.target]
    else if h.op = 0x10 then [.loadFirmware die] else if h.op = 0x11 then [.raiseFwsvn die] else []
  own ++ (if d.stage == 3 && !d.heldHbm && decide (128000000 < s.cycle die) then [.hbmTrainingDone die none] else []) ++
    (if d.draining then [.drainIsolateDie die] else []) ++
    ((List.range 32).filterMap fun q => if (s.quad (32 * die + q)).draining then some (Instr.drainIsolateQuad die q) else none) ++
    ((List.range 128).filterMap fun c => if (s.core (128 * die + c)).draining then some (Instr.retireCore die c) else none) ++
    (List.range 16).map fun q => Instr.ringEntryConsume die q

/-- The modules that may do something by themselves: module 0, and any other that some event has touched. -/
def State.modules (s : State) : List Nat := (0 :: tkeys s.mods ++ (tkeys s.dies).map (· / 8)).eraseDups

/-- What a die's sensors make happen as soon as they read it (21 R432). -/
def State.heatEvents (s : State) (die : Nat) : List Instr :=
  (if (s.die die).trip then [] else [.thermalTrip die]) ++ [.throttle die (s.powerOn die) (s.thermalOn die) ((s.die die).throttled s.now)]

/-- The next bundle of a core, or the choice of its next context. -/
def State.issueEvents (s : State) (core : Nat) : List Instr :=
  if !s.coreLive core then [] else if (s.core core).switching then [.contextSelect core] else [.bundleIssue core]

/-- The machine's own events, in the order in which the model considers them. -/
def State.ownEvents (s : State) : List Instr :=
  (tkeys s.ctxs).flatMap s.ctxEvents
  ++ (tkeys s.fars).flatMap (fun r => [Instr.farRequestReceive r, .farResponse r, .fstAck r, .farTimeout r])
  ++ (tkeys s.cores).flatMap s.emberEvents
  ++ (tkeys s.quads).flatMap s.quadEvents
  ++ (tkeys s.cores).flatMap s.openLive ++ (tkeys s.vats).flatMap s.openSaved
  ++ s.colls.flatMap State.collEvents
  ++ (tkeys s.dies).flatMap s.dieEvents
  ++ (tkeys s.vats).flatMap s.vatEvents
  ++ s.modules.flatMap (fun m => [Instr.hostPortSelect m (s.modu m).ports0 (s.modu m).ports4, .hostPortFailover m])
  ++ (tkeys s.cores).flatMap s.issueEvents
  ++ s.modules.flatMap (fun m => (List.range 8).flatMap fun d => s.heatEvents (8 * m + d))

/-- Whether an event changes the state. -/
def changes (s : State) (e : Instr) : Bool :=
  match exec e s with
  | .next t => decide (t ≠ s)
  | _ => true

/- The order of one cycle (03 R73, 12 R257, 13 R299, 16 R341, 17 R359) -/

def isExpect (x : Nat × Instr) : Bool := match x.2 with | .bbExpect _ _ _ _ => true | _ => false
def isSemWait (x : Nat × Instr) : Bool := match x.2 with | .semWait _ _ _ => true | _ => false

/-- The contexts whose next bundle a core looks at: the selected one, at a switch point every one. -/
def State.upNext (s : State) (core : Nat) : List Nat :=
  (if (s.core core).switching then [0, 1, 2, 3] else [(s.core core).sel]).map (4 * core + ·)
/-- The slots of a context's next bundle. -/
def State.nextSlots (s : State) (cx : Nat) : List (Nat × Instr) :=
  match (s.atIssue cx).fate with
  | .wait l => l
  | .trap l _ _ => l
  | .go _ l => l
/-- Whether a core may still issue in this cycle, or choose a context, and looks at a bundle with a slot of some kind. -/
def State.mayIssue (s : State) (core : Nat) (p : Nat × Instr → Bool) : Bool :=
  (s.upNext core).any (fun cx => (s.nextSlots cx).any p) && (s.issueEvents core).any (changes s)

/-- What cores ask of their quad in one cycle is given in COREID order (03 R73, 12 R257, 13 R299): a core waits for the lower ones,
and for the next cycle once a higher one has asked. -/
def State.quadTurn (s : State) (core : Nat) : Bool :=
  (!(List.range (core % 4)).any (fun j => s.mayIssue (core / 4 * 4 + j) asksQuad)
    && match (s.quad (core / 4)).asked with | some x => x.1 != s.now || decide (x.2 ≤ core % 4) | none => true)
  || !(s.upNext core).any fun cx => (s.nextSlots cx).any asksQuad

/-- Whether the oldest waiter of a semaphore is another context, whose bundle issues in this cycle (16 R341). -/
def State.waiterAhead (s : State) (cx die sem : Nat) : Bool :=
  match (tget (s.die die).waiters sem).head? with
  | some h =>
    let k := s.core (coreOf h)
    h != cx && s.coreLive (coreOf h) && !k.switching && k.sel == h % 4 && s.quadTurn (coreOf h)
      && match (s.atIssue h).fate with | .go _ _ => true | _ => false
  | none => false
/-- The waiters of a semaphore are examined in the order of its queue. -/
def State.semTurn (s : State) (core : Nat) : Bool :=
  !(s.upNext core).any fun cx =>
    let u := s.atIssue cx
    (s.nextSlots cx).any fun x => match x.2 with
      | .semWait _ a _ => s.waiterAhead cx (dieOf cx) (u.semOf (semIdx u a))
      | _ => false

/-- Whether one vat comes before another in the order of their flue (16 R333). -/
def State.flueBefore (s : State) (w v : Nat) : Bool :=
  let a := s.vat w
  let b := s.vat v
  let d := s.die b.die
  let rank (q : Nat) : Nat := (q + 15 - d.rr % 16) % 16
  a.die == b.die && w != v && (decide (a.cls < b.cls) || (a.cls == b.cls && (decide (rank a.queue < rank b.queue) ||
    (a.queue == b.queue && decide ((tget d.queues b.queue).idxOf w < (tget d.queues b.queue).idxOf v)))))
/-- The dependences of vats come after the waits of contexts, in the order of the flue (16 R341). -/
def State.vatTurn (s : State) (vat : Nat) : Bool :=
  let die := (s.vat vat).die
  !(tkeys s.cores).any (fun k => k / 128 == die && s.mayIssue k isSemWait) &&
  !(tkeys s.vats).any fun w => s.flueBefore w vat && changes s (.vatReady w)

/-- The expectations of a quad's byte barriers have been applied (13 R299). -/
def State.expectsDone (s : State) (quad : Nat) : Bool := !(List.range 4).any fun j => s.mayIssue (4 * quad + j) isExpect
/-- Whether a core's next bundle expects at a byte barrier to which an arrival of this cycle has been applied: its expectation comes before
them, and so in the next cycle (13 R299). -/
def State.expectLate (s : State) (core : Nat) : Bool :=
  (s.upNext core).any fun cx => (s.nextSlots cx).any fun x => match x.2 with
    | .bbExpect _ _ bb _ => (((s.quad (core / 4)).bb bb.val).cur.lastAt.map (·.1)) == some s.now
    | _ => false
/-- Copy arrivals come after the other events of a cycle (13 R299). -/
def State.countTurn (s : State) (quad core slot : Nat) : Bool :=
  (!(s.quad quad).copies.any (fun r => r.core == core && r.slot == slot && !r.uncounted.isEmpty) && (s.dueAt core slot).isNone) ||
    (s.expectsDone quad && !(tkeys (s.quad quad).bbAcc).any fun b => changes s (.bbArriveApply quad b))

/-- Whether a context takes a precise trap in this cycle: that comes before a halt (17 R359). At a switch point it does where the
choice falls on it again; a detected logic error makes its bundle trap too (20 R418). -/
def State.trapsNow (s : State) (cx : Nat) : Bool :=
  let core := coreOf cx
  let k := s.core core
  let order := [1, 2, 3, 0].map fun i => (k.sel + i) % 4
  s.coreLive core && k.sel == cx % 4 && (!k.switching || (s.examine core order).2 == some k.sel)
    && match (s.atIssue cx).fate with | .trap _ _ _ => true | .go _ _ => s.parityHit core | .wait _ => false

/-- Whether an amount has been taken in this cycle from the semaphore that a vat's completion signals: a signal comes before the waits and
dependences of its cycle (16 R341, R342), so that this one falls into the next. -/
def State.sigLate (s : State) (vat : Nat) : Bool :=
  let v := s.vat vat
  v.desc.sigValid && ((s.die v.die).sem v.desc.sigSem).cur.takenAt == some s.now
/-- Whether a vat's dependences drop it (16 R343). -/
def State.dropsNow (s : State) (vat : Nat) : Bool :=
  let v := s.vat vat
  v.desc.deps.any fun x => x.valid && ((s.die v.die).sem x.sem).cur.bad

/-- Whether an uncorrectable error drops a vat, whose completion signal would come after an amount was taken in this cycle (16 R334,
R341). -/
def State.strikeLate (s : State) : UeSite → Bool
  | .flueEntry vat => thas s.vats vat && (s.vat vat).phase != .running && s.sigLate vat
  | _ => false

/-- Whether an event is in its turn: nothing that the specification puts before it is still to come in this cycle. -/
def State.inTurn (s : State) (e : Instr) : Bool :=
  match e with
  | .bundleIssue core => s.quadTurn core && s.semTurn core && !s.expectLate core
  | .contextSelect core => s.quadTurn core && s.semTurn core
  | .bbArriveApply quad bb => s.expectsDone quad && ((s.quad quad).bb bb).cur.lastAt != some (s.now, 3)
  | .copyChunk quad core (slot, _) => s.countTurn quad core slot
  | .codecBlock quad core (slot, _) => s.countTurn quad core slot
  | .vatReady vat => s.vatTurn vat && !(s.dropsNow vat && s.sigLate vat)
  | .vatComplete vat => !s.sigLate vat
  | .uncorrectableError w => !s.strikeLate w
  | .patrolScrub w bad => !(bad && s.strikeLate w)
  | .contextHalt cx => !s.trapsNow cx
  | .markPerformed cx => match ((s.leftReached cx).map (·.act)).orElse fun _ => (s.orderReached cx).map (·.2.2) with
    | some (OrdAct.signal die sem _) => ((s.die die).sem sem).cur.takenAt != some s.now
    | _ => true
  | _ => true

/-- The first event the machine can take by itself. -/
def State.ownEvent (s : State) : Option Instr := s.ownEvents.find? fun e => s.inTurn e && changes s e

/-- The next event and the state without it. -/
def State.nextEvent (s : State) : Option (Instr × State) :=
  match s.sched with
  | (t, e) :: rest =>
    if t ≤ s.now then some (e, { s with sched := rest }) else s.ownEvent.map fun e => (e, s)
  | [] => s.ownEvent.map fun e => (e, s)

end Sys2Proof.Machine
end

