-- ==== Sys2Proof/Machine/Step.lean ====
section
/-! DEFINITION. One step of the machine: the next event due in the schedule, else an event the machine chooses itself,
else a cycle passes; the slots of an opened bundle are executed in the same step (log entries 3, 13). -/

namespace Sys2Proof.Machine

/-- The slots of an opened bundle, in their order. -/
def runSlots : List (Nat × Instr) → State → Host.Outcome State Fault Refusal
  | [], s => .next s
  | x :: t, s =>
    match exec x.2 s with
    | .next s' => runSlots t s'
    | .fault r => .fault r
    | .refused r => .refused r

/-- An opened bundle is executed and closed. -/
def drain (s : State) : Host.Outcome State Fault Refusal :=
  if s.issue.active then
    match runSlots s.issue.slots s with
    | .next s' => .next s'.closeBundle
    | .fault r => .fault r
    | .refused r => .refused r
  else .next s

/-- One event, with the bundle it opens. -/
def runEvent (e : Instr) (s : State) : Host.Outcome State Fault Refusal :=
  match exec e s with
  | .next s' => drain s'
  | .fault r => .fault r
  | .refused r => .refused r

/-- One step. A slot instruction in the schedule is no event and is passed over, and so is an event that is out of its turn in its
cycle. -/
def step (s : State) : Host.Outcome State Fault Refusal :=
  match s.nextEvent with
  | some (e, s') => if e.isEvent && s'.inTurn e then runEvent e s' else .next s'
  | none => .next { s with now := s.now + 1 }

/-- The words of an instruction as the code bytes of one literal: 50 bytes, low byte first. -/
def wordBytes (nbits w : Nat) : List Byte := leBytes 50 (w % 2 ^ nbits)

/-- The machine with an instruction as the next bundle of context 0 of core 0 of die 0 of module 0, in a vat whose code
segment is one literal, and with the schedule naming its issue (log entry 14). -/
def State.withFetchWord (s : State) (nbits w : Nat) : State :=
  let code := 2 ^ 32
  let vat := 1
  let page (n : Nat) : Xlat := { vat := vat, page := code / 4096 + n, loc := 4096 * n, r := true, w := true, x := true, range := some 0 }
  let ctx := s.ctx 0
  let core := s.core 0
  let s := s.setBytes ((wordBytes nbits w).zipIdx.map fun (x : Byte × Nat) => (x.2, x.1))
  let s := s.setBytes [(4096, 0xFE), (4097, 0xFF), (4098, 0xFF), (4099, 0x01)]
  let s := s.setCtx 0 { ctx with
    wheel := some { vat := vat, idx := 0, start := 0 }, phase := .running, pc := BitVec.ofNat 64 code,
    farWait := [], xinv := none }
  let s := s.setCore 0 { core with
    sel := 0, selAt := 0, switching := false, issuedAt := none, gated := false, retired := false, tlb := [page 0, page 1] }
  let s := s.updQuad 0 fun q => { q with isolated := false }
  let s := s.updMod 0 fun m => { m with modcfg := 2 ^ 63, halted := false }
  let s := s.updDie 0 fun d => { d with stage := 5, isolated := false, trip := false }
  let s := s.updVat vat fun v => { v with
    phase := .running, codeOld := [], desc := { v.desc with code := code, codeLen := 50, map := code + 4096, wheels := 1 } }
  { s with sched := [(s.now, .bundleIssue 0)], issue := {}, cur := 0, parity := [] }

end Sys2Proof.Machine
end

