-- ==== Sys2Proof/Certificates/Slice0/Obligations.lean ====
section
/-! DEFINITION. The statements for the provers: what every instruction and every machine event of the table does, what
taking a trap and returning from one do, frames, invariants, and that encoding and decoding agree. -/

namespace Sys2Proof.Claims

open Sys2Proof.Machine

/-- The instruction takes effect: its predicate reads true (02 R37), and its bundle has passed the checks of issue: it is
open, or it holds this instruction alone and neither traps (02 R40, R41) nor waits (02 R44). -/
def Issues (p : PReg) (i : Instr) (s : State) : Prop :=
  s.cc.pr p.val = true ∧
  (s.issue.active = true ∨ (s.bundleTrap [slotOp i] = none ∧ s.bundleWaits [slotOp i] = false))

/-- As `Issues`, for an instruction without a scalar predicate (the vector slots, mark). -/
def IssuesV (i : Instr) (s : State) : Prop :=
  s.issue.active = true ∨ (s.bundleTrap [slotOp i] = none ∧ s.bundleWaits [slotOp i] = false)

/-- Wherever the instruction takes effect, executing it answers the next state given. -/
def Gives (p : PReg) (i : Instr) (t : State → State) : Prop := ∀ s, Issues p i s → exec i s = .next (t s)

/-- As `Gives`, without a scalar predicate. -/
def GivesV (i : Instr) (t : State → State) : Prop := ∀ s, IssuesV i s → exec i s = .next (t s)

/-- A scalar register as the running bundle reads it. -/
def sv (s : State) (a : SReg) : Word := s.cc.sr a.val

/-- An AI immediate, sign-extended (05 R120). -/
def sext (imm : BitVec 25) : Word := BitVec.signExtend 64 imm

/-- A scalar result of the A slot. -/
def scalarA (L : Nat) (d : SReg) (v : State → Word) (s : State) : State := s.landS 4 L d (v s)

/-- Cond of 07 R141, on the integers that the words stand for. -/
def Holds (c : Cond) (x y : Word) : Prop :=
  match c with
  | .eq => x = y | .ne => x ≠ y
  | .lt => x.toInt < y.toInt | .ge => x.toInt ≥ y.toInt
  | .ltu => x.toNat < y.toNat | .geu => x.toNat ≥ y.toNat

/-- Wherever a compare takes effect its predicate result is true exactly when a condition holds of the state. -/
def Compares (p : PReg) (i : Instr) (d : PReg) (c : State → Prop) : Prop :=
  ∀ s, Issues p i s → ∀ v : Bool, (v = true ↔ c s) → exec i s = .next (s.landP 4 1 d v)

/-- The address of the bundle after the running one (07 R147). -/
def nextBundle (s : State) : Word := s.cc.pc + BitVec.ofNat 64 s.issue.len

/-- A taken branch of the running bundle. -/
def branchTo (t : Word) (s : State) : State := { s with issue := { s.issue with branch := some t } }

/-- The newest value of a control register (07 R157). -/
def csrNewest (n : Nat) (s : State) : Word :=
  if n = 0 then (match s.cc.lv.fmtp with | some x => x.value | none => s.cc.fmt) else s.csrRead n

/-- A control-register write issues (07 R158). -/
def csrPut (n : Nat) (v : Word) (s : State) : State :=
  if n = 0 then s.updCur fun c => c.setLv { c.lv with fmtp := some ⟨v, 4⟩ }
  else s.land 3 1 {
    dest := if n = 1 then .key else if n = 2 then .status else .csr n, value := BitVec.setWidth 1024 v }

/-- The physical semaphore of the window index in a register (16 R339). -/
def window (s : State) (a : SReg) : Nat := (s.vat s.cc.wid.vat).desc.semBase + (sv s a).toNat

/-- A spawned wheel is queued: index, argument, core it is tied to; the vat's next index and count advance. -/
def Spawned (s t : State) (arg : Word) (core : Option Nat) : Prop :=
  let v := s.vat s.cc.vatKey
  (t.vat s.cc.vatKey).spawns = v.spawns ++ [{ idx := v.next, arg := arg, core := core }] ∧
  (t.vat s.cc.vatKey).next = v.next + 1 ∧ (t.vat s.cc.vatKey).spawned = v.spawned + 1 ∧
  t.cc = s.cc.enqOrder none false (.spawn s.cc.vatKey v.next) false ∧ t.mem = s.mem

/-- The address of an LM, LP or LX form: the base register plus the signed offset in units of a scale (10 R200). -/
def address (s : State) (a : SReg) (off : BitVec 14) (scale : Nat) : Nat :=
  (sv s a + BitVec.signExtend 64 off * BitVec.ofNat 64 scale).toNat

/-- Wherever the instruction takes effect and its access is allowed, it is queued: `put` gets the address, the size, the bytes'
locations and whether the L1 may serve them. -/
def Queues (p : PReg) (i : Instr) (ea : State → Nat) (size : Nat) (r w : Bool)
    (put : Nat → Nat → List Nat × Bool → State → State) : Prop :=
  ∀ s locs cached, Issues p i s → s.access s.cur (ea s) size r w = .ok locs cached →
    exec i s = .next (put (ea s) size (locs, cached) s)

/-- The single-copy atomic unit of a scalar access (10 Table 10.2): all of it (0) inside one aligned 4-byte unit, else bytes. -/
def narrowUnit (ea size : Nat) : Nat := if ea % 4 + size ≤ 4 then 0 else 1
/-- The single-copy atomic unit of an atomicity flag (10 Table 10.2). -/
def flagUnit : Atomicity → Nat | .none => 4 | .w8 => 8 | .w16 => 16
/-- Bytes of an MX access (10 R214): whole blocks of 32 elements and a scale. -/
def mxSize (el8 : Bool) (w : VWidth) : Nat := if el8 then 33 * (w.bits / 256) else 17 * (w.bits / 128)

/-- A load in the load queue. -/
def loadPut (cls : Nat) (dst : State → LDest) (unit : Nat → Nat) (ea size : Nat) (x : List Nat × Bool) (s : State) : State :=
  s.updCur fun c => c.enq true (some cls)
    { kind := .load (dst s), ea := ea, size := size, unit := unit ea, locs := x.1, cached := x.2 }
/-- A store in the store queue. -/
def storePut (data : State → List Byte) (unit : Nat → Nat) (ea size : Nat) (x : List Nat × Bool) (s : State) : State :=
  s.updCur fun c => c.enq false (some 2)
    { kind := .store, ea := ea, size := size, unit := unit ea, locs := x.1, cached := x.2, data := data s }

/-- Orderings with an acquire, and with a release (10 Table 10.7). -/
def acquires (o : MemOrd) : Bool := o == .acquire || o == .acqRel
def releases (o : MemOrd) : Bool := o == .release || o == .acqRel
/-- A place before an operation for its release, and after it for its acquire. -/
def fenced (o : MemOrd) (sc : Scope) (f : Ctx → Ctx) (c : Ctx) : Ctx :=
  let before (c : Ctx) := if releases o then c.enqOrder none (sc == .pod) .none false else c
  let after (c : Ctx) := if acquires o then c.enqOrder (some sc) false .none false else c
  after (f (before c))
/-- An atomic in the load queue, with its expected value and whether a failed compare drops its acquire. -/
def atomicPut (op : AmoOp) (sc : Scope) (o : MemOrd) (drop : Bool) (d b : SReg) (ea size : Nat) (x : List Nat × Bool)
    (s : State) : State :=
  s.updCur (fenced o sc fun c => c.enq true (some 3)
    { kind := .amo op (sv s b) (sv s d) d.val drop, ea := ea, size := size, unit := 0, locs := x.1 })
/-- A far instruction blocks its context from its issue on (18 R392, R394). -/
def blocks (slot : Nat) (c : Ctx) : Ctx :=
  { c with farWait := c.farWait ++ [{ op := c.nextOp, bundle := c.pc, slot := slot }] }
/-- A far atomic in the load queue. -/
def farAtomicPut (op : AmoOp) (o : MemOrd) (drop : Bool) (size : Nat) (d a b : SReg) (s : State) : State :=
  s.updCur (fenced o .pod fun c => (blocks 5 c).enq true none
    { kind := .far (.amo op) (sv s b) (sv s d) d.val drop, ea := (sv s a).toNat, size := size, unit := 0 })

/-- Elements of a type in a slot's width (08 R164). -/
def count (h : VHdr) (ty : VType) : Nat := h.width.bits / ty.bits
/-- The mask bits that a slot of n elements uses (02 R39). -/
def enabled (h : VHdr) (n : Nat) (s : State) : Nat := (s.cc.kr h.mask.val).toNat % 2 ^ n
/-- An element-by-element result of two sources, each element with the flags it raises. -/
def each2 (h : VHdr) (L : Nat) (ty : VType) (d a b : Opnd) (f : State → Nat → Nat → Nat × Flags) (s : State) : State :=
  s.landVec h L ty.bits (count h ty) (enabled h (count h ty) s) d
    (List.zipWith (f s) (s.opnd ty (count h ty) a) (s.opnd ty (count h ty) b))
/-- An element-by-element result of one source. -/
def each1 (h : VHdr) (L : Nat) (ty : VType) (d a : Opnd) (f : State → Nat → Nat × Flags) (s : State) : State :=
  s.landVec h L ty.bits (count h ty) (enabled h (count h ty) s) d ((s.opnd ty (count h ty) a).map (f s))
/-- A compare of elements into a lane mask: bit i is the verdict on element i. -/
def each2K (h : VHdr) (ty : VType) (d : KReg) (a b : Opnd) (f : Val → Val → Bool) (s : State) : State :=
  s.land h.slot (if ty.isFp then 4 else 2) {
    dest := .kreg d.val, n := count h ty, en := enabled h (count h ty) s,
    value := BitVec.ofNat 1024 (packElems 1 (List.zipWith (fun x y => (f (ty.dec x) (ty.dec y)).toNat)
      (s.opnd ty (count h ty) a) (s.opnd ty (count h ty) b))) }
/-- A result of rounding in a vector type under the mode and the saturation of FMT (08 R166, R169). -/
def rounded (s : State) (ty : VType) (v : Val × Flags) : Nat × Flags :=
  ty.fp.result (fmtSatf s.cc.fmt) (arithMode s.cc.fmt) v
/-- The range of an integer type (04 R85), and a value brought into it, with SATI where that changes it (08 Table 8.3). -/
def least (ty : VType) : Int := if ty = .ui8 then 0 else -(2 ^ (ty.bits - 1))
def most (ty : VType) : Int := if ty = .ui8 then 255 else 2 ^ (ty.bits - 1) - 1
def saturated (ty : VType) (i : Int) : Nat × Flags :=
  let r := max (least ty) (min (most ty) i)
  (intBits ty.bits r, if r = i then 0 else fSATI)
/-- Mask logic of 128 bits (08 R174). -/
def maskResult (v1 : Bool) (d : KReg) (f : State → Mask) (s : State) : State :=
  s.land (if v1 then 1 else 0) 2
    { dest := .kreg d.val, n := 128, en := 2 ^ 128 - 1, value := BitVec.setWidth 1024 (f s) }
/-- A lane exchange: element i of the result is element (f i) of the source (08 R176). -/
def exchange (h : VHdr) (ty : VType) (d a : Opnd) (f : Nat → Nat) (s : State) : State :=
  s.landVec h 3 ty.bits (count h ty) (enabled h (count h ty) s) d
    ((List.range (count h ty)).map fun i => (pick (s.opnd ty (count h ty) a) (f i), 0))
/-- A reduction: the tree over the enabled elements, brought to a value of the type, in every element; 0 when none is enabled
(08 R178, R179). -/
def reduction (h : VHdr) (ty : VType) (d a : Opnd) (leaf : Nat → Nat) (node : Nat → Nat → Nat × Flags)
    (root : Nat → Nat × Flags) (s : State) : State :=
  let n := count h ty
  let r := treeReduce node 7 (leaves (enabled h n s) ((s.opnd ty n a).map leaf))
  let v := match r.1 with | some x => root x | none => (0, 0)
  s.landVec h 6 ty.bits n (enabled h n s) d (List.replicate n (v.1, r.2 ||| v.2))

/-- The codes of a type that Table 9.2 of 09 needs: canonical NaN, infinity, sign bit, 1 and 1/2 (04 R80, R83). -/
structure SfuCodes where
  ty : VType
  nan : Nat
  inf : Nat
  sign : Nat
  one : Nat
  half : Nat
def sfuCodes : List SfuCodes :=
  [⟨.f32, 0x7FC00000, 0x7F800000, 0x80000000, 0x3F800000, 0x3F000000⟩, ⟨.bf16, 0x7FC0, 0x7F80, 0x8000, 0x3F80, 0x3F00⟩,
   ⟨.f16, 0x7E00, 0x7C00, 0x8000, 0x3C00, 0x3800⟩]
/-- A value is 2^k. -/
def IsPow2 (v : Val) (k : Int) : Prop := ∃ m e, v = .fin false m e ∧ -1000 < e ∧ -1000 < k ∧ m * 2 ^ (e + 2000).toNat = 2 ^ (k + 2000).toNat

/-- The core and the quad of the running context. -/
def myCore (s : State) : Core := s.core (coreOf s.cur)
def myQuad (s : State) : Quad := s.quad (quadOf s.cur)

/-- An ember command creates an ember (11 R225, R226, R231): in the lowest free slot of the core, with the slot's next
generation, its owner and issuer, the predecessor that emb.after left, its command's fields and seeds; the token goes to d
with latency 1; a place in both queues carries the fork. -/
def CreatesEmber (p : PReg) (i : Instr) (h : EcHdr) (op : EcOp) (seed0 seed1 : State → Word) : Prop :=
  ∀ s slot, Issues p i s → (myCore s).freeSlot = some slot →
    ∃ (t u : State) (e : Ember), exec i s = .next t ∧
      t = u.landS 2 1 h.d (BitVec.ofNat 64 ((myCore s).gen slot * 128 + slot)) ∧
      (t.core (coreOf s.cur)).ember slot = some e ∧
      (∀ j, j ≠ slot → (t.core (coreOf s.cur)).ember j = (myCore s).ember j) ∧
      e.vat = s.cc.vatKey ∧ e.name = h.name ∧ e.gen = (myCore s).gen slot ∧ e.prio = h.prio.val ∧
      e.owner = s.cur % 4 ∧ e.wheel = s.cc.wid ∧ e.op = op ∧ e.ba = (sv s h.a).toNat ∧
      e.seed0 = seed0 s ∧ e.seed1 = seed1 s ∧ e.prog = 0 ∧ e.began = false ∧
      (s.cc.dep = .none → e.st.cur = .pending ∧ e.pred = 0 ∧ e.predOk = true) ∧
      (∀ k, s.cc.dep = .ready k → e.st.cur = .pending ∧ e.pred = k ∧ e.predOk = true) ∧
      (∀ k, s.cc.dep = .token k → e.st.cur = .pending ∧ e.pred = k ∧ e.predOk = false) ∧
      (∀ k, s.cc.dep = .cancelled k → e.st.cur = .cancelled ∧ e.pred = k ∧ e.cause = 0x1F) ∧
      u.cc = { s.cc with dep := .none }.enqOrder none (op.kind == 2) (.fork (coreOf s.cur) slot e.uid) false ∧
      t.mem = s.mem

/-- The token that a token instruction reads, and the live ember of the vat that it names (11 R225). -/
def tokenIn (s : State) (a : SReg) : Nat := (sv s a).toNat % 2 ^ 16
def named (s : State) (a : SReg) : Option (Nat × Ember) := (myCore s).lookup s.cc.vatKey (tokenIn s a)
/-- A status word (11 Table 11.3). -/
def word (token name cause code : Nat) : Word := BitVec.ofNat 64 (token * 2 ^ 32 + name * 2 ^ 16 + cause * 2 ^ 8 + code)
/-- The status word of an ember in its own state: the cause of a fault, CANCELLED of a cancel, 0 otherwise. -/
def wordOf (e : Ember) (slot : Nat) (st : EState) : Word :=
  word (e.gen * 128 + slot) e.name.toNat (match st with | .faulted => e.cause | .cancelled => 0x1F | _ => 0) st.code
/-- The ember as the running instruction sees it (11 R229). -/
def state (s : State) (e : Ember) : EState := e.st.seen s.now
/-- A live ember of the table replaced. -/
def withEmber (slot : Nat) (e : Ember) (s : State) : State := s.updCore (coreOf s.cur) fun k => k.setEmber slot e
/-- The join of an ember: an acquire at its kind's scope (11 R247). -/
def joined (e : Ember) (s : State) : State := s.updCur fun c => c.enqOrder (some e.op.scope) false .none false
/-- Its slot is free again, its generation advanced, and the context keeps the reap record (11 R225, R226, R243). -/
def reaped (slot : Nat) (e : Ember) (s : State) : State :=
  (s.updCore (coreOf s.cur) fun k => { k with
    embers := tset k.embers slot none, gens := tset k.gens slot (if e.gen = 511 then 1 else e.gen + 1) }).updCur
    fun c => { c with reap := some (e.gen * 128 + slot, e) }

end Sys2Proof.Claims

open Sys2Proof Sys2Proof.Machine Sys2Proof.Claims

/-- 07 Table 7.1, the forms of two sources but for the shifts: each result has latency 1, those of mul and mulh 3. -/
def Sys2Proof.Claims.ScalarArithmeticResults : Prop :=
  ∀ (p q : PReg) (d a b : SReg) (sh : Fin 16),
    Gives p (.add p d a b) (scalarA 1 d fun s => sv s a + sv s b) ∧
    Gives p (.sub p d a b) (scalarA 1 d fun s => sv s a - sv s b) ∧
    Gives p (.and p d a b) (scalarA 1 d fun s => sv s a &&& sv s b) ∧
    Gives p (.or p d a b) (scalarA 1 d fun s => sv s a ||| sv s b) ∧
    Gives p (.xor p d a b) (scalarA 1 d fun s => sv s a ^^^ sv s b) ∧
    Gives p (.andn p d a b) (scalarA 1 d fun s => sv s a &&& ~~~(sv s b)) ∧
    Gives p (.min p d a b) (scalarA 1 d fun s => if (sv s a).toInt ≤ (sv s b).toInt then sv s a else sv s b) ∧
    Gives p (.max p d a b) (scalarA 1 d fun s => if (sv s a).toInt ≥ (sv s b).toInt then sv s a else sv s b) ∧
    Gives p (.lea p d a b sh) (scalarA 1 d fun s => sv s a + BitVec.ofNat 64 ((sv s b).toNat * 2 ^ sh.val)) ∧
    Gives p (.sel p d a b q) (scalarA 1 d fun s => if s.cc.pr q.val = true then sv s a else sv s b) ∧
    Gives p (.mul p d a b) (scalarA 3 d fun s => BitVec.ofNat 64 ((sv s a).toNat * (sv s b).toNat)) ∧
    Gives p (.mulh p d a b) (scalarA 3 d fun s => BitVec.ofInt 64 ((sv s a).toInt * (sv s b).toInt / 2 ^ 64))

/-- 07 Table 7.1, shifts and bit counts: a count from 64 on shifts everything out; clz of a word with n leading zero bits
and then a one bit (or none, for n = 64) is n; popc adds up the bits. -/
def Sys2Proof.Claims.ScalarShiftAndCountResults : Prop :=
  ∀ (p : PReg) (d a b : SReg),
    Gives p (.shl p d a b) (scalarA 1 d fun s =>
      if (sv s b).toNat < 64 then BitVec.ofNat 64 ((sv s a).toNat * 2 ^ (sv s b).toNat) else 0) ∧
    Gives p (.shr p d a b) (scalarA 1 d fun s =>
      if (sv s b).toNat < 64 then BitVec.ofNat 64 ((sv s a).toNat / 2 ^ (sv s b).toNat) else 0) ∧
    Gives p (.sar p d a b) (scalarA 1 d fun s =>
      if (sv s b).toNat < 64 then BitVec.ofInt 64 ((sv s a).toInt / 2 ^ (sv s b).toNat)
      else if (sv s a).msb then BitVec.allOnes 64 else 0) ∧
    (∀ s n, Issues p (.clz p d a) s → n ≤ 64 → (∀ i < n, (sv s a).getLsbD (63 - i) = false) →
      (n < 64 → (sv s a).getLsbD (63 - n) = true) →
      exec (.clz p d a) s = .next (s.landS 4 1 d (BitVec.ofNat 64 n))) ∧
    Gives p (.popc p d a) (scalarA 1 d fun s =>
      BitVec.ofNat 64 ((List.range 64).foldl (fun n i => n + ((sv s a).getLsbD i).toNat) 0))

/-- 07 Table 7.2: the AI instructions. -/
def Sys2Proof.Claims.ScalarImmediateResults : Prop :=
  ∀ (p : PReg) (d a : SReg) (imm : BitVec 25) (n : Fin 64),
    Gives p (.addi p d a imm) (scalarA 1 d fun s => sv s a + sext imm) ∧
    Gives p (.andi p d a imm) (scalarA 1 d fun s => sv s a &&& sext imm) ∧
    Gives p (.ori p d a imm) (scalarA 1 d fun s => sv s a ||| sext imm) ∧
    Gives p (.xori p d a imm) (scalarA 1 d fun s => sv s a ^^^ sext imm) ∧
    Gives p (.shli p d a n) (scalarA 1 d fun s => BitVec.ofNat 64 ((sv s a).toNat * 2 ^ n.val)) ∧
    Gives p (.shri p d a n) (scalarA 1 d fun s => BitVec.ofNat 64 ((sv s a).toNat / 2 ^ n.val)) ∧
    Gives p (.sari p d a n) (scalarA 1 d fun s => BitVec.ofInt 64 ((sv s a).toInt / 2 ^ n.val)) ∧
    Gives p (.li p d imm) (scalarA 1 d fun _ => sext imm) ∧
    Gives p (.lcat p d a imm) (scalarA 1 d fun s => BitVec.ofNat 64 ((sv s a).toNat * 2 ^ 25 + imm.toNat))

/-- 07 R141: a compare writes one predicate, true exactly when Cond(c, a, b) holds; the immediate forms compare with the
sign-extended immediate. -/
def Obligations.CompareResults : Prop :=
  ∀ (p d : PReg) (c : Cond) (a b : SReg) (imm : BitVec 25),
    Compares p (.cmp p c d a b) d (fun s => Holds c (sv s a) (sv s b)) ∧
    Compares p (.cmpiEq p d a imm) d (fun s => Holds .eq (sv s a) (sext imm)) ∧
    Compares p (.cmpiNe p d a imm) d (fun s => Holds .ne (sv s a) (sext imm)) ∧
    Compares p (.cmpiLt p d a imm) d (fun s => Holds .lt (sv s a) (sext imm)) ∧
    Compares p (.cmpiGe p d a imm) d (fun s => Holds .ge (sv s a) (sext imm)) ∧
    Compares p (.cmpiLtu p d a imm) d (fun s => Holds .ltu (sv s a) (sext imm)) ∧
    Compares p (.cmpiGeu p d a imm) d (fun s => Holds .geu (sv s a) (sext imm))

/-- 07 R143 to R146: predicate logic, bit fields by their bits, and moves between the files. A misaligned pair is no case of
these (03 R60): it is a trap. -/
def Obligations.PredicateFieldAndMoveResults : Prop :=
  ∀ (p d x y : PReg) (sd a b : SReg) (kd : KReg) (od : OReg) (e : ESize) (pos len1 : Fin 64),
    Gives p (.pand p d x y) (fun s => s.landP 4 1 d (s.cc.pr x.val && s.cc.pr y.val)) ∧
    Gives p (.por p d x y) (fun s => s.landP 4 1 d (s.cc.pr x.val || s.cc.pr y.val)) ∧
    Gives p (.pxor p d x y) (fun s => s.landP 4 1 d (s.cc.pr x.val != s.cc.pr y.val)) ∧
    (∀ s v, pos.val + len1.val + 1 ≤ 64 → Issues p (.bfx p sd a pos len1) s →
      (∀ j < 64, v.getLsbD j = (sv s a).getLsbD (pos.val + min j len1.val)) →
      exec (.bfx p sd a pos len1) s = .next (s.landS 4 1 sd v)) ∧
    (∀ s v, pos.val + len1.val + 1 ≤ 64 → Issues p (.bfxu p sd a pos len1) s →
      (∀ j < 64, v.getLsbD j = (decide (j ≤ len1.val) && (sv s a).getLsbD (pos.val + j))) →
      exec (.bfxu p sd a pos len1) s = .next (s.landS 4 1 sd v)) ∧
    (∀ s v, pos.val + len1.val + 1 ≤ 64 → Issues p (.bfi p sd a b pos len1) s →
      (∀ j < 64, v.getLsbD j = if pos.val ≤ j ∧ j ≤ pos.val + len1.val then (sv s b).getLsbD (j - pos.val)
        else (sv s a).getLsbD j) →
      exec (.bfi p sd a b pos len1) s = .next (s.landS 4 1 sd v)) ∧
    (a.val % 2 = 0 → Gives p (.kput p kd a) fun s => s.land 4 1 {
      dest := .kreg kd.val, n := 128, en := 2 ^ 128 - 1,
      value := BitVec.ofNat 1024 ((s.cc.sr a.val).toNat + 2 ^ 64 * (s.cc.sr (a.val + 1)).toNat) }) ∧
    (sd.val % 2 = 0 → Gives p (.kget p sd kd) fun s =>
      (s.landS 4 1 sd (BitVec.ofNat 64 ((s.cc.kr kd.val).toNat % 2 ^ 64))).landS 4 1 (Fin.ofNat 64 (sd.val + 1))
        (BitVec.ofNat 64 ((s.cc.kr kd.val).toNat / 2 ^ 64))) ∧
    Gives p (.oget p e sd od b) (scalarA 1 sd fun s =>
      let w := esizeBits e
      BitVec.ofNat 64 ((s.cc.or od.val).toNat / 2 ^ (w * ((sv s b).toNat % (1024 / w))) % 2 ^ w)) ∧
    Gives p (.oput p e od a b) (fun s =>
      let w := esizeBits e
      let i := (sv s b).toNat % (1024 / w)
      s.land 4 1 { dest := .oreg od.val, esz := w, n := 1024 / w, en := 2 ^ i,
                   value := BitVec.ofNat 1024 ((sv s a).toNat % 2 ^ w * 2 ^ (w * i)) })


/-- 07 Table 7.6, R147: the target a branch or call leaves for the end of its bundle, and the link to the next bundle in the
destination; the target of jmp and callr is the register as read at issue. -/
def Sys2Proof.Claims.BranchResults : Prop :=
  ∀ (p : PReg) (d a : SReg) (off : BitVec 25),
    Gives p (.br p off) (fun s => branchTo (s.cc.pc + 2 * sext off) s) ∧
    Gives p (.call p d off) (fun s => branchTo (s.cc.pc + 2 * sext off) (s.landS 3 1 d (nextBundle s))) ∧
    Gives p (.jmp p a) (fun s => branchTo (sv s a) s) ∧
    Gives p (.callr p d a) (fun s => branchTo (sv s a) (s.landS 3 1 d (nextBundle s)))

/-- 07 R149: a loop of n passes from the next bundle to the bundle its label names is set up for the end of its bundle. -/
def Sys2Proof.Claims.LoopResults : Prop :=
  ∀ (p : PReg) (a : SReg) (n : BitVec 12) (off : BitVec 25),
    Gives p (.loopi p n off) (fun s => { s with issue := { s.issue with
      loop := some ⟨nextBundle s, s.cc.pc + 2 * sext off, n.toNat⟩ } }) ∧
    Gives p (.loop p a off) (fun s => { s with issue := { s.issue with
      loop := some ⟨nextBundle s, s.cc.pc + 2 * sext off, (sv s a).toNat⟩ } })

/-- 07 R151, NextAddress: what the end of a bundle without a trap return does to the program counter and to the loop stack of
its context's level. -/
def Obligations.NextAddressFollowsLoops : Prop :=
  ∀ (s : State), s.issue.ret = false →
    let c := s.ctx s.issue.cx
    let seq := c.pc + BitVec.ofNat 64 s.issue.len
    let t := s.closeBundle.ctx s.issue.cx
    (∀ a, s.issue.branch = some a → t.pc = a ∧
      ((∀ e ∈ c.lv.loops, e.stop ≠ a) → t.lv.loops = c.lv.loops) ∧
      (∀ below e above, c.lv.loops = below ++ e :: above → e.stop = a → (∀ x ∈ below, x.stop ≠ a) → t.lv.loops = below)) ∧
    (∀ l, s.issue.branch = none → s.issue.loop = some l →
      (l.count = 0 → t.pc = l.stop ∧ t.lv.loops = c.lv.loops) ∧
      (l.count ≠ 0 → t.pc = seq ∧ t.lv.loops = c.lv.loops ++ [l])) ∧
    (s.issue.branch = none → s.issue.loop = none →
      (c.lv.loops = [] → t.pc = seq ∧ t.lv.loops = []) ∧
      (∀ rest e, c.lv.loops = rest ++ [e] →
        (e.start.toNat ≤ c.pc.toNat ∧ c.pc.toNat < e.stop.toNat ∧ seq = e.stop →
          (e.count > 1 → t.pc = e.start ∧ t.lv.loops = rest ++ [{ e with count := e.count - 1 }]) ∧
          (e.count ≤ 1 → t.pc = seq ∧ t.lv.loops = rest)) ∧
        (¬(e.start.toNat ≤ c.pc.toNat ∧ c.pc.toNat < e.stop.toNat ∧ seq = e.stop) → t.pc = seq ∧ t.lv.loops = c.lv.loops)))

/-- 07 R156 to R158, 02 R54, R55: reads of control registers, and the writes: FMT waits four more bundles in place of any
pending write, KEY, STATUS and the other registers take the value with latency 1; csrs and csrc start from the newest value. -/
def Sys2Proof.Claims.ControlRegisterWrites : Prop :=
  ∀ (p : PReg) (n : BitVec 12) (d a : SReg),
    Gives p (.csrr p n d) (fun s => s.landS 3 1 d (s.csrRead n.toNat)) ∧
    Gives p (.csrw p n a) (fun s => csrPut n.toNat (sv s a) s) ∧
    Gives p (.csrs p n a d) (fun s =>
      csrPut n.toNat (csrNewest n.toNat s ||| sv s a) (s.landS 3 1 d (s.csrRead n.toNat))) ∧
    Gives p (.csrc p n a d) (fun s =>
      csrPut n.toNat (csrNewest n.toNat s &&& ~~~(sv s a)) (s.landS 3 1 d (s.csrRead n.toNat)))

/-- 03 Table 3.5 and 17 Table 17.2: what the control registers read; 01 R10: COREID is 4 QUADID and the place in the quad; PEERID is
the lowest index whose valid entry names the die (18 R387); PARKFREE counts the reserved slots that hold no parked pane. -/
def Sys2Proof.Claims.ControlRegisterReads : Prop :=
  ∀ (s : State) (core ctx : Nat), ctx < 4 → s.cur = 4 * core + ctx →
    s.csrRead 0x000 = s.cc.fmt ∧ s.csrRead 0x001 = s.cc.key ∧ s.csrRead 0x002 = s.cc.status ∧
    s.csrRead 0x003 = BitVec.ofNat 64 (s.now - (s.modu (core / 1024)).resetAt) ∧
    s.csrRead 0x004 = (if (s.vat s.cc.wid.vat).desc.budget = 0 then BitVec.allOnes 64
      else BitVec.ofNat 64 (s.vat s.cc.wid.vat).energy) ∧
    s.csrRead 0x014 = BitVec.ofNat 64 ((s.modu (core / 1024)).modcfg.toNat % 512) ∧
    (∀ i e, (s.vat s.cc.wid.vat).peers[i]? = some e → e.valid = true → e.target = s.podDie (core / 128) →
      (∀ (j : Nat) (o : Peer), j < i → (s.vat s.cc.wid.vat).peers[j]? = some o → ¬(o.valid = true ∧ o.target = s.podDie (core / 128))) →
      s.csrRead 0x015 = BitVec.ofNat 64 i) ∧
    (∀ q : Quad, q = s.quad (core / 4) → tget q.parkHeld s.cc.wid.vat = 0 → (tget q.parkFreed s.cc.wid.vat).1 ≠ s.now →
      s.csrRead 0x022 = BitVec.ofNat 64 (tget q.parkRes s.cc.wid.vat - q.parksUsed s.cc.wid.vat)) ∧
    s.csrRead 0x024 = BitVec.ofNat 64 (2 + (s.vat s.cc.wid.vat).desc.sfu * 2 ^ 16) ∧
    s.csrRead 0x010 = BitVec.ofNat 64 ctx ∧
    s.csrRead 0x011 = BitVec.ofNat 64 (core % 128) ∧
    (∀ q j, core = 4 * q + j → j < 4 →
      s.csrRead 0x012 = BitVec.ofNat 64 (q % 32) ∧ s.csrRead 0x011 = 4 * s.csrRead 0x012 + BitVec.ofNat 64 j) ∧
    s.csrRead 0x013 = BitVec.ofNat 64 (core / 128 % 8) ∧
    s.csrRead 0x016 = BitVec.ofNat 64 (s.cc.wid.vat % 2 ^ 32) ∧
    s.csrRead 0x017 = BitVec.ofNat 64 s.cc.wid.idx ∧
    s.csrRead 0x020 = BitVec.ofNat 64 s.cc.panebase ∧ s.csrRead 0x021 = BitVec.ofNat 64 s.cc.panecnt ∧
    s.csrRead 0x023 = BitVec.ofNat 64 s.cc.dictbase ∧
    s.csrRead 0x100 = s.cc.cause ∧ s.csrRead 0x101 = s.cc.epc ∧ s.csrRead 0x102 = s.cc.tval ∧
    s.csrRead 0x103 = s.cc.tvec ∧ s.csrRead 0x104 = s.cc.saveptr ∧ s.csrRead 0x105 = BitVec.ofNat 64 s.cc.level ∧
    s.csrRead 0x106 = s.cc.tbundle

/-- 07 R154, R160, R162: a waitc that is satisfied lets its bundle issue and changes nothing; a released barrier performs its
acquire; wheel.end delivers every pending result and the wheel issues no further bundle. -/
def Sys2Proof.Claims.WaitedBarrierAndEndResults : Prop :=
  ∀ (p : PReg) (t0 t1 t2 t3 : BitVec 8) (sc : Scope),
    Gives p (.waitc p t0 t1 t2 t3) (fun s => s) ∧
    Gives p (.bar p sc) (fun s => s.updCur fun c =>
      { c with barOk := false, barIn := none }.enqOrder (some sc) (sc == Scope.pod) .none false) ∧
    Gives p (.wheelEnd p) (fun s => (s.deliverAll s.cur).updCur fun c => { c with phase := .ending })

/-- 07 R154: a waitc alone in its bundle, whose counter is above its threshold, waits: nothing changes. -/
def Sys2Proof.Claims.WaitcWaits : Prop :=
  ∀ (p : PReg) (t0 t1 t2 t3 : BitVec 8) (s : State), s.issue.active = false → s.cc.pr p.val = true →
    s.cc.marks = [] →
    ((t0.toNat ≠ 255 ∧ t0.toNat < s.cc.cnt 0) ∨ (t1.toNat ≠ 255 ∧ t1.toNat < s.cc.cnt 1) ∨
      (t2.toNat ≠ 255 ∧ t2.toNat < s.cc.cnt 2) ∨ (t3.toNat ≠ 255 ∧ t3.toNat < s.cc.cnt 3)) →
    exec (.waitc p t0 t1 t2 t3) s = .next s

/-- 16 R338: a spawn queues the next index of the vat with its argument, and stands in the queues as a release. -/
def Sys2Proof.Claims.SpawnResults : Prop :=
  ∀ (p : PReg) (a : SReg) (s : State),
    (Issues p (.wheelSpawn p a) s → ∃ t, exec (.wheelSpawn p a) s = .next t ∧ Spawned s t (sv s a) none ∧
      t.cores = s.cores) ∧
    (Issues p (.wheelSpawnCore p a) s → ∃ t, exec (.wheelSpawnCore p a) s = .next t ∧
      Spawned s t (sv s a) (some (coreOf s.cur)) ∧
      (t.core (coreOf s.cur)).molds = (s.core (coreOf s.cur)).molds.map fun m =>
        if m.st = .passed s.cur s.cc.wid then { m with st := .given s.cc.vatKey (s.vat s.cc.vatKey).next } else m)

/-- 16 R340, R341, Table 16.3: sem.sig stands in the queues as a release that signals; sem.wait takes its amount and leaves the
queue; sem.test reads the count and the saturated bit as they stood before this cycle's changes. -/
def Sys2Proof.Claims.SemaphoreResults : Prop :=
  ∀ (p : PReg) (d a : SReg) (n : BitVec 16),
    Gives p (.semSig p a n) (fun s => s.updCur fun c =>
      c.enqOrder none false (.signal (dieOf s.cur) (window s a) n.toNat) false) ∧
    (∀ s, Issues p (.semWait p a n) s → ∃ t, exec (.semWait p a n) s = .next t ∧
      ((t.die (dieOf s.cur)).sem (window s a)).cur.count = ((s.die (dieOf s.cur)).sem (window s a)).cur.count - n.toNat ∧
      (∀ j, ¬ (tget (t.die (dieOf s.cur)).waiters j).contains s.cur) ∧
      t.cc = s.cc.enqOrder (some .die) false .none false) ∧
    Gives p (.semTest p d a) (fun s =>
      let v := ((s.die (dieOf s.cur)).sem (window s a)).seen s.now
      s.landS 3 1 d (BitVec.ofNat 64 (v.count + (if v.sat then 2 ^ 32 else 0))))

/-- 17 R362: tret returns to level 0 at EPC with the level-1 results delivered, to panes of its core too, and its loop stack discarded, and
TLEVEL, written, loses its poison mark; nothing else changes in memory, the core, a quad, a die, a vat or another context; a wheel whose wheel.end had issued before the trap ends (log entry 119, DESIGN CHOICE); R374: an
invalidation is left for the context to wait for; R363: ssave stores 768 bytes of registers, srest loads them. -/
def Obligations.SystemResults : Prop :=
  ∀ (p : PReg) (a : SReg) (i : Fin 64),
    (∀ s, Issues p (.tret p) s → let c := (s.deliverAll s.cur).cc
      ∃ t, exec (.tret p) s = .next t ∧
      t.cc = { c with
        level := 0, pc := c.epc, l1 := { c.l1 with loops := [] }, marks := c.marks.filter (· != .csr 0x105),
        phase := if c.endAfter = true then .ending else c.phase, endAfter := false } ∧
      t.issue = { s.issue with ret := true } ∧ t.mem = s.mem ∧ t.poison = s.poison ∧ t.quads = s.quads ∧ t.dies = s.dies ∧
      t.vats = s.vats ∧ t.mods = s.mods ∧ t.fars = s.fars ∧ t.colls = s.colls ∧ (∀ cx, cx ≠ s.cur → t.ctx cx = s.ctx cx) ∧
      (∀ k, k ≠ coreOf s.cur → t.core k = s.core k) ∧ t.cores = (s.deliverAll s.cur).cores ∧
      ∃ l, t.core (coreOf s.cur) = { s.core (coreOf s.cur) with panes := l }) ∧
    Gives p (.xlatInvRange p i) (fun s => s.updCur fun c => { c with xinv := some (.range i.val) }) ∧
    Gives p (.xlatInvPage p a) (fun s => s.updCur fun c => { c with xinv := some (.page (sv s a).toNat) }) ∧
    Gives p (.xlatInvVat p) (fun s => s.updCur fun c => { c with xinv := some .vat }) ∧
    Gives p (.ssave p a) (fun s => s.updCur fun c => c.enq false (some 2)
      { kind := .store, ea := (s.cc.saveptr + sv s a).toNat, size := 768, unit := 4, locs := saveLocs s a,
        data := saveBytes s.cc }) ∧
    Gives p (.srest p a) (fun s => s.updCur fun c => c.enq true (some 1)
      { kind := .load .srest, ea := (s.cc.saveptr + sv s a).toNat, size := 768, unit := 4, locs := saveLocs s a })


/-- 10 R211, Table 10.2, Table 7.7: a scalar load takes its place in the load queue and raises c1; its bytes are those of the
address translated at issue; an access inside one aligned 4-byte unit is single-copy atomic as a whole, and so is ldd.w8. -/
def Sys2Proof.Claims.ScalarLoadResults : Prop :=
  ∀ (p : PReg) (d a : SReg) (off : BitVec 14) (w8 : Bool),
    Queues p (.ldb p d a off) (fun s => address s a off 1) 1 true false
      (loadPut 1 (fun _ => .scalar d.val true) fun ea => narrowUnit ea 1) ∧
    Queues p (.ldbu p d a off) (fun s => address s a off 1) 1 true false
      (loadPut 1 (fun _ => .scalar d.val false) fun ea => narrowUnit ea 1) ∧
    Queues p (.ldh p d a off) (fun s => address s a off 2) 2 true false
      (loadPut 1 (fun _ => .scalar d.val true) fun ea => narrowUnit ea 2) ∧
    Queues p (.ldhu p d a off) (fun s => address s a off 2) 2 true false
      (loadPut 1 (fun _ => .scalar d.val false) fun ea => narrowUnit ea 2) ∧
    Queues p (.ldw p d a off) (fun s => address s a off 4) 4 true false
      (loadPut 1 (fun _ => .scalar d.val true) fun ea => narrowUnit ea 4) ∧
    Queues p (.ldwu p d a off) (fun s => address s a off 4) 4 true false
      (loadPut 1 (fun _ => .scalar d.val false) fun ea => narrowUnit ea 4) ∧
    Queues p (.ldd p w8 d a off) (fun s => address s a off 8) 8 true false
      (loadPut 1 (fun _ => .scalar d.val false) fun _ => if w8 then 0 else 4)

/-- 10 R211: a scalar store takes its place in the store queue, with the bytes that its source holds at issue, low byte first,
and raises c2. -/
def Sys2Proof.Claims.ScalarStoreResults : Prop :=
  ∀ (p : PReg) (d a : SReg) (off : BitVec 14) (w8 : Bool),
    Queues p (.stb p d a off) (fun s => address s a off 1) 1 false true
      (storePut (fun s => leBytes 1 (sv s d).toNat) fun ea => narrowUnit ea 1) ∧
    Queues p (.sth p d a off) (fun s => address s a off 2) 2 false true
      (storePut (fun s => leBytes 2 (sv s d).toNat) fun ea => narrowUnit ea 2) ∧
    Queues p (.stw p d a off) (fun s => address s a off 4) 4 false true
      (storePut (fun s => leBytes 4 (sv s d).toNat) fun ea => narrowUnit ea 4) ∧
    Queues p (.std p w8 d a off) (fun s => address s a off 8) 8 false true
      (storePut (fun s => leBytes 8 (sv s d).toNat) fun _ => if w8 then 0 else 4)

/-- 10 R212 to R217: the vector, pane-row and MX loads and stores, the line operations, and pref, which changes nothing but
perhaps asks for the line that holds its address. -/
def Sys2Proof.Claims.WideLoadStoreResults : Prop :=
  ∀ (p : PReg) (w : VWidth) (t : Atomicity) (o : OReg) (m : PaneNo) (r : Fin 64) (a : SReg) (off : BitVec 14) (el8 : Bool),
    Queues p (.ldv p w t o a off) (fun s => address s a off 32) (w.bits / 8) true false
      (loadPut 0 (fun _ => .oreg o.val) fun _ => flagUnit t) ∧
    Queues p (.stv p w t o a off) (fun s => address s a off 32) (w.bits / 8) false true
      (storePut (fun s => leBytes (w.bits / 8) (s.cc.or o.val).toNat) fun _ => flagUnit t) ∧
    Queues p (.ldp p w t m r a off) (fun s => address s a off 32) (w.bits / 8) true false
      (loadPut 0 (fun s => .row (s.cc.panebase + m.val) r.val) fun _ => flagUnit t) ∧
    Queues p (.stp p w t m r a off) (fun s => address s a off 32) (w.bits / 8) false true
      (storePut (fun s => leBytes (w.bits / 8) ((s.core (coreOf s.cur)).row (s.cc.panebase + m.val) r.val).toNat)
        fun _ => flagUnit t) ∧
    (o.val % 2 = 0 → Queues p (.ldmx p el8 w o a off) (fun s => address s a off 1) (mxSize el8 w) true false
      (loadPut 0 (fun _ => .mx o.val (if el8 then 33 else 17)) fun _ => 4)) ∧
    (o.val % 2 = 0 → Queues p (.stmx p el8 w o a off) (fun s => address s a off 1) (mxSize el8 w) false true
      (storePut (fun s => mxBytes s.cc o (if el8 then 33 else 17) (w.bits / if el8 then 256 else 128)) fun _ => 4)) ∧
    Queues p (.clInv p a off) (fun s => address s a off 64 / 64 * 64) 64 true false
      (fun ea size x s => s.updCur fun c => c.enq true (some 2) { kind := .clInv, ea := ea, size := size, unit := 0, locs := x.1 }) ∧
    Queues p (.clZero p a off) (fun s => address s a off 64 / 64 * 64) 64 false true
      (storePut (fun _ => List.replicate 64 0) fun _ => 4) ∧
    (∀ s, Issues p (.pref p a off) s → ∃ u, exec (.pref p a off) s = .next u ∧ u.ctxs = s.ctxs ∧ u.mem = s.mem ∧
      u.quads = s.quads ∧ u.poison = s.poison ∧
      ∀ k, u.core k = s.core k ∨
        (k = coreOf s.cur ∧ ∃ r : Pref, u.core k = { s.core k with prefs := (s.core k).prefs ++ [r] } ∧ r.vat = s.cc.wid.vat ∧
          r.ea = address s a off 64 / 64 * 64 ∧
          ∀ locs, s.access s.cur (address s a off 64 / 64 * 64) 64 true false = .ok locs true → r.loc = some (pick locs 0)))

/-- 10 R218, R222, Table 10.7: a mark, and a fence as a mark with the release or acquire of its ordering. -/
def Sys2Proof.Claims.MarkAndFenceResults : Prop :=
  ∀ (p : PReg) (sc : Scope) (o : MemOrd),
    GivesV .mark (fun s => s.updCur fun c => c.enqOrder none false .none true) ∧
    Gives p (.fence p sc o) (fun s => s.updCur fun c =>
      c.enqOrder (if acquires o then some sc else none) (releases o && sc == .pod) .none true)

/-- 10 R219 to R221: a local atomic of either size takes its place between its release and its acquire and raises c3. -/
def Sys2Proof.Claims.AtomicResults : Prop :=
  ∀ (p : PReg) (sc : Scope) (o : MemOrd) (fa w8 : Bool) (d a b : SReg),
    let ea := fun s : State => (sv s a).toNat
    let size := if w8 then 8 else 4
    Queues p (.amoAdd p sc o w8 d a b) ea size true true (atomicPut .add sc o false d b) ∧
    Queues p (.amoSwap p sc o w8 d a b) ea size true true (atomicPut .swap sc o false d b) ∧
    Queues p (.amoAnd p sc o w8 d a b) ea size true true (atomicPut .and sc o false d b) ∧
    Queues p (.amoOr p sc o w8 d a b) ea size true true (atomicPut .or sc o false d b) ∧
    Queues p (.amoXor p sc o w8 d a b) ea size true true (atomicPut .xor sc o false d b) ∧
    Queues p (.amoMax p sc o w8 d a b) ea size true true (atomicPut .max sc o false d b) ∧
    Queues p (.amoMin p sc o w8 d a b) ea size true true (atomicPut .min sc o false d b) ∧
    Queues p (.amoCas p sc o fa w8 d a b) ea size true true (atomicPut .cas sc o (acquires o && !fa) d b)

/-- 18 R391 to R394: the far instructions; all but fst block their context until they are over; the orderings of famo are those
of Table 10.7 at scope pod, and ffence.flag carries a mark before its flag store. -/
def Obligations.FarInstructionResults : Prop :=
  ∀ (p : PReg) (o : MemOrd) (fa w8 : Bool) (d a b : SReg) (off : BitVec 14),
    let size := if w8 then 8 else 4
    Gives p (.fld p w8 d a off) (fun s => s.updCur fun c => (blocks 5 c).enq true none
      { kind := .far .ld 0 0 d.val false, ea := address s a off 1, size := size, unit := 0 }) ∧
    Gives p (.fst p w8 d a off) (fun s => s.updCur fun c => c.enq false (some 2)
      { kind := .far .st (sv s d) 0 0 false, ea := address s a off 1, size := size, unit := 0 }) ∧
    Gives p (.ffenceFlag p w8 d a off) (fun s => s.updCur fun c => (blocks 6 (c.enqOrder none false .none false)).enq false none
      { kind := .far .flag (sv s d) 0 0 false, ea := address s a off 1, size := size, unit := 0 }) ∧
    Gives p (.famoAdd p o w8 d a b) (farAtomicPut .add o false size d a b) ∧
    Gives p (.famoSwap p o w8 d a b) (farAtomicPut .swap o false size d a b) ∧
    Gives p (.famoAnd p o w8 d a b) (farAtomicPut .and o false size d a b) ∧
    Gives p (.famoOr p o w8 d a b) (farAtomicPut .or o false size d a b) ∧
    Gives p (.famoCas p o fa w8 d a b) (farAtomicPut .cas o (acquires o && !fa) size d a b)

/-- 10 R201: an access that lies whole inside the own scratchpad of a core in service is made there, whatever its rights; one
that runs past the end of that scratchpad is XLATE_MISS at the first byte after it. In the scratchpad of a core that is not in service
every access is XLATE_MISS at its own address (20 R423). -/
def Obligations.OwnScratchpadAccess : Prop :=
  ∀ (s : State) (cx ea size : Nat) (r w : Bool), 0 < size → ea < 2 ^ 20 →
    (ea + size ≤ 2 ^ 20 → s.coreAbsent (coreOf cx) = false →
      s.access cx ea size r w = .ok ((List.range size).map fun j => spadLoc (coreOf cx) (ea + j)) false) ∧
    (2 ^ 20 < ea + size → s.coreAbsent (coreOf cx) = false → s.access cx ea size r w = .trap 0x07 (2 ^ 20)) ∧
    (s.coreAbsent (coreOf cx) = true → s.access cx ea size r w = .trap 0x07 ea)


/-- 08 R169 to R171, Tables 8.2, 8.3: vector arithmetic, element by element; latency 4 for floating-point sums and comparisons,
5 for products, 2 for integers and for vabs. -/
def Obligations.VectorArithmeticResults : Prop :=
  ∀ (h : VHdr) (ty : VType) (d a b : Opnd),
    (ty.isFp = true →
      GivesV (.vadd h ty d a b) (each2 h 4 ty d a b fun s x y =>
        rounded s ty ((ty.fp.dec x).add (arithMode s.cc.fmt) (ty.fp.dec y))) ∧
      GivesV (.vsub h ty d a b) (each2 h 4 ty d a b fun s x y =>
        rounded s ty ((ty.fp.dec x).add (arithMode s.cc.fmt) (ty.fp.dec y).neg)) ∧
      GivesV (.vmul h ty d a b) (each2 h 5 ty d a b fun s x y => rounded s ty ((ty.fp.dec x).mul (ty.fp.dec y))) ∧
      GivesV (.vfma h ty d a b) (fun s =>
        s.landVec h 5 ty.bits (count h ty) (enabled h (count h ty) s) d
          (List.zipWith (fun xy z =>
            let m := (ty.fp.dec xy.1).mul (ty.fp.dec xy.2)
            let r := m.1.add (arithMode s.cc.fmt) (ty.fp.dec z)
            rounded s ty (r.1, m.2 ||| r.2))
            (List.zip (s.opnd ty (count h ty) a) (s.opnd ty (count h ty) b)) (s.opnd ty (count h ty) d)))) ∧
    (ty.isFp = false →
      GivesV (.vadd h ty d a b) (each2 h 2 ty d a b fun _ x y => ((x + y) % 2 ^ ty.bits, 0)) ∧
      GivesV (.vsub h ty d a b) (each2 h 2 ty d a b fun _ x y => ((x + 2 ^ ty.bits - y) % 2 ^ ty.bits, 0)) ∧
      GivesV (.vmul h ty d a b) (each2 h 5 ty d a b fun _ x y => (x * y % 2 ^ ty.bits, 0)) ∧
      GivesV (.vadds h ty d a b) (each2 h 2 ty d a b fun _ x y => saturated ty (ty.int x + ty.int y)) ∧
      GivesV (.vsubs h ty d a b) (each2 h 2 ty d a b fun _ x y => saturated ty (ty.int x - ty.int y)) ∧
      GivesV (.vmin h ty d a b) (each2 h 2 ty d a b fun _ x y => (if ty.int x ≤ ty.int y then x else y, 0)) ∧
      GivesV (.vmax h ty d a b) (each2 h 2 ty d a b fun _ x y => (if ty.int y < ty.int x then x else y, 0)) ∧
      GivesV (.vabs h ty d a) (each1 h 2 ty d a fun _ x => ((sgn ty.bits x).natAbs % 2 ^ ty.bits, 0))) ∧
    (ty.isFp = true →
      GivesV (.vmin h ty d a b) (each2 h 4 ty d a b fun _ x y =>
        if ty.fp.dec x = .nan ∨ ty.fp.dec y = .nan then (ty.fp.nan.getD 0, 0)
        else if (ty.fp.dec y).totalLt (ty.fp.dec x) then (y, 0) else (x, 0)) ∧
      GivesV (.vmax h ty d a b) (each2 h 4 ty d a b fun _ x y =>
        if ty.fp.dec x = .nan ∨ ty.fp.dec y = .nan then (ty.fp.nan.getD 0, 0)
        else if (ty.fp.dec y).totalLt (ty.fp.dec x) then (x, 0) else (y, 0)) ∧
      GivesV (.vabs h ty d a) (each1 h 2 ty d a fun _ x =>
        (if ty.fp.dec x = .nan then ty.fp.nan.getD 0 else x % ty.fp.signBit, 0)))

/-- 08 R172 to R174: compares write one mask bit an element, false with a NaN; mask logic acts on all 128 bits. -/
def Sys2Proof.Claims.VectorCompareAndMaskResults : Prop :=
  ∀ (h : VHdr) (ty : VType) (v1 : Bool) (d x y : KReg) (a b : Opnd),
    GivesV (.vcmpeq h ty d a b) (each2K h ty d a b fun u v => u.cmp v == some .eq) ∧
    GivesV (.vcmplt h ty d a b) (each2K h ty d a b fun u v => u.cmp v == some .lt) ∧
    GivesV (.vcmple h ty d a b) (each2K h ty d a b fun u v => u.cmp v == some .lt || u.cmp v == some .eq) ∧
    GivesV (.kand v1 d x y) (maskResult v1 d fun s => s.cc.kr x.val &&& s.cc.kr y.val) ∧
    GivesV (.kor v1 d x y) (maskResult v1 d fun s => s.cc.kr x.val ||| s.cc.kr y.val) ∧
    GivesV (.kxor v1 d x y) (maskResult v1 d fun s => s.cc.kr x.val ^^^ s.cc.kr y.val) ∧
    GivesV (.kandn v1 d x y) (maskResult v1 d fun s => s.cc.kr x.val &&& ~~~(s.cc.kr y.val))

/-- 08 R175 to R177: shifts by an element's own count, logic, moves, and the lane exchanges. -/
def Sys2Proof.Claims.VectorShiftLogicExchangeResults : Prop :=
  ∀ (h : VHdr) (ty : VType) (d a b : Opnd) (m : BitVec 15),
    let e := ty.bits
    GivesV (.vshl h ty d a b) (each2 h 2 ty d a b fun _ x c => (if c < e then x * 2 ^ c % 2 ^ e else 0, 0)) ∧
    GivesV (.vshr h ty d a b) (each2 h 2 ty d a b fun _ x c => (if c < e then x / 2 ^ c else 0, 0)) ∧
    GivesV (.vsar h ty d a b) (each2 h 2 ty d a b fun _ x c =>
      (intBits e (sgn e x / ((2 ^ (if c < e then c else e - 1) : Nat) : Int)), 0)) ∧
    GivesV (.vand h ty d a b) (each2 h 2 ty d a b fun _ x y => (x &&& y, 0)) ∧
    GivesV (.vor h ty d a b) (each2 h 2 ty d a b fun _ x y => (x ||| y, 0)) ∧
    GivesV (.vxor h ty d a b) (each2 h 2 ty d a b fun _ x y => (x ^^^ y, 0)) ∧
    GivesV (.vmov h ty d a) (each1 h 2 ty d a fun _ x => (x, 0)) ∧
    GivesV (.vbfly h ty d a m) (exchange h ty d a fun i => i ^^^ m.toNat) ∧
    GivesV (.vrot h ty d a m) (exchange h ty d a fun i => (i + m.toNat) % count h ty) ∧
    GivesV (.vbcast h ty d a m) (exchange h ty d a fun _ => m.toNat) ∧
    GivesV (.vperm h d a b) (fun s =>
      let n := h.width.bits / 8
      s.landVec h 3 8 n (enabled h n s) d ((List.range n).map fun i =>
        (pick (s.opndRaw 8 n 0 a) (pick (s.opndRaw 8 n 0 b) i % n), 0)))

/-- 08 R178 to R181: the reductions, with sums of the narrower floating-point types made in FP32, and the masked rescaling
reduction over the rows that its control names. -/
def Sys2Proof.Claims.VectorReductionResults : Prop :=
  ∀ (h : VHdr) (ty : VType) (d a b : Opnd),
    GivesV (.vredmax h ty d a) (reduction h ty d a id (minMax true ty) fun x => (canonNan ty x, 0)) ∧
    GivesV (.vredmin h ty d a) (reduction h ty d a id (minMax false ty) fun x => (canonNan ty x, 0)) ∧
    GivesV (.vredsum h .f32 d a) (reduction h .f32 d a id sumNode fun x => (canonNan .f32 x, 0)) ∧
    (ty = .bf16 ∨ ty = .f16 → GivesV (.vredsum h ty d a) (reduction h ty d a
      (fun x => (fmtF32.conv false .rne (ty.fp.dec x)).1) sumNode fun x => ty.fp.conv false .rne (fmtF32.dec x))) ∧
    (ty.isFp = false → GivesV (.vredsum h ty d a) (reduction h ty d a id
      (fun x y => ((x + y) % 2 ^ ty.bits, 0)) fun x => (x, 0))) ∧
    GivesV (.vredmask h d a b) (fun s =>
      let n := h.width.bits / 32
      let ctl := s.opndRaw 32 n 0 b
      let valid := pick ctl 0 + pick ctl 1 * 2 ^ 32
      let t := pick ctl 2 % 256
      let rows := ((List.range t).filter valid.testBit).map fun c =>
        elems 32 n ((s.core (coreOf s.cur)).row (s.cc.panebase + (rowForm a).1) ((rowForm a).2 + c)).toNat
      s.landVec h 6 32 n (enabled h n s) d ((List.range n).map fun i => rmElem (rows.map fun r => pick r i) t))

/-- 08 R182 to R187: conversions, MX blocks, and keyed words. -/
def Sys2Proof.Claims.VectorConversionResults : Prop :=
  ∀ (h : VHdr) (d a b : Opnd) (c : CvtCtl) (od oa : OReg),
    let es := fmtBits c.src.toNat
    let ed := fmtBits c.dst.toNat
    GivesV (.vcvt h d a c) (fun s =>
      let n := h.width.bits / max es ed
      s.landVec h 3 ed n (if es = 4 ∧ ed = 4 then en4 (s.cc.kr h.mask.val).toNat n else enabled h n s) d
        ((s.opndRaw es n 0 a).zipIdx.map fun (x : Nat × Nat) => (fmtOf c.dst.toNat).conv (fmtSatf s.cc.fmt)
          (rselMode s.cc.fmt c.rsel (cvtKey s.cc a x.2)) ((fmtOf c.src.toNat).dec x.1))) ∧
    (od.val % 2 = 0 → GivesV (.vmxq h od a c) fun s =>
      let n := h.width.bits / es
      let vals := (s.opndRaw es n 0 a).zipIdx.map fun (x : Nat × Nat) =>
        ((fpOf c.src.toNat).dec x.1, rselMode s.cc.fmt c.rsel (cvtKey s.cc a x.2))
      let blocks := (List.range (n / 32)).map fun j => mxQuantise (fpOf c.dst.toNat) ((vals.drop (32 * j)).take 32)
      (s.land h.slot 3 {
        dest := .oreg od.val, esz := ed, n := n, en := 2 ^ n - 1, lat := some h.v1,
        value := BitVec.ofNat 1024 (packElems ed (blocks.flatMap (·.2.1))),
        flags := blocks.foldl (fun f x => f ||| x.2.2) 0 }).land h.slot 3 {
          dest := .oreg (od.val + 1), esz := 8, n := n / 32, en := 2 ^ (n / 32) - 1,
          value := BitVec.ofNat 1024 (packElems 8 (blocks.map (·.1))) }) ∧
    (oa.val % 2 = 0 → GivesV (.vmxdq h d oa c) fun s =>
      let n := h.width.bits / ed
      let scales := elems 8 (n / 32) (s.cc.or (oa.val + 1)).toNat
      s.landVec h 3 ed n (enabled h n s) d ((elems es n (s.cc.or oa.val).toNat).zipIdx.map fun (x : Nat × Nat) =>
        (fpOf c.dst.toNat).conv (fmtSatf s.cc.fmt) (rselMode s.cc.fmt c.rsel 0)
          (mxVal (fpOf c.src.toNat) (pick scales (x.2 / 32)) x.1))) ∧
    GivesV (.vrand h d a b) (fun s =>
      let n := h.width.bits / 32
      let im := match b with | .imm v => v.toNat | _ => 0
      s.landVec h 3 32 n (enabled h n s) d (List.zipWith (fun x y =>
        ((keyMix s.cc.key (BitVec.ofNat 64 (y * 2 ^ 32 + x))).toNat / 2 ^ 32, 0)) (s.opndRaw 32 n 0 a) (s.opndRaw 32 n im b)))

/-- 09 R195, R196: the special functions of revision 1, element by element with latency 8; rcp is the rounding of the exact 1 / x. -/
def Sys2Proof.Claims.SpecialFunctionElements : Prop :=
  ∀ (h : VHdr) (ty : VType) (d a : Opnd),
    let result := fun fn => each1 h 8 ty d a fun _ x => sfu1 fn ty.fp (ty.fp.dec x)
    GivesV (.vexp2 h ty d a) (result .exp2) ∧ GivesV (.vlog2 h ty d a) (result .log2) ∧
    GivesV (.vrcp h ty d a) (result .rcp) ∧ GivesV (.vrsqrt h ty d a) (result .rsqrt) ∧
    GivesV (.vsqrt h ty d a) (result .sqrt) ∧ GivesV (.vtanh h ty d a) (result .tanh) ∧
    GivesV (.vsigmoid h ty d a) (result .sigmoid) ∧ GivesV (.vsin2pi h ty d a) (result .sin2pi) ∧
    GivesV (.vcos2pi h ty d a) (result .cos2pi) ∧
    (∀ neg m e, m ≠ 0 → sfu1 .rcp ty.fp (.fin neg m e) = ty.fp.round false .rne neg 1 m (-e))

/-- 09 Table 9.2 and R196: a NaN gives the canonical NaN without a flag; the results at the infinities, at the zeros and at finite
negative arguments outside a domain, by the codes of the three types. -/
def Sys2Proof.Claims.SpecialFunctionArguments : Prop :=
  ∀ c ∈ sfuCodes,
    let f (fn : SfuFn) (x : Nat) : Nat × Flags := sfu1 fn c.ty.fp (c.ty.fp.dec x)
    (∀ fn x, c.ty.fp.dec x = .nan → f fn x = (c.nan, 0)) ∧
    (f .exp2 (c.sign + c.inf) = (0, 0) ∧ f .exp2 c.inf = (c.inf, 0) ∧ f .exp2 c.sign = (c.one, 0) ∧ f .exp2 0 = (c.one, 0)) ∧
    (f .log2 (c.sign + c.inf) = (c.nan, fINV) ∧ f .log2 c.inf = (c.inf, 0) ∧ f .log2 c.sign = (c.sign + c.inf, 0) ∧
      f .log2 0 = (c.sign + c.inf, 0)) ∧
    (f .rcp (c.sign + c.inf) = (c.sign, 0) ∧ f .rcp c.inf = (0, 0) ∧ f .rcp c.sign = (c.sign + c.inf, 0) ∧ f .rcp 0 = (c.inf, 0)) ∧
    (f .rsqrt (c.sign + c.inf) = (c.nan, fINV) ∧ f .rsqrt c.inf = (0, 0) ∧ f .rsqrt c.sign = (c.sign + c.inf, 0) ∧
      f .rsqrt 0 = (c.inf, 0)) ∧
    (f .sqrt (c.sign + c.inf) = (c.nan, fINV) ∧ f .sqrt c.inf = (c.inf, 0) ∧ f .sqrt c.sign = (c.sign, 0) ∧ f .sqrt 0 = (0, 0)) ∧
    (f .tanh (c.sign + c.inf) = (c.sign + c.one, 0) ∧ f .tanh c.inf = (c.one, 0) ∧ f .tanh c.sign = (c.sign, 0) ∧ f .tanh 0 = (0, 0)) ∧
    (f .sigmoid (c.sign + c.inf) = (0, 0) ∧ f .sigmoid c.inf = (c.one, 0) ∧ f .sigmoid c.sign = (c.half, 0) ∧ f .sigmoid 0 = (c.half, 0)) ∧
    (f .sin2pi (c.sign + c.inf) = (c.nan, fINV) ∧ f .sin2pi c.inf = (c.nan, fINV) ∧ f .sin2pi c.sign = (c.sign, 0) ∧ f .sin2pi 0 = (0, 0)) ∧
    (f .cos2pi (c.sign + c.inf) = (c.nan, fINV) ∧ f .cos2pi c.inf = (c.nan, fINV) ∧ f .cos2pi c.sign = (c.one, 0) ∧
      f .cos2pi 0 = (c.one, 0)) ∧
    (∀ x m e, c.ty.fp.dec x = .fin true m e → m ≠ 0 →
      f .log2 x = (c.nan, fINV) ∧ f .rsqrt x = (c.nan, fINV) ∧ f .sqrt x = (c.nan, fINV))

/-- 09 R198, R199: exact values set no flag: log2 of 1 is +0, sin2pi is a zero of the argument's sign where 2x is an integer, cos2pi +0
where 4x is odd; exp2 of an integer, log2 and rcp of a power of two, sqrt of a square and the quarters of sin2pi and cos2pi are
exact. R197 and Example 9.1: overflow, underflow and a rounded value. -/
def Sys2Proof.Claims.SpecialFunctionExactValues : Prop :=
  (∀ c ∈ sfuCodes,
    let f (fn : SfuFn) (x : Nat) : Nat × Flags := sfu1 fn c.ty.fp (c.ty.fp.dec x)
    f .log2 c.one = (0, 0) ∧
    (∀ x neg m e (n : Nat), c.ty.fp.dec x = .fin neg m e → (0 ≤ e ∨ 2 * m = n * 2 ^ (-e).toNat) →
      f .sin2pi x = (if neg then c.sign else 0, 0)) ∧
    (∀ x neg m e (n : Nat), c.ty.fp.dec x = .fin neg m e → e < 0 → 4 * m = (2 * n + 1) * 2 ^ (-e).toNat → f .cos2pi x = (0, 0)) ∧
    (∀ x y neg m e (n : Nat), c.ty.fp.dec x = .fin neg m e → m * 2 ^ (e + 2000).toNat = n * 2 ^ 2000 → y < c.sign →
      IsPow2 (c.ty.fp.dec y) (if neg then -(n : Int) else n) → f .exp2 x = (y, 0)) ∧
    (∀ x y (k : Int) m e, IsPow2 (c.ty.fp.dec x) k → k ≠ 0 → y < 2 * c.sign → c.ty.fp.dec y = .fin (decide (k < 0)) m e →
      m * 2 ^ (e + 2000).toNat = k.natAbs * 2 ^ 2000 → f .log2 x = (y, 0)) ∧
    (∀ x y k, IsPow2 (c.ty.fp.dec x) k → x < c.sign → y < c.sign → IsPow2 (c.ty.fp.dec y) (-k) → f .rcp x = (y, 0)) ∧
    (∀ x y k, IsPow2 (c.ty.fp.dec x) (2 * k) → x < c.sign → y < c.sign → IsPow2 (c.ty.fp.dec y) k → f .sqrt x = (y, 0))) ∧
  (sfu1 .sin2pi fmtF32 (fmtF32.dec 0x3E800000) = (0x3F800000, 0) ∧ sfu1 .sin2pi fmtF32 (fmtF32.dec 0xBF400000) = (0x3F800000, 0) ∧
    sfu1 .cos2pi fmtF32 (fmtF32.dec 0x3F000000) = (0xBF800000, 0) ∧ sfu1 .sin2pi fmtF32 (fmtF32.dec 0xC0400000) = (0x80000000, 0) ∧
    sfu1 .sin2pi fmtF32 (fmtF32.dec 0x40200000) = (0, 0)) ∧
  (sfu1 .exp2 fmtF32 (fmtF32.dec 0x43000000) = (0x7F800000, fOVF ||| fINX) ∧ sfu1 .exp2 fmtF32 (fmtF32.dec 0xC3160000) = (0, fUNF ||| fINX) ∧
    sfu1 .exp2 fmtF32 (fmtF32.dec 0x3F000000) = (0x3FB504F3, fINX) ∧ sfu1 .rcp fmtF32 (fmtF32.dec 1) = (0x7F800000, fOVF ||| fINX) ∧
    sfu1 .exp2 fmtF16 (fmtF16.dec 0x4C00) = (0x7C00, fOVF ||| fINX) ∧
    sfu1 .sigmoid fmtF32 (fmtF32.dec 0xC3480000) = (0, fUNF ||| fINX))

/-- 08 R189 to R191: a park puts the 64 rows of the pane into a free slot and leaves the tag with it; an unpark frees the slot and the
tag and brings the rows back with latency 2. The rules do not say which free slot: that it is the lowest is the model's DESIGN CHOICE
(log entry 99). -/
def Obligations.PaneParkResults : Prop :=
  ∀ (v1 : Bool) (m : PaneNo) (tag : Fin 32) (s : State),
    (IssuesV (.panePark v1 m tag) s → ∀ k < 32, (tget (s.quad (quadOf s.cur)).parks k).isNone = true →
      (∀ j < k, (tget (s.quad (quadOf s.cur)).parks j).isSome = true) →
      ∃ t, exec (.panePark v1 m tag) s = .next t ∧ t.cc = { s.cc with tags := tset s.cc.tags tag.val k } ∧
        (∀ j, tget (t.quad (quadOf s.cur)).parks j = if j = k then some {
            vat := s.cc.vatKey, ctx := s.cur, wheel := s.cc.wid,
            img := (List.range 64).map fun r => (s.core (coreOf s.cur)).row (s.cc.panebase + m.val) r }
          else tget (s.quad (quadOf s.cur)).parks j) ∧
        t.cores = s.cores ∧ t.mem = s.mem) ∧
    (IssuesV (.paneUnpark v1 m tag) s → ∀ k x, k = tget s.cc.tags tag.val →
      tget (s.quad (quadOf s.cur)).parks k = some x →
      ∃ t u : State, exec (.paneUnpark v1 m tag) s = .next t ∧
        t = u.land (if v1 then 1 else 0) 2 { dest := .paneImg (s.cc.panebase + m.val), img := x.img } ∧
        u.cc = { s.cc with tags := tdel s.cc.tags tag.val } ∧
        (∀ j, tget (u.quad (quadOf s.cur)).parks j = if j = k then none else tget (s.quad (quadOf s.cur)).parks j) ∧
        u.cores = s.cores ∧ u.mem = s.mem)


/-- 12 R254 to R257, Table 12.2: a lease is opened where the wheel has none, or a next one behind a freed one, and otherwise
press.lease changes nothing; press.free frees the newest lease or withdraws one that counts no command, and changes nothing where every
lease is freed already; a claim holds its bank and clears it when it last belonged to another vat, and waits while another wheel holds it; a
release frees the bank at once exactly when every press ember of the wheel issued before it that names the bank is final, and is deferred
otherwise. -/
def Obligations.PressLeaseAndClaimResults : Prop :=
  ∀ (p : PReg) (bank : Bool) (s : State),
    let q := myQuad s
    let at_ := fun (f : Quad → Quad) => s.updQuad (quadOf s.cur) f
    (Issues p (.pressLease p) s →
      (q.leaseOf s.cur s.cc.wid = none → exec (.pressLease p) s = .next (at_ fun q => { q with
        leases := q.leases ++ [{ ctx := s.cur, wheel := s.cc.wid, cur := { num := q.leaseNum } }],
        leaseNum := q.leaseNum + 1 })) ∧
      (∀ l, q.leaseOf s.cur s.cc.wid = some l →
        (l.cur.freed = true ∧ l.next = none → exec (.pressLease p) s = .next (at_ fun q => { q with
          leases := putLease q.leases { l with next := some { num := q.leaseNum } }, leaseNum := q.leaseNum + 1 })) ∧
        (l.cur.freed = false ∨ l.next.isSome = true → ∃ t, exec (.pressLease p) s = .next t ∧
          t.quad (quadOf s.cur) = q ∧ t.ctxs = s.ctxs))) ∧
    (Issues p (.pressFree p) s → q.leaseOf s.cur s.cc.wid = none →
      exec (.pressFree p) s = .next ((at_ id).settleLeases (quadOf s.cur))) ∧
    (Issues p (.pressFree p) s → ∀ l, q.leaseOf s.cur s.cc.wid = some l → ∃ ls,
      exec (.pressFree p) s = .next ((at_ fun q => { q with leases := ls }).settleLeases (quadOf s.cur)) ∧
      (∀ n, l.next = some n → n.freed = true → ls = q.leases) ∧ (l.next = none → l.cur.freed = true → ls = q.leases) ∧
      (∀ n, l.next = some n → n.freed = false → n.count = 0 → ls = putLease q.leases { l with next := none }) ∧
      (∀ n, l.next = some n → n.freed = false → n.count ≠ 0 →
        ls = putLease q.leases { l with next := some { n with st := .freeing false } }) ∧
      (l.next = none → l.cur.st = .requested → l.cur.count = 0 →
        ls = q.leases.filter fun x => !(x.ctx == s.cur && x.wheel == s.cc.wid)) ∧
      (l.next = none → l.cur.st = .requested → l.cur.count ≠ 0 →
        ls = putLease q.leases { l with cur := { l.cur with st := .freeing false } }) ∧
      (l.next = none → l.cur.st = .granted → ls = putLease q.leases { l with cur := { l.cur with st := .freeing true } })) ∧
    (Issues p (.pressClaim p bank) s → ∃ t, exec (.pressClaim p bank) s = .next t ∧
      let b := (t.quad (quadOf s.cur)).bank bank
      b.holder = some (s.cur, s.cc.wid) ∧ b.release = none ∧ b.lastVat = some s.cc.vatKey ∧
      ((q.bank bank).lastVat = some s.cc.vatKey → b.acc = (q.bank bank).acc ∧ b.bad = (q.bank bank).bad) ∧
      ((q.bank bank).lastVat ≠ some s.cc.vatKey → b.acc = [] ∧ b.bad = []) ∧
      (t.quad (quadOf s.cur)).bank (!bank) = q.bank (!bank)) ∧
    (∀ cx w, (q.bank bank).holder = some (cx, w) → (cx, w) ≠ (s.cur, s.cc.wid) →
      (slotOp (.pressClaim p bank)).wait s = true) ∧
    (Issues p (.pressRelease p bank) s → (q.bank bank).holder = some (s.cur, s.cc.wid) →
      let allFinal : Prop := ∀ x ∈ (myCore s).live, x.2.issuer = s.cc.wid → x.2.ctx = s.cur → x.2.op.bank = some bank →
        x.2.order < (myCore s).order → x.2.st.cur.final = true
      ∃ t, exec (.pressRelease p bank) s = .next t ∧ t.mem = s.mem ∧ t.ctxs = s.ctxs ∧
      let b := (t.quad (quadOf s.cur)).bank bank
      b.acc = (q.bank bank).acc ∧ b.bad = (q.bank bank).bad ∧ b.lastVat = (q.bank bank).lastVat ∧
      (t.quad (quadOf s.cur)).bank (!bank) = q.bank (!bank) ∧
      (allFinal → b.holder = none ∧ b.release = none) ∧
      (¬allFinal → b.holder = some (s.cur, s.cc.wid) ∧ b.release = some (myCore s).order))

/-- 11 R225 to R231, 12 R258, 13 R277, 18 R396, R406: every ember command creates its ember, with the seeds of its pair where
it has one. That the ember carries the predecessor which an earlier emb.after named, and is ready or cancelled by it, is the model's
reading (log entry 29, DEDUCED). -/
def Obligations.EmberCommandResults : Prop :=
  ∀ (p : PReg) (c : EcHdr) (b : SReg) (bank sparse snap acc : Bool) (hoop bb : Fin 64),
    let none_ := fun _ : State => (0 : Word)
    let first := fun s : State => sv s b
    let second := fun s : State => s.cc.sr (b.val + 1)
    (b.val % 2 = 0 →
      CreatesEmber p (.pressStatNorth p c b snap) c (.stat false snap) first second ∧
      CreatesEmber p (.pressStatWest p c b snap) c (.stat true snap) first second ∧
      CreatesEmber p (.pressRun p c b bank sparse snap) c (.run bank sparse snap) first second ∧
      CreatesEmber p (.pressDrain p c b bank acc) c (.drain bank acc) first second) ∧
    CreatesEmber p (.pressZero p c bank) c (.zero bank) none_ none_ ∧
    CreatesEmber p (.copy p c snap) c (.copy 0 false snap) none_ none_ ∧
    (hoop ≠ 0 → CreatesEmber p (.copyHoop p c hoop snap) c (.copy hoop.val false snap) none_ none_) ∧
    CreatesEmber p (.copyBb p c bb snap) c (.copy bb.val true snap) none_ none_ ∧
    CreatesEmber p (.coll p c) c .coll none_ none_ ∧
    CreatesEmber p (.caveUpd p c b) c .cave first none_

/-- An ember's record as emb.info shows it: one that became final in this cycle has its cause, fault address and progress word of before
(11 R229). -/
def Sys2Proof.Claims.shown (s : State) (e : Ember) : Ember :=
  if e.st.at_ = s.now ∧ e.st.cur.final = true then { e with cause := e.cause0, faddr := e.faddr0, prog := e.prog0 } else e

/-- 11 Tables 11.4, 11.5: a token that names no live ember of the vat gives STALE, and a context that does not own the ember
NOTOWNER; nothing but the destination is written, but that emb.after drops the dependence that stood before. emb.info of a
token that names none answers the context's reap record where it is of that token. That a STALE or NOTOWNER word has cause 0 is log entry
98. -/
def Sys2Proof.Claims.TokenRefusals : Prop :=
  ∀ (p : PReg) (d a : SReg) (n : Fin 4),
    let staleAs := fun i (f : State → State) => ∀ s, Issues p i s → named s a = none →
      exec i s = .next ((f s).landS 2 1 d (word (tokenIn s a) 0 0 0x10))
    let stale := fun i => staleAs i id
    let notOwner := fun i => ∀ s slot e, Issues p i s → named s a = some (slot, e) → e.owner ≠ s.cur % 4 →
      exec i s = .next (s.landS 2 1 d (word (e.gen * 128 + slot) e.name.toNat 0 0x11))
    stale (.embWait p d a) ∧ stale (.embWaitTrap p d a) ∧ stale (.embTest p d a) ∧ stale (.embCancel p d a) ∧
    stale (.embDetach p d a) ∧ stale (.embPrio p d a n) ∧
    staleAs (.embAfter p d a) (fun s => s.updCur fun c => { c with dep := .none }) ∧
    notOwner (.embWait p d a) ∧ notOwner (.embWaitTrap p d a) ∧ notOwner (.embCancel p d a) ∧
    notOwner (.embDetach p d a) ∧ notOwner (.embPrio p d a n) ∧
    (d.val % 4 = 0 → ∀ s, Issues p (.embInfo p d a) s → named s a = none →
      (∀ e, s.cc.reap = some (tokenIn s a, e) → let v := shown s e
        exec (.embInfo p d a) s = .next (s.landQuad d
        (wordOf v (tokenIn s a % 128) (state s e)) (BitVec.ofNat 64 v.faddr) (BitVec.ofNat 64 v.prog)
        (BitVec.ofNat 64 (e.owner * 2 ^ 20 + e.op.kind * 2 ^ 18 + e.prio * 2 ^ 16 + e.pred)))) ∧
      ((∀ e, s.cc.reap ≠ some (tokenIn s a, e)) → exec (.embInfo p d a) s =
        .next (s.landQuad d (word (tokenIn s a) 0 0 0x10) 0 0 0)))

/-- 11 R235 to R243: the token instructions on an ember that the context may act on. That emb.cancel answers the final state which the
ember took earlier in the same cycle, and that a BUSY or NOTOWNER word has cause 0, is the model's reading (log entry 98, DEDUCED). -/
def Sys2Proof.Claims.TokenUses : Prop :=
  ∀ (p : PReg) (d a : SReg) (n : Fin 4) (name : BitVec 16) (s : State) (slot : Nat) (e : Ember),
    let st := state s e
    let lands := fun (w : Word) (t : State) => t.landS 2 1 d w
    (named s a = some (slot, e) → e.owner = s.cur % 4 →
      (Issues p (.embWait p d a) s →
        exec (.embWait p d a) s = .next (lands (wordOf e slot st) (joined e (reaped slot e s)))) ∧
      (Issues p (.embWaitTrap p d a) s →
        exec (.embWaitTrap p d a) s = .next (lands (wordOf e slot st) (joined e (reaped slot e s)))) ∧
      (Issues p (.embCancel p d a) s →
        (st.final = true → exec (.embCancel p d a) s = .next (lands (wordOf e slot st) s)) ∧
        (st.final = false → e.st.cur.final = true → exec (.embCancel p d a) s = .next (lands (wordOf e slot e.st.cur) s)) ∧
        (st.final = false → e.st.cur.final = false → e.began = false → exec (.embCancel p d a) s =
          .next (lands (if e.struck = true then wordOf { e with cause := 0x18 } slot .faulted else wordOf e slot .cancelled)
            (s.finishEmber (coreOf s.cur) slot .cancelled 0x1F 0 0))) ∧
        (e.st.cur.final = false → e.began = true → st = .pending → e.struck = false → ∃ u x, exec (.embCancel p d a) s =
          .next (lands (wordOf e slot .cancelled) u) ∧ (u.core (coreOf s.cur)).ember slot = some x ∧ x.st.cur = .cancelled ∧
          x.cause = 0x1F ∧ u.mem = s.mem) ∧
        (st.final = false → e.st.cur.final = false → e.began = true → st ≠ .pending → 2 ≤ e.op.kind → exec (.embCancel p d a) s =
          .next (lands (word (e.gen * 128 + slot) e.name.toNat 0 0x13) s)) ∧
        (st.final = false → e.st.cur.final = false → e.began = true → st ≠ .pending → e.op.kind < 2 → exec (.embCancel p d a) s =
          .next (lands (wordOf e slot .running) (withEmber slot { e with cancel := true, cancelAt := s.now } s)))) ∧
      (Issues p (.embDetach p d a) s → exec (.embDetach p d a) s =
        .next (lands (wordOf e slot st) (withEmber slot { e with owner := 4 } s))) ∧
      (Issues p (.embPrio p d a n) s →
        (st.final = true → exec (.embPrio p d a n) s = .next (lands (wordOf e slot st) s)) ∧
        (st.final = false → exec (.embPrio p d a n) s =
          .next (lands (wordOf e slot st) (withEmber slot { e with prio := n.val } s))))) ∧
    (named s a = some (slot, e) →
      (Issues p (.embTest p d a) s → exec (.embTest p d a) s =
        .next (lands (wordOf e slot st) (if st.final = true then joined e s else s))) ∧
      (d.val % 4 = 0 → Issues p (.embInfo p d a) s → let v := shown s e
        exec (.embInfo p d a) s = .next (s.landQuad d (wordOf v slot st)
        (BitVec.ofNat 64 v.faddr) (BitVec.ofNat 64 v.prog)
        (BitVec.ofNat 64 (e.owner * 2 ^ 20 + e.op.kind * 2 ^ 18 + e.prio * 2 ^ 16 + e.pred)))) ∧
      (Issues p (.embAfter p d a) s → ∃ u, exec (.embAfter p d a) s = .next (lands (wordOf e slot st) u) ∧
        u.cc.dep = (match e.st.cur with
          | .done => if st = .done then .none else .ready (tokenIn s a)
          | .faulted => .cancelled (tokenIn s a) | .cancelled => .cancelled (tokenIn s a)
          | _ => .token (tokenIn s a)) ∧ u.cores = s.cores ∧ u.mem = s.mem)) ∧
    (Issues p (.embAdopt p d name) s →
      ((myCore s).findName s.cc.vatKey name = none ∨ ((myCore s).findName s.cc.vatKey name = some (slot, e) ∧ e.fenced = true) →
        exec (.embAdopt p d name) s = .next (lands (word 0 name.toNat 0 0x12) s)) ∧
      ((myCore s).findName s.cc.vatKey name = some (slot, e) → e.fenced = false → e.owner ≠ 4 →
        exec (.embAdopt p d name) s = .next (lands (word (e.gen * 128 + slot) e.name.toNat 0 0x11) s)) ∧
      ((myCore s).findName s.cc.vatKey name = some (slot, e) → e.fenced = false → e.owner = 4 → ∃ x,
        exec (.embAdopt p d name) s = .next (lands (wordOf e slot
          (if st = .orphaned then (if e.began = true then .running else .pending) else st)) (withEmber slot x s)) ∧ x.owner = s.cur % 4 ∧ x.wheel = s.cc.wid ∧
        (e.st.cur = .orphaned → x.st.cur = if e.began then .running else .pending) ∧
        (e.st.cur ≠ .orphaned → x.st = e.st)))

/-- 13 R294 to R297: the hoop instructions. -/
def Sys2Proof.Claims.HoopResults : Prop :=
  ∀ (p : PReg) (i : Fin 64) (d a b : SReg) (s : State),
    let quad := quadOf s.cur
    let now := ((myQuad s).hoop i.val).cur
    let seen := ((myQuad s).hoop i.val).seen s.now
    (Issues p (.hoopInit p i a b) s →
      let z := (sv s b).toNat % 16
      let c := (sv s b).toNat / 16 % 8
      ∀ loc, s.hoopBase (sv s a).toNat (2 ^ (z + 8)) (2 ^ (z + 8 + c)) = some loc →
        exec (.hoopInit p i a b) s = .next (s.putHoop quad i.val { owner := some s.cc.vatKey, base := loc, z := z, c := c })) ∧
    (Issues p (.hoopAwait p d i) s → exec (.hoopAwait p d i) s = .next
      ((s.updCur fun c => c.enqOrder (some .quad) false .none false).landS 2 1 d (BitVec.ofNat 64 seen.rd))) ∧
    (Issues p (.hoopRel p i) s → exec (.hoopRel p i) s = .next
      ((s.putHoop quad i.val { now with
        st := tset now.st now.rd .releasing, rd := (now.rd + 1) % 2 ^ now.c }).updCur fun c =>
          c.enqOrder none false (.hoopRel quad i.val now.rd) false)) ∧
    (Issues p (.hoopQuery p d i) s →
      (seen.owner = some s.cc.vatKey → exec (.hoopQuery p d i) s = .next (s.landS 2 1 d (BitVec.ofNat 64
        (seen.rd + 2 ^ 8 * seen.wr + 2 ^ 16 * seen.filled + 2 ^ 24 * seen.c + 2 ^ 28 * seen.z + 2 ^ 32)))) ∧
      (seen.owner ≠ some s.cc.vatKey → exec (.hoopQuery p d i) s = .next (s.landS 2 1 d 0)))

/-- 13 R298 to R301: the byte barriers. bb.expect arms and adds its count, and the phase turns at once when that completes it;
bb.arrive is accepted behind a release; bb.wait and bb.expect take a free barrier for the vat. -/
def Sys2Proof.Claims.ByteBarrierResults : Prop :=
  ∀ (p : PReg) (i : Fin 64) (d a : SReg) (s : State),
    let quad := quadOf s.cur
    let now := ((myQuad s).bb i.val).cur
    let seen := ((myQuad s).bb i.val).seen s.now
    let n := (sv s a).toNat % 2 ^ 32
    (Issues p (.bbExpect p d i a) s → now.expected + n < 2 ^ 32 → now.arrived ≤ now.expected + n →
      (now.arrived = now.expected + n → exec (.bbExpect p d i a) s = .next ((s.putBb quad i.val { now with
        owner := some s.cc.vatKey, expected := 0, arrived := 0, armed := false, phase := !now.phase }).landS 2 1 d
          (BitVec.ofNat 64 now.phase.toNat))) ∧
      (now.arrived ≠ now.expected + n → exec (.bbExpect p d i a) s = .next ((s.putBb quad i.val { now with
        owner := some s.cc.vatKey, expected := now.expected + n, armed := true }).landS 2 1 d
          (BitVec.ofNat 64 now.phase.toNat)))) ∧
    (Issues p (.bbArrive p i a) s → ∃ t, exec (.bbArrive p i a) s = .next t ∧
      tget (t.quad quad).bbAcc i.val = tget (myQuad s).bbAcc i.val ++ [{ id := s.uid, core := coreOf s.cur, n := n }] ∧
      ((t.quad quad).bb i.val).cur = { now with owner := some s.cc.vatKey } ∧
      t.cc = s.cc.enqOrder none false (.bbArrive quad i.val s.uid) false) ∧
    (Issues p (.bbWait p i a) s → ∃ t, exec (.bbWait p i a) s = .next t ∧
      ((t.quad quad).bb i.val).cur = { now with owner := some (now.owner.getD s.cc.vatKey) } ∧
      t.cc = s.cc.enqOrder (some .quad) false .none false) ∧
    (d.val % 2 = 0 → Issues p (.bbQuery p d i) s →
      (seen.owner = some s.cc.vatKey → exec (.bbQuery p d i) s = .next
        ((s.landS 2 1 d (BitVec.ofNat 64 (seen.expected * 2 ^ 32 + seen.arrived))).landS 2 1 (Fin.ofNat 64 (d.val + 1))
          (BitVec.ofNat 64 (seen.phase.toNat + 2 * seen.armed.toNat + 4 * seen.broken.toNat + 8)))) ∧
      (seen.owner ≠ some s.cc.vatKey → exec (.bbQuery p d i) s = .next
        ((s.landS 2 1 d 0).landS 2 1 (Fin.ofNat 64 (d.val + 1)) 0)))

/-- n granules from f on are reserved for the vat on the core and belong to no mold (13 R303). -/
def Sys2Proof.Claims.FreeRun (k : Core) (vat n f : Nat) : Prop :=
  ∀ i < n, f + i ∈ tget k.moldRes vat ∧ ∀ m ∈ k.molds, f + i < m.first ∨ m.first + m.count ≤ f + i

/-- 13 R303, Table 13.8: mold.get allocates the lowest run of free granules, takes the oldest mold given to the wheel for a
count of 0, and gives 0xFFFF where there is none; mold.pass and mold.free act on a mold of the wheel. -/
def Sys2Proof.Claims.MoldResults : Prop :=
  ∀ (p : PReg) (d a : SReg) (s : State),
    let k := myCore s
    let core := coreOf s.cur
    let n := (sv s a).toNat
    let h := n % 2 ^ 16
    let handle := fun first count : Nat => BitVec.ofNat 64 (first * 256 + (count - 1))
    ((∀ g ∈ tget k.moldRes s.cc.vatKey, g < 256) → n ≠ 0 → ∀ f, k.moldRun s.cc.vatKey n = some f →
      FreeRun k s.cc.vatKey n f ∧ ∀ j < f, ¬FreeRun k s.cc.vatKey n j) ∧
    ((∀ g ∈ tget k.moldRes s.cc.vatKey, g < 256) → n ≠ 0 → k.moldRun s.cc.vatKey n = none → ∀ j, ¬FreeRun k s.cc.vatKey n j) ∧
    (Issues p (.moldGet p d a) s → n ≠ 0 →
      (∀ f, k.moldRun s.cc.vatKey n = some f → exec (.moldGet p d a) s = .next ((s.setCore core { k with
        molds := k.molds ++ [{ first := f, count := n, vat := s.cc.vatKey, st := .owned s.cur s.cc.wid }] }).landS 2 1 d
          (handle f n))) ∧
      (k.moldRun s.cc.vatKey n = none → exec (.moldGet p d a) s = .next (s.landS 2 1 d 0xFFFF))) ∧
    (Issues p (.moldGet p d a) s → n = 0 →
      let given := k.molds.filter fun m => m.vat == s.cc.vatKey && m.st == .given s.cc.vatKey s.cc.wid.idx
      (given = [] → exec (.moldGet p d a) s = .next (s.landS 2 1 d 0xFFFF)) ∧
      (∀ m, given.find? (fun m => given.all fun x => decide (m.order ≤ x.order)) = some m →
        exec (.moldGet p d a) s = .next ((s.setCore core { k with
          molds := k.molds.map fun x => if x = m then { m with st := .owned s.cur s.cc.wid } else x }).landS 2 1 d
            (handle m.first m.count)))) ∧
    (∀ m, s.ownedMold h = some m →
      (Issues p (.moldPass p a) s → exec (.moldPass p a) s = .next (s.updCore core fun k => { k with
        molds := k.molds.map (fun x => if x = m then { m with st := .passed s.cur s.cc.wid, order := k.order } else x),
        order := k.order + 1 })) ∧
      (Issues p (.moldFree p a) s → exec (.moldFree p a) s = .next (s.updCore core fun k => { k with
        molds := k.molds.filter (· != m) })))


/-- 17 R356, TakeTrap at level 0 with a handler: what is due to the trapping bundle is delivered first; then CAUSE holds the
code and the slot, EPC and TBUNDLE the trapping bundle, TVAL the value, TLEVEL is 1, the pc is TVEC, and the level-1 loop
stack is empty; the registers written lose their poison marks (20 Table 20.1), and the far trap of a wheel whose wheel.end had issued
sets that end aside until the return (log entry 119, DESIGN CHOICE); the core's panes hold what was delivered, and nothing else changes, in
no other context, core, quad, die, vat or module. -/
def Obligations.TrapEntry : Prop :=
  ∀ (s : State) (t : Trap),
    let u := s.deliverDue s.cur
    u.cc.level = 0 → u.cc.tvec ≠ 0 →
      (s.takeTrap t).cc = { u.cc with
        cause := BitVec.ofNat 64 (t.code + 256 * t.slot), epc := s.cc.pc, tbundle := s.cc.pc,
        tval := BitVec.ofNat 64 t.tval, level := 1, pc := u.cc.tvec, l1 := { u.cc.l1 with loops := [] },
        phase := if u.cc.phase = .ending then .running else u.cc.phase, endAfter := u.cc.phase == .ending,
        marks := u.cc.marks.filter fun m => !([RegId.csr 0x100, .csr 0x101, .csr 0x102, .csr 0x105, .csr 0x106].contains m) } ∧
      (∀ cx, cx ≠ s.cur → (s.takeTrap t).ctx cx = s.ctx cx) ∧
      (s.takeTrap t).mem = s.mem ∧ (s.takeTrap t).poison = s.poison ∧ (s.takeTrap t).quads = s.quads ∧ (s.takeTrap t).vats = s.vats ∧
      (s.takeTrap t).dies = s.dies ∧ (s.takeTrap t).mods = s.mods ∧ (s.takeTrap t).fars = s.fars ∧ (s.takeTrap t).colls = s.colls ∧
      (s.takeTrap t).cores = u.cores ∧ (∀ k, k ≠ coreOf s.cur → (s.takeTrap t).core k = s.core k) ∧
      ∃ l, (s.takeTrap t).core (coreOf s.cur) = { s.core (coreOf s.cur) with panes := l }

/-- 17 R357: a trap taken at level 1 ends the wheel by fault: an entry of the completion record carries its cause and TVAL,
and the state of level 0, its frozen results among it, is discarded. A fetch at level 1 that traps is such a trap. Without a
handler (TVEC 0) a trap at level 0 ends the wheel the same way (R356). -/
def Obligations.TrapWithoutHandlerEndsWheel : Prop :=
  (∀ (s : State) (t : Trap), s.cc.level = 1 ∨ (s.deliverDue s.cur).cc.tvec = 0 →
    (s.takeTrap t).cc.phase = .faulting ∧ (s.takeTrap t).cc.endFault = some (t.code, t.tval) ∧
    (s.takeTrap t).cc.l0.land = [] ∧ (s.takeTrap t).cc.l0.fmtp = none ∧ (s.takeTrap t).cc.l0.loops = [] ∧
    (s.takeTrap t).cc.l1.land = [] ∧ (s.takeTrap t).cc.l1.fmtp = none ∧ (s.takeTrap t).cc.l1.loops = [] ∧
    ((s.vat s.cc.vatKey).entries.length < 12 →
      ((s.takeTrap t).vat s.cc.vatKey).entries = (s.vat s.cc.vatKey).entries ++ [{
        addr := t.tval, who := s.cc.wid.idx, core := coreId (coreOf s.cur), die := dieOf s.cur % 8, cause := t.code }])) ∧
  (∀ (s : State) (core : Nat) (t : Trap), let u := s.atIssue (4 * core + (s.core core).sel)
    s.issue.active = false → s.coreLive core = true → (s.core core).switching = false → u.fate = .trap [] none t →
    u.cc.level = 1 → ∃ r, exec (.bundleIssue core) s = .next r ∧
      (r.ctx (4 * core + (s.core core).sel)).phase = .faulting ∧
      (r.ctx (4 * core + (s.core core).sel)).endFault = some (t.code, t.tval))

/-- 07 R161: brk raises BREAK with its immediate as TVAL; the trap is the instruction's effect (17 R356). -/
def Obligations.BreakTraps : Prop :=
  ∀ (p : PReg) (imm : BitVec 16) (s : State), s.issue.active = false → s.cc.pr p.val = true →
    s.cc.marks.contains (.p p) = false →
    exec (.brk p imm) s = .next ((s.leaveWaits s.cur).takeTrap ⟨0x0B, 3, imm.toNat⟩) ∧
    (let u := s.deliverDue s.cur
     u.cc.level = 0 → u.cc.tvec ≠ 0 → ∃ t, exec (.brk p imm) s = .next t ∧ t.cc.cause = 0x30B ∧
      t.cc.epc = s.cc.pc ∧ t.cc.tbundle = s.cc.pc ∧ t.cc.tval = BitVec.setWidth 64 imm ∧ t.cc.level = 1 ∧ t.cc.pc = u.cc.tvec ∧
      (∀ n, t.cc.sr n = u.cc.sr n) ∧ t.mem = s.mem)

/-- 05 R118, 03 R76, 17 R360: at level 0 the system instructions, and every access to a control register 0x100 to 0x1FF, trap
with PRIVILEGED, whatever their predicate; TVAL is the opcode or the register's number. -/
def Sys2Proof.Claims.PrivilegedTraps : Prop :=
  ∀ (p : PReg) (n : BitVec 12) (d a : SReg) (i : Fin 64),
    let traps := fun (ins : Instr) (tval : Nat) => ∀ s : State, s.issue.active = false → s.cc.level = 0 →
      exec ins s = .next ((s.leaveWaits s.cur).takeTrap ⟨0x05, 3, tval⟩)
    traps (.tret p) 0x30 ∧ traps (.xlatInvRange p i) 0x31 ∧ traps (.xlatInvPage p a) 0x31 ∧ traps (.xlatInvVat p) 0x31 ∧
    traps (.ssave p a) 0x32 ∧ traps (.srest p a) 0x33 ∧
    (0x100 ≤ n.toNat → n.toNat < 0x200 →
      traps (.csrr p n d) n.toNat ∧ traps (.csrw p n a) n.toNat ∧ traps (.csrs p n a d) n.toNat ∧ traps (.csrc p n a d) n.toNat)

/-- 03 R60, R62: a pane outside the wheel's window and a register group that is not aligned trap with OPERAND_RANGE, TVAL 0,
whatever the predicate. -/
def Sys2Proof.Claims.OperandRangeTraps : Prop :=
  ∀ (p : PReg) (h : VHdr) (ty : VType) (c : EcHdr) (d a b : SReg) (k : KReg) (m : PaneNo) (r : Fin 64) (off : BitVec 14)
    (od oa : OReg) (x : Opnd) (cv : CvtCtl) (v1 bank acc : Bool) (tag : Fin 32) (w : VWidth) (at_ : Atomicity) (bb : Fin 64),
    let traps := fun (ins : Instr) (slot : Nat) => ∀ s : State, s.issue.active = false →
      exec ins s = .next ((s.leaveWaits s.cur).takeTrap ⟨0x04, slot, 0⟩)
    let outside := fun (ins : Instr) (slot : Nat) => ∀ s : State, s.issue.active = false → s.cc.panecnt ≤ m.val →
      exec ins s = .next ((s.leaveWaits s.cur).takeTrap ⟨0x04, slot, 0⟩)
    (a.val % 2 = 1 → traps (.kput p k a) 4) ∧ (d.val % 2 = 1 → traps (.kget p d k) 4) ∧
    (d.val % 4 ≠ 0 → traps (.embInfo p d a) 2) ∧ (d.val % 2 = 1 → traps (.bbQuery p d bb) 2) ∧
    (b.val % 2 = 1 → traps (.pressDrain p c b bank acc) 2) ∧
    (od.val % 2 = 1 → traps (.vmxq h od x cv) h.slot) ∧ (oa.val % 2 = 1 → traps (.vmxdq h x oa cv) h.slot) ∧
    outside (.ldp p w at_ m r a off) 5 ∧ outside (.stp p w at_ m r a off) 6 ∧
    outside (.panePark v1 m tag) (if v1 then 1 else 0) ∧ outside (.paneUnpark v1 m tag) (if v1 then 1 else 0) ∧
    (b.val % 2 = 1 → ∀ snap sparse, traps (.pressStatNorth p c b snap) 2 ∧ traps (.pressStatWest p c b snap) 2 ∧
      traps (.pressRun p c b bank sparse snap) 2) ∧
    (od.val % 2 = 1 → ∀ el8, traps (.ldmx p el8 w od a off) 5 ∧ traps (.stmx p el8 w od a off) 6) ∧
    (∀ (u v : Opnd) (j : BitVec 15), let names := fun y : Opnd => ∃ dir i, y = .main dir m i
      let out := fun i : Instr => outside i h.slot
      (names u ∨ names v ∨ names x → out (.vadd h ty u v x) ∧ out (.vsub h ty u v x) ∧ out (.vmul h ty u v x) ∧ out (.vfma h ty u v x) ∧
        out (.vadds h ty u v x) ∧ out (.vsubs h ty u v x) ∧ out (.vmin h ty u v x) ∧ out (.vmax h ty u v x) ∧ out (.vshl h ty u v x) ∧
        out (.vshr h ty u v x) ∧ out (.vsar h ty u v x) ∧ out (.vand h ty u v x) ∧ out (.vor h ty u v x) ∧ out (.vxor h ty u v x) ∧
        out (.vperm h u v x) ∧ out (.vredmask h u v x) ∧ out (.vrand h u v x)) ∧
      (names u ∨ names v → out (.vabs h ty u v) ∧ out (.vmov h ty u v) ∧ out (.vcmpeq h ty k u v) ∧ out (.vcmplt h ty k u v) ∧
        out (.vcmple h ty k u v) ∧ out (.vbfly h ty u v j) ∧ out (.vrot h ty u v j) ∧ out (.vbcast h ty u v j) ∧ out (.vredsum h ty u v) ∧
        out (.vredmax h ty u v) ∧ out (.vredmin h ty u v) ∧ out (.vcvt h u v cv) ∧ out (.vexp2 h ty u v) ∧ out (.vlog2 h ty u v) ∧
        out (.vrcp h ty u v) ∧ out (.vrsqrt h ty u v) ∧ out (.vsqrt h ty u v) ∧ out (.vtanh h ty u v) ∧ out (.vsigmoid h ty u v) ∧
        out (.vsin2pi h ty u v) ∧ out (.vcos2pi h ty u v)) ∧
      (names u → out (.vmxq h od u cv) ∧ out (.vmxdq h u oa cv)))

/-- Alone in its bundle, its predicate true and its sources unpoisoned, an instruction takes the precise trap given. -/
def Sys2Proof.Claims.Traps (p : PReg) (ins : Instr) (srcs : List SReg) (slot : Nat) (cond : State → Nat → Nat → Prop) : Prop :=
  ∀ (s : State) code tval, s.issue.active = false → s.cc.pr p.val = true → s.cc.marks.contains (.p p) = false →
    (∀ r ∈ srcs, s.cc.marks.contains (.s r) = false) → cond s code tval →
    exec ins s = .next ((s.leaveWaits s.cur).takeTrap ⟨code, slot, tval⟩)

/-- 11 R231, 12 R254: the traps of an ember command's block, in their order: a block address that is no multiple of 64 (ALIGN),
a block not wholly inside one scratchpad (XLATE_MISS), a name that a live ember of the vat on the core holds (OPERAND_RANGE,
TVAL the name), and, for a press command, a wheel without a lease that still takes one (PRESS_LEASE). -/
def Sys2Proof.Claims.EmberCommandTraps : Prop :=
  ∀ (p : PReg) (c : EcHdr) (b : SReg) (bank acc snap sparse : Bool) (t : Fin 64), b.val % 2 = 0 →
    let block := fun (ins : Instr) (srcs : List SReg) (size : Nat) (press : Bool) =>
      Traps p ins (c.a :: srcs) 2 fun s code tval =>
        let ba := (sv s c.a).toNat
        let named := ∃ x ∈ (s.core (coreOf s.cur)).live, x.2.vat = s.cc.vatKey ∧ x.2.name = c.name
        (ba % 64 ≠ 0 ∧ code = 0x06 ∧ tval = ba) ∨
        (ba % 64 = 0 ∧ inOneSpad ba size = false ∧ code = 0x07 ∧ tval = ba) ∨
        (ba % 64 = 0 ∧ inOneSpad ba size = true ∧ named ∧ code = 0x04 ∧ tval = c.name.toNat) ∨
        (ba % 64 = 0 ∧ inOneSpad ba size = true ∧ ¬named ∧ press = true ∧
          (s.quad (quadOf s.cur)).leaseTakes s.cur s.cc.wid = false ∧ code = 0x12 ∧ tval = 0)
    let pair := [b, Fin.ofNat 64 (b.val + 1)]
    block (.pressStatNorth p c b snap) pair 64 true ∧ block (.pressStatWest p c b snap) pair 64 true ∧
    block (.pressRun p c b bank sparse snap) pair 64 true ∧ block (.pressDrain p c b bank acc) pair 64 true ∧
    block (.pressZero p c bank) [] 64 true ∧ block (.copy p c snap) [] 128 false ∧ block (.copyHoop p c t snap) [] 128 false ∧
    block (.copyBb p c t snap) [] 128 false ∧ block (.coll p c) [] 64 false ∧ block (.caveUpd p c b) [b] 64 false

/-- 10 R210, 07 R153: a waitc whose thresholds are met takes DATA_POISON for the first record of its level whose operation
they imply complete, TVAL being the record's address, and the record is cleared. That of several due records the oldest alone is raised
and cleared is the model's reading (log entry 46, DEDUCED; log entry 48 for the records a level keeps). -/
def Sys2Proof.Claims.PoisonRecordTraps : Prop :=
  ∀ (p : PReg) (t0 t1 t2 t3 : BitVec 8) (s : State) (pre post : List PoisonRec) (r : PoisonRec),
    let ts := [t0.toNat, t1.toNat, t2.toNat, t3.toNat]
    let implied := fun x : PoisonRec => ∃ t, ts[x.cls]? = some t ∧ t ≠ 255 ∧ t ≤ x.after
    s.issue.active = false → s.cc.pr p.val = true → s.cc.marks.contains (.p p) = false →
    (∀ k t, ts[k]? = some t → t = 255 ∨ s.cc.cnt k ≤ t) →
    s.cc.lv.poison = pre ++ r :: post → (∀ x ∈ pre, ¬implied x) → implied r →
    let u := s.updCur fun c => c.setLv { c.lv with poison := pre ++ post }
    exec (.waitc p t0 t1 t2 t3) s = .next ((u.leaveWaits s.cur).takeTrap ⟨0x17, 3, r.addr⟩)

/-- 07 R150, 03 R77, R78, 17 Table 17.2: OPERAND_RANGE of loop and loopi, whatever the count, and of a value written to FMT,
STATUS, EPC or TVEC that the register does not accept; TVAL is 0. -/
def Sys2Proof.Claims.LoopAndControlValueTraps : Prop :=
  ∀ (p : PReg) (d a : SReg) (n : BitVec 12) (off : BitVec 25),
    let loops := fun (s : State) (code tval : Nat) =>
      let stop := s.cc.pc + 2 * BitVec.signExtend 64 off
      let next := s.cc.pc + BitVec.ofNat 64 s.issue.len
      (stop.toNat ≤ next.toNat ∨ 4 ≤ s.cc.lv.loops.length ∨ (∃ e ∈ s.cc.lv.loops, e.stop = stop) ∨
        (∃ e, s.cc.lv.loops.getLast? = some e ∧ e.start.toNat ≤ s.cc.pc.toNat ∧ s.cc.pc.toNat < e.stop.toNat ∧ e.stop = next)) ∧
      code = 0x04 ∧ tval = 0
    let refused := fun (v : State → Word) (s : State) (code tval : Nat) =>
      ((n = 0 ∧ (v s >>> 9 ≠ 0 ∨ 25 ≤ (v s).toNat / 8 % 32 ∨ 5 ≤ (v s).toNat % 8)) ∨ (n = 2 ∧ v s >>> 5 ≠ 0) ∨
        ((n = 0x101 ∨ n = 0x103) ∧ s.cc.level = 1 ∧ (v s).getLsbD 0 = true)) ∧ code = 0x04 ∧ tval = 0
    Traps p (.loop p a off) [a] 3 loops ∧ Traps p (.loopi p n off) [] 3 loops ∧
    Traps p (.csrw p n a) [a] 3 (refused fun s => sv s a) ∧
    Traps p (.csrs p n a d) [a] 3 (refused fun s => csrNewest n.toNat s ||| sv s a) ∧
    Traps p (.csrc p n a d) [a] 3 (refused fun s => csrNewest n.toNat s &&& ~~~(sv s a))

/-- Alone in its bundle, its predicate true and no register marked, an instruction takes the precise trap given. -/
def Sys2Proof.Claims.TrapsUnmarked (p : PReg) (ins : Instr) (slot : Nat) (cond : State → Nat → Nat → Prop) : Prop :=
  ∀ (s : State) code tval, s.issue.active = false → s.cc.pr p.val = true → s.cc.marks = [] → cond s code tval →
    exec ins s = .next ((s.leaveWaits s.cur).takeTrap ⟨code, slot, tval⟩)

/-- The execution-time traps of instructions that the predicate lets run and whose sources hold no poison: a misaligned jump
target (07 R148), a misaligned .w8, .w16 access or atomic, an access of any load, store, line operation or atomic that does not translate
(10 R201, R202, R219), a far address outside the far region, misaligned, of no peer or without the right (18 R392), a semaphore outside the
window or poisoned (16 R340, R343), a vat that may not spawn (16 R338), a control register that is reserved or may not be written (03 R76, 07
R158), one from 0x200 on at all, whatever the predicate (20 R429), a barrier wider than its lane of a wheel without a gang, or of one whose
gang broke in an earlier cycle (01 R18, R20), a mold that the wheel does not own and a run above 256 granules (13 R303), a bank that the wheel does not hold
(12 R257), a hoop or byte barrier of another vat, a ring that is not legal, a slot that is not FILLED, a barrier that is broken or would
overflow (13 R291, R294 to R301). -/
def Sys2Proof.Claims.ValueTraps : Prop :=
  ∀ (p : PReg) (d a b : SReg) (off : BitVec 14) (n : BitVec 12) (m : BitVec 16) (sc : Scope) (o : MemOrd) (w8 fa el8 bank : Bool)
    (od : OReg) (w : VWidth) (at_ : Atomicity) (pane : PaneNo) (row i : Fin 64),
    let traps := Traps p
    let size := if w8 then 8 else 4
    let odd := fun (s : State) code tval => (sv s a).getLsbD 0 = true ∧ code = 0x06 ∧ tval = (sv s a).toNat
    let misaligned := fun (s : State) code tval => (sv s a).toNat % size ≠ 0 ∧ code = 0x06 ∧ tval = (sv s a).toNat
    let outside := fun (s : State) code tval =>
      (s.vat s.cc.vatKey).desc.semCount ≤ (sv s a).toNat ∧ code = 0x04 ∧ tval = (sv s a).toNat
    let faults := fun (scale size : Nat) (r w : Bool) (s : State) code tval =>
      s.access s.cur (address s a off scale) size r w = .trap code tval
    let wide := fun (al scale size : Nat) (r w : Bool) (s : State) code tval =>
      let ea := address s a off scale
      (al ≠ 0 ∧ ea % al ≠ 0 ∧ code = 0x06 ∧ tval = ea) ∨ ((al = 0 ∨ ea % al = 0) ∧ s.access s.cur ea size r w = .trap code tval)
    let bytes := w.bits / 8
    let mx := (if el8 then 33 else 17) * (if el8 then w.bits / 256 else w.bits / 128)
    let line := fun (r w : Bool) (s : State) code tval => s.access s.cur (address s a off 64 / 64 * 64) 64 r w = .trap code tval
    let atomic := fun (s : State) code tval =>
      misaligned s code tval ∨ ((sv s a).toNat % size = 0 ∧ s.access s.cur (sv s a).toNat size true true = .trap code tval)
    let far := fun (ea : State → Nat) (right : Peer → Bool) (s : State) code tval => tval = ea s ∧
      ((ea s < 2 ^ 63 ∧ code = 0x07) ∨ (2 ^ 63 ≤ ea s ∧ ea s % size ≠ 0 ∧ code = 0x06) ∨
        (2 ^ 63 ≤ ea s ∧ ea s % size = 0 ∧ ((farPeer s (ea s) = none ∧ code = 0x07) ∨
          ∃ e, farPeer s (ea s) = some e ∧ right e = false ∧ code = 0x08)))
    let poisoned := fun (s : State) code tval => (sv s a).toNat < (s.vat s.cc.vatKey).desc.semCount ∧
      ((s.die (dieOf s.cur)).sem (s.semOf (sv s a).toNat)).cur.bad = true ∧ code = 0x19 ∧ tval = (sv s a).toNat
    let hoop := fun s : State => ((myQuad s).hoop i.val).seen s.now
    let bb := fun s : State => ((myQuad s).bb i.val).seen s.now
    let mine := fun s : State => some s.cc.vatKey
    let bbOther := fun (s : State) code tval =>
      tval = i.val ∧ (((bb s).owner ≠ none ∧ (bb s).owner ≠ mine s ∧ code = 0x15) ∨
        (((bb s).owner = none ∨ (bb s).owner = mine s) ∧ (bb s).broken = true ∧ code = 0x14))
    let bbFree := fun s : State => ((bb s).owner = none ∨ (bb s).owner = mine s) ∧ (bb s).broken = false
    let count := fun s : State => (sv s a).toNat % 2 ^ 32
    traps (.jmp p a) [a] 3 odd ∧ traps (.callr p d a) [a] 3 odd ∧
    traps (.ldd p true d a off) [a] 5 (fun s code tval =>
      address s a off 8 % 8 ≠ 0 ∧ code = 0x06 ∧ tval = address s a off 8) ∧
    traps (.std p true d a off) [d, a] 6 (fun s code tval =>
      address s a off 8 % 8 ≠ 0 ∧ code = 0x06 ∧ tval = address s a off 8) ∧
    traps (.ldb p d a off) [a] 5 (faults 1 1 true false) ∧ traps (.ldw p d a off) [a] 5 (faults 4 4 true false) ∧
    traps (.ldd p false d a off) [a] 5 (faults 8 8 true false) ∧ traps (.stb p d a off) [d, a] 6 (faults 1 1 false true) ∧
    traps (.stw p d a off) [d, a] 6 (faults 4 4 false true) ∧ traps (.std p false d a off) [d, a] 6 (faults 8 8 false true) ∧
    traps (.ldbu p d a off) [a] 5 (faults 1 1 true false) ∧ traps (.ldh p d a off) [a] 5 (faults 2 2 true false) ∧
    traps (.ldhu p d a off) [a] 5 (faults 2 2 true false) ∧ traps (.ldwu p d a off) [a] 5 (faults 4 4 true false) ∧
    traps (.sth p d a off) [d, a] 6 (faults 2 2 false true) ∧
    TrapsUnmarked p (.ldv p w at_ od a off) 5 (wide (atAlign at_) 32 bytes true false) ∧
    TrapsUnmarked p (.stv p w at_ od a off) 6 (wide (atAlign at_) 32 bytes false true) ∧
    TrapsUnmarked p (.ldp p w at_ pane row a off) 5 (fun s code tval =>
      pane.val < s.cc.panecnt ∧ wide (atAlign at_) 32 bytes true false s code tval) ∧
    TrapsUnmarked p (.stp p w at_ pane row a off) 6 (fun s code tval =>
      pane.val < s.cc.panecnt ∧ wide (atAlign at_) 32 bytes false true s code tval) ∧
    (od.val % 2 = 0 → TrapsUnmarked p (.ldmx p el8 w od a off) 5 (wide 0 1 mx true false) ∧
      TrapsUnmarked p (.stmx p el8 w od a off) 6 (wide 0 1 mx false true)) ∧
    traps (.clInv p a off) [a] 5 (line true false) ∧ traps (.clZero p a off) [a] 6 (line false true) ∧
    (∀ ins ∈ [Instr.amoAdd p sc o w8 d a b, .amoSwap p sc o w8 d a b, .amoAnd p sc o w8 d a b, .amoOr p sc o w8 d a b,
      .amoXor p sc o w8 d a b, .amoMax p sc o w8 d a b, .amoMin p sc o w8 d a b], traps ins [a, b] 5 atomic) ∧
    traps (.amoCas p sc o fa w8 d a b) [a, b, d] 5 atomic ∧
    (∀ ins ∈ [Instr.famoAdd p o w8 d a b, .famoSwap p o w8 d a b, .famoAnd p o w8 d a b, .famoOr p o w8 d a b], traps ins [a, b] 5 (far (fun s => (sv s a).toNat) (·.a))) ∧
    traps (.famoCas p o fa w8 d a b) [a, b, d] 5 (far (fun s => (sv s a).toNat) (·.a)) ∧
    traps (.fld p w8 d a off) [a] 5 (far (fun s => address s a off 1) (·.r)) ∧
    traps (.fst p w8 d a off) [d, a] 6 (far (fun s => address s a off 1) (·.w)) ∧
    traps (.ffenceFlag p w8 d a off) [d, a] 6 (far (fun s => address s a off 1) (·.w)) ∧
    traps (.semSig p a m) [a] 3 poisoned ∧ traps (.semWait p a m) [a] 3 poisoned ∧ traps (.semTest p d a) [a] 3 poisoned ∧
    traps (.pressRelease p bank) [] 2 (fun s code tval =>
      ((myQuad s).bank bank).holder ≠ some (s.cur, s.cc.wid) ∧ code = 0x04 ∧ tval = 0) ∧
    traps (.moldGet p d a) [a] 2 (fun s code tval => 256 < (sv s a).toNat ∧ code = 0x04 ∧ tval = 0) ∧
    traps (.hoopInit p i a b) [a, b] 2 (fun s code tval => let z := (sv s b).toNat % 16
      let c := (sv s b).toNat / 16 % 8
      ((hoop s).owner ≠ none ∧ (hoop s).owner ≠ mine s ∧ code = 0x15 ∧ tval = i.val) ∨
      (((hoop s).owner = none ∨ (hoop s).owner = mine s) ∧
        ((2 ^ 7 ≤ (sv s b).toNat ∨ 8 < z ∨ c = 7) ∧ code = 0x04 ∧ tval = 0 ∨
        ((sv s b).toNat < 2 ^ 7 ∧ z ≤ 8 ∧ c ≠ 7 ∧ s.hoopBase (sv s a).toNat (2 ^ (z + 8)) (2 ^ (z + 8 + c)) = none ∧ code = 0x15 ∧
          tval = (sv s a).toNat)))) ∧
    (∀ ins ∈ [Instr.hoopAwait p d i, .hoopRel p i], traps ins [] 2 (fun s code tval =>
      (hoop s).owner ≠ mine s ∧ code = 0x15 ∧ tval = i.val)) ∧
    traps (.hoopRel p i) [] 2 (fun s code tval =>
      (hoop s).owner = mine s ∧ (hoop s).slotSt (hoop s).rd ≠ .filled ∧ code = 0x15 ∧ tval = i.val) ∧
    (∀ ins ∈ [Instr.bbExpect p d i a, .bbArrive p i a, .bbWait p i a], traps ins [a] 2 bbOther) ∧
    traps (.bbExpect p d i a) [a] 2 (fun s code tval => let b := ((myQuad s).bb i.val).cur
      bbFree s ∧ (2 ^ 32 ≤ b.expected + count s ∨ b.expected + count s < b.arrived) ∧ code = 0x14 ∧ tval = i.val) ∧
    traps (.bbArrive p i a) [a] 2 (fun s code tval => let b := (myQuad s).bbAhead i.val
      bbFree s ∧ (2 ^ 32 ≤ b.arrived + count s ∨ (b.armed = true ∧ b.expected < b.arrived + count s)) ∧ code = 0x14 ∧ tval = i.val) ∧
    traps (.semSig p a m) [a] 3 outside ∧ traps (.semWait p a m) [a] 3 outside ∧ traps (.semTest p d a) [a] 3 outside ∧
    traps (.wheelSpawn p a) [a] 3 (fun s code tval =>
      (s.vat s.cc.vatKey).desc.spawnLimit = 0 ∧ code = 0x04 ∧ tval = 0) ∧
    (let readOnly := fun s : State => (2 < n.toNat ∧ n.toNat < 0x100) ∨ (s.cc.level = 1 ∧ 0x104 ≤ n.toNat ∧ n.toNat < 0x200)
     let reserved := fun s : State => (4 < n.toNat ∧ n.toNat < 0x010) ∨ (0x017 < n.toNat ∧ n.toNat < 0x020) ∨
      (0x024 < n.toNat ∧ n.toNat < 0x100) ∨ (s.cc.level = 1 ∧ 0x107 ≤ n.toNat ∧ n.toNat < 0x200)
     let range := fun (c : State → Prop) (s : State) code tval => s.cc.marks.contains (.csr n.toNat) = false ∧ c s ∧ code = 0x04 ∧ tval = 0
     traps (.csrr p n d) [] 3 (range reserved) ∧ traps (.csrs p n a d) [a] 3 (range readOnly) ∧ traps (.csrc p n a d) [a] 3 (range readOnly) ∧
     traps (.csrw p n a) [a] 3 (fun s code tval => readOnly s ∧ code = 0x04 ∧ tval = 0)) ∧
    (0x200 ≤ n.toNat → ∀ ins ∈ [Instr.csrr p n d, .csrw p n a, .csrs p n a d, .csrc p n a d], ∀ s : State, s.issue.active = false →
      exec ins s = .next ((s.leaveWaits s.cur).takeTrap ⟨0x05, 3, n.toNat⟩)) ∧
    traps (.bar p sc) [] 3 (fun s code tval => let v := s.vat s.cc.vatKey
      sc ≠ .lane ∧ s.cc.barOk = false ∧ tval = 0 ∧ ((v.gangOf s.cc.wid.idx = none ∧ code = 0x04) ∨
        ∃ g, v.gangOf s.cc.wid.idx = some g ∧ thas v.broken g = true ∧ tget v.broken g < s.now ∧ code = 0x1F)) ∧
    traps (.moldFree p a) [a] 2 (fun s code tval =>
      s.ownedMold ((sv s a).toNat % 2 ^ 16) = none ∧ code = 0x04 ∧ tval = 0) ∧
    traps (.moldPass p a) [a] 2 (fun s code tval =>
      s.ownedMold ((sv s a).toNat % 2 ^ 16) = none ∧ code = 0x04 ∧ tval = 0)

/-- 02 R37: a slot with a false predicate has no effect: it enqueues nothing, counts nothing, writes nothing and does not trap
at execute; its legality is still checked (alone in its bundle: its register groups and panes and its privilege). -/
def Obligations.FalsePredicateHasNoEffect : Prop :=
  ∀ (i : Instr) (p : PReg) (s : State), i.encSlot.isSome = true → (slotOp i).pred = some p → s.cc.pr p.val = false →
    (s.issue.active = true → exec i s = .next s) ∧
    (s.issue.active = false → s.cc.marks.contains (.p p) = false →
      (slotOp i).rangeBad s = false → (slotOp i).priv s.cc.level = none → exec i s = .next s)

/-- Every register of a context, its control registers and its trap registers (03 Table 3.1, Table 3.5, 17 Table 17.2). -/
def Sys2Proof.Claims.SameRegisters (c d : Ctx) : Prop :=
  d.s = c.s ∧ d.p = c.p ∧ d.k = c.k ∧ d.o = c.o ∧ d.lat0 = c.lat0 ∧ d.lat1 = c.lat1 ∧ d.fmt = c.fmt ∧ d.key = c.key ∧
  d.status = c.status ∧ d.cause = c.cause ∧ d.epc = c.epc ∧ d.tval = c.tval ∧ d.tvec = c.tvec ∧ d.tbundle = c.tbundle ∧
  d.saveptr = c.saveptr ∧ d.level = c.level ∧ d.marks = c.marks

/-- 02 R47, 03 Table 3.1: a scalar result of latency L that bundle n issues is in its register for bundle n + L and no bundle
before it, and is in no other register; register 0 takes none. A result for any destination, with its latch, its flags and its enabled
elements, changes no register and no pane for the bundles before n + L, and from that one on they hold what its delivery leaves (which
DeliveryEventResults states). `bundles k` is the machine after k further bundles of the context that write nothing. -/
def Sys2Proof.Claims.ScalarResultTiming : Prop :=
  ∀ (s : State) (slot L : Nat) (d : SReg) (v : Word) (k : Nat), 1 ≤ L → s.cc.lv.land = [] → s.cc.lv.fmtp = none →
    let bundle := fun t : State => (t.deliverDue s.cur).updCtx s.cur fun c => { c.countDown with seq := c.seq + 1 }
    let bundles := fun k => Nat.repeat bundle k (s.landS slot L d v)
    let seen := ((bundles k).deliverDue s.cur).ctx s.cur
    (d.val ≠ 0 → seen.sr d.val = if k + 1 < L then s.cc.sr d.val else v) ∧
    (∀ j, j ≠ d.val → seen.sr j = s.cc.sr j) ∧ seen.sr 0 = 0 ∧
    (∀ j, seen.pr j = s.cc.pr j) ∧ (∀ j, seen.kr j = s.cc.kr j) ∧ (∀ j, seen.or j = s.cc.or j) ∧ seen.fmt = s.cc.fmt ∧
    (∀ e : Landing,
      let later := (Nat.repeat bundle k (s.land slot L e)).deliverDue s.cur
      let atOnce := (s.land slot 1 e).deliverDue s.cur
      (k + 1 < L → SameRegisters s.cc (later.ctx s.cur) ∧ (later.core (coreOf s.cur)).panes = (s.core (coreOf s.cur)).panes) ∧
      (L ≤ k + 1 → SameRegisters (atOnce.ctx s.cur) (later.ctx s.cur) ∧
        (later.core (coreOf s.cur)).panes = (atOnce.core (coreOf s.cur)).panes))

/-- 02 R49: of results for one register that the same bundle delivers, the later issued takes effect, and within one bundle the
one of the higher slot; of a lane mask, an operand register or a pane row the elements that the later one does not enable are the
earlier one's where that enables them; a latch holds the later source. -/
def Sys2Proof.Claims.LaterResultWins : Prop :=
  ∀ (s : State) (cx n : Nat) (e1 e2 : Landing), (s.ctx cx).lv.land = [e1] → (s.ctx cx).lv.fmtp = none →
    e1.dest = e2.dest → e1.rem = 0 → e2.rem = 0 → (e1.seq < e2.seq ∨ (e1.seq = e2.seq ∧ e1.slot < e2.slot)) →
    let t := (s.updCtx cx (·.push e2)).deliverDue cx
    let c := t.ctx cx
    (e2.dest = .sreg n → n ≠ 0 → c.sr n = BitVec.setWidth 64 e2.value) ∧
    (e2.dest = .preg n → n ≠ 0 → c.pr n = e2.value.getLsbD 0) ∧ (e2.dest = .key → c.key = BitVec.setWidth 64 e2.value) ∧
    (e2.dest = .csr 0x101 → c.epc = BitVec.setWidth 64 e2.value) ∧
    (∀ l, e2.lat = some l → (if l then c.lat1 else c.lat0) = e2.value) ∧
    (e2.dest = .kreg n → n ≠ 0 → ∀ j < 128, j < e1.n → j < e2.n →
      (c.kr n).getLsbD j = if e2.en.testBit j = true then e2.value.getLsbD j else if e1.en.testBit j = true then e1.value.getLsbD j
        else ((s.ctx cx).kr n).getLsbD j) ∧
    (e1.esz = e2.esz → e1.n = e2.n → ∀ i < e2.n, ∀ j < e2.esz, let b := e2.esz * i + j
      let kept := fun old : Bool => if e2.en.testBit i = true then e2.value.getLsbD b
        else if e1.en.testBit i = true then e1.value.getLsbD b else old
      b < 1024 → (e2.dest = .oreg n → (c.or n).getLsbD b = kept (((s.ctx cx).or n).getLsbD b)) ∧
        (∀ ph, e2.dest = .pane ph .row n → ((t.core (coreOf cx)).row ph n).getLsbD b = kept (((s.core (coreOf cx)).row ph n).getLsbD b)))

/-- 02 R54: an FMT write waits four more bundles: the bundles up to the fourth after it still use the old value. -/
def Sys2Proof.Claims.FmtWriteTiming : Prop :=
  ∀ (s : State) (v : Word) (k : Nat), s.cc.lv.land = [] →
    let bundle := fun t : State => (t.deliverDue s.cur).updCtx s.cur fun c => { c.countDown with seq := c.seq + 1 }
    let bundles := fun k => Nat.repeat bundle k (csrPut 0 v s)
    (((bundles k).deliverDue s.cur).ctx s.cur).fmt = if k < 4 then s.cc.fmt else v


/-- A step runs the next event: the first of the schedule that is due, or the machine's own one. A due slot instruction, which is no
event, and an event that is out of its turn in the cycle (03 R73, 12 R257, 13 R299, 16 R341, 17 R359) are passed over; with no
event a cycle passes. The order in which the model takes its own events is its choice (log entries 3, 13). -/
def Sys2Proof.Claims.StepIsItsEvent : Prop :=
  ∀ (s u : State) (e : Instr),
    (s.nextEvent = some (e, u) → e.isEvent = true → u.inTurn e = true →
      ∀ t, exec e u = .next t → t.issue.active = false → step s = .next t) ∧
    (s.nextEvent = some (e, u) → (e.isEvent = false ∨ u.inTurn e = false) → step s = .next u) ∧
    (s.nextEvent = none → step s = .next { s with now := s.now + 1 }) ∧
    (∀ rest at_, s.sched = (at_, e) :: rest → at_ ≤ s.now → s.nextEvent = some (e, { s with sched := rest }))

/-- 02 R28 to R45: where the next event is an issue of a live core in its turn, the bundle at the selected context's pc is fetched
and decodes to the slots, no condition of 02 Table 2.5 holds and nothing waits, the step opens the bundle, runs each slot's exec in
the drain order, and closes the bundle; for a bundle of one instruction that is exec of that instruction. -/
def Obligations.StepRunsTheDecodedInstruction : Prop :=
  ∀ (s u : State) (core b len : Nat) (slots : List (Nat × Instr)),
    s.nextEvent = some (.bundleIssue core, u) → u.inTurn (.bundleIssue core) = true → u.issue.active = false →
    u.coreLive core = true → (u.core core).switching = false → u.parityHit core = false →
    let v := u.atIssue (4 * core + (u.core core).sel)
    let w := { v with issue := { v.issue with len := len } }
    v.cc.phase = .running → v.cc.xinv = none → v.cc.farWait = [] → v.fetch v.cur = .ok b len → decodeBundle b = .ok slots →
    w.bundleTrap (opsOf slots) = none → w.bundleWaits (opsOf slots) = false →
    ∃ o : State, o.issue.active = true ∧ o.issue.len = len ∧ o.issue.slots = drainOrder slots ∧ o.cur = v.cur ∧
      o.cc = { v.cc.countDown with seq := v.cc.seq + 1 } ∧ o.mem = v.mem ∧ o.quads = v.quads ∧ o.dies = v.dies ∧ o.vats = v.vats ∧
      (∀ r, runSlots (drainOrder slots) o = .next r → step s = .next r.closeBundle) ∧
      (∀ n i, slots = [(n, i)] → drainOrder slots = slots ∧
        ∀ r, exec i o = .next r → step s = .next r.closeBundle)

/-- BUNDLE_ISSUE (02 R41 to R45): a bundle that may issue is opened and counts as issued in this cycle; one that traps takes its
trap in this cycle, without another effect than what the trapping instruction's rule adds; one that waits makes a switch point, and
leaves behind only its places in queues of waiters. -/
def Sys2Proof.Claims.BundleIssueResults : Prop :=
  ∀ (core : Nat) (s : State), s.issue.active = false → s.coreLive core = true → (s.core core).switching = false →
    s.parityHit core = false →
    let sel := (s.core core).sel
    let u := s.atIssue (4 * core + sel)
    let issued := u.updCore core fun k => { k with issuedAt := some s.now }
    (∀ len slots, u.fate = .go len slots → ∃ t, exec (.bundleIssue core) s = .next t ∧ t.issue.active = true ∧
      t.issue.slots = drainOrder slots ∧ t.issue.len = len ∧ t.cur = 4 * core + sel ∧
      (t.core core).issuedAt = some s.now ∧ t.cc.pc = u.cc.pc ∧ (∀ n, t.cc.sr n = u.cc.sr n) ∧ t.mem = s.mem) ∧
    (∀ slots t, u.fate = .trap slots none t →
      exec (.bundleIssue core) s = .next ((issued.leaveWaits u.cur).takeTrap t)) ∧
    (∀ slots n t, u.fate = .trap slots (some n) t → ∃ o ∈ opsOf slots, o.slot = n ∧
      exec (.bundleIssue core) s = .next (((o.onTrap t issued).leaveWaits u.cur).takeTrap t)) ∧
    (∀ slots, u.fate = .wait slots →
      exec (.bundleIssue core) s = .next ((u.noteWaits (opsOf slots)).updCore core fun k => { k with switching := true }))

/-- 02 R37, R44, 07 R160: nothing of a bundle that waits takes effect: no context's registers, pc, queues, counters and landing
buffers change, no core, no memory and no poison mark; an arrival at a barrier is recorded in its gang and in its context. -/
def Sys2Proof.Claims.WaitingBundleFrame : Prop :=
  ∀ (u : State) (slots : List (Nat × Instr)), let t := u.noteWaits (opsOf slots)
    t.mem = u.mem ∧ t.poison = u.poison ∧ t.cores = u.cores ∧ t.fars = u.fars ∧ t.colls = u.colls ∧ t.cur = u.cur ∧
    t.issue = u.issue ∧ ∀ j, t.ctx j = { u.ctx j with barIn := (t.ctx j).barIn, barOk := (t.ctx j).barOk }

/-- What a core's choice leaves behind at the contexts it passes over (log entry 25): the results due at their next bundle, and their places in
queues of waiters. -/
def Sys2Proof.Claims.passedOver (s : State) (l : List Nat) : State :=
  l.foldl (fun s cx =>
    if (s.ctx cx).phase = .running then { (s.atIssue cx).noteWaits (opsOf (s.nextSlots cx)) with cur := s.cur } else s) s

/-- CONTEXT_SELECT (02 R45): from a switch point on, the first ready context in the order c + 1, c + 2, c + 3, c is chosen, every
context before it not being ready, and another context than c issues from two cycles later; with none ready none is chosen. The
next order counts from the context chosen (log entry 104). That the contexts are examined in turn, and that those passed over take their places
in queues of waiters and record their arrivals, is the model's reading (log entry 25, DEDUCED). -/
def Sys2Proof.Claims.ContextSelectResults : Prop :=
  ∀ (core : Nat) (s : State), s.issue.active = false → s.coreLive core = true → (s.core core).switching = true →
    let order := [1, 2, 3, 4].map fun i => 4 * core + ((s.core core).sel + i) % 4
    (∀ pre cx post, order = pre ++ cx :: post → (∀ p x q, pre = p ++ x :: q → (passedOver s p).ready x = false) →
      (passedOver s pre).ready cx = true →
      exec (.contextSelect core) s = .next ((passedOver s pre).updCore core fun k => { k with
        sel := cx % 4, switching := false, selAt := if cx % 4 = k.sel then k.selAt else s.now + 2 })) ∧
    ((∀ p x q, order = p ++ x :: q → (passedOver s p).ready x = false) →
      exec (.contextSelect core) s = .next (passedOver s order))

/-- The deliveries beside that of e write no register, latch or pane that e writes; each of them is of a legal form. -/
def Sys2Proof.Claims.Apart (e : Landing) (others : List Landing) : Prop :=
  ∀ x ∈ others, x.dest ≠ e.dest ∧ (e.lat.isSome = true → x.lat ≠ e.lat) ∧ x.img.length ≤ 64 ∧
    (∀ p dir i, x.dest = .pane p dir i → i < 64 ∧ (x.esz = 8 ∨ x.esz = 16 ∨ x.esz = 32) ∧ x.n * x.esz ≤ 1024 ∧
      (∀ d' i', e.dest ≠ .pane p d' i') ∧ e.dest ≠ .paneImg p) ∧
    (∀ p, x.dest = .paneImg p → ∀ d' i', e.dest ≠ .pane p d' i')
/-- Bit b of a register of elements after the delivery of e: that of the result where its element is enabled, else as before. -/
def Sys2Proof.Claims.Merged (e : Landing) (old new : Row) : Prop :=
  (∀ i < e.n, ∀ j < e.esz, e.esz * i + j < 1024 → new.getLsbD (e.esz * i + j) =
    if e.en.testBit i = true then e.value.getLsbD (e.esz * i + j) else old.getLsbD (e.esz * i + j)) ∧
  (∀ b, e.n * e.esz ≤ b → new.getLsbD b = old.getLsbD b)

/-- RESULT_DELIVERY and FMT_WRITE_EFFECT (02 R47, R50, R54, 03 R63, R65 to R67, R78, 08 R173, 07 R158): results whose count has run out
leave the landing buffer, the others stay, and each is then in its destination: a scalar register, a predicate, KEY, CAUSE, EPC, TVAL
or TVEC takes its value, a lane mask, operand register and pane row, column or diagonal its enabled elements, a pane its image, a latch
the source. STATUS is what a write due in the same delivery wrote, or its old value, or-ed with the flags of every due result. A
pending FMT write is in FMT once its count has run out, and not before. -/
def Sys2Proof.Claims.DeliveryEventResults : Prop :=
  ∀ (cx : Nat) (s : State), s.issue.active = false →
    (∃ t, exec (.resultDelivery cx) s = .next t ∧
      (t.ctx cx).lv.land = (s.ctx cx).lv.land.filter (fun e => e.rem ≠ 0) ∧ t.mem = s.mem ∧
      (∀ j, j ≠ cx → t.ctx j = s.ctx j) ∧
      (∀ e n, (s.ctx cx).lv.land.filter (fun e => e.rem = 0) = [e] → e.dest = .sreg n → n ≠ 0 →
        (t.ctx cx).sr n = BitVec.setWidth 64 e.value ∧ ∀ j, j ≠ n → (t.ctx cx).sr j = (s.ctx cx).sr j) ∧
      (let c := s.ctx cx
       let d := t.ctx cx
       let k := s.core (coreOf cx)
       let k' := t.core (coreOf cx)
       let due := c.lv.land.filter fun e => e.rem = 0
       (∀ pre e post, due = pre ++ e :: post → Apart e (pre ++ post) →
        let v := BitVec.setWidth 64 e.value
        (∀ n, e.dest = .sreg n → n ≠ 0 → d.sr n = v) ∧ (∀ n, e.dest = .preg n → n ≠ 0 → d.pr n = e.value.getLsbD 0) ∧
        (e.dest = .key → d.key = v) ∧ (e.dest = .csr 0x100 → d.cause = v) ∧ (e.dest = .csr 0x101 → d.epc = v) ∧
        (e.dest = .csr 0x102 → d.tval = v) ∧ (e.dest = .csr 0x103 → d.tvec = v) ∧
        (∀ n, e.dest = .kreg n → n ≠ 0 → ∀ j < 128, (d.kr n).getLsbD j =
          (decide (j < e.n) && (if e.en.testBit j = true then e.value.getLsbD j else (c.kr n).getLsbD j))) ∧
        (∀ n, e.dest = .oreg n → Merged e (c.or n) (d.or n)) ∧
        (∀ l, e.lat = some l → (if l then d.lat1 else d.lat0) = e.value) ∧
        (∀ ph r, e.dest = .pane ph .row r → r < 64 → Merged e (k.row ph r) (k'.row ph r)) ∧
        (∀ ph dir x, e.dest = .pane ph dir x → x < 64 → (e.esz = 8 ∨ e.esz = 16 ∨ e.esz = 32) → e.n * e.esz ≤ 1024 → dir ≠ .row →
          (∀ i < e.n, e.en.testBit i = true → let z := paneCell dir x i e.esz
            k'.cell ph z.1 z.2 e.esz = e.value.toNat / 2 ^ (e.esz * i) % 2 ^ e.esz) ∧
          (∀ row col, row < 64 → col < 1024 / e.esz →
            (∀ i < e.n, e.en.testBit i = true → paneCell dir x i e.esz ≠ (row, col)) →
            k'.cell ph row col e.esz = k.cell ph row col e.esz)) ∧
        (∀ ph r row, e.dest = .paneImg ph → e.img.length ≤ 64 → e.img[r]? = some row → k'.row ph r = row)) ∧
       (let flagged := fun (w : Word) => ∀ b < 64, d.status.getLsbD b = (w.getLsbD b || due.any fun e => e.flags.getLsbD b)
        ((∀ e ∈ due, e.dest ≠ .status) → flagged c.status) ∧
        (∀ pre e post, due = pre ++ e :: post → e.dest = .status → (∀ x ∈ post, x.dest ≠ .status) →
          flagged (BitVec.setWidth 64 e.value))))) ∧
    (∃ t, exec (.fmtWriteEffect cx) s = .next t ∧ t.mem = s.mem ∧ t.cores = s.cores ∧ (t.ctx cx).s = (s.ctx cx).s ∧
      (∀ j, j ≠ cx → t.ctx j = s.ctx j) ∧
      (∀ p, (s.ctx cx).lv.fmtp = some p → p.rem = 0 → (t.ctx cx).fmt = p.value ∧ (t.ctx cx).lv.fmtp = none) ∧
      ((∀ p, (s.ctx cx).lv.fmtp = some p → p.rem ≠ 0) → t.ctx cx = s.ctx cx))

/-- Where byte x of a load goes: the byte of the register or pane row (10 R211 to R214, R184, 17 Table 17.3). -/
def Sys2Proof.Claims.placeOf (dst : LDest) (x : Nat) : RegId × Nat :=
  match dst with
  | .scalar d _ => (.s (Fin.ofNat 64 d), x)
  | .oreg d => (.o (Fin.ofNat 16 d), x)
  | .row ph r => (.row ph r, x)
  | .mx d b => if x % b = b - 1 then (.o (Fin.ofNat 16 (d + 1)), x / b) else (.o (Fin.ofNat 16 d), (b - 1) * (x / b) + x % b)
  | .srest => if x < 512 then (.s (Fin.ofNat 64 (x / 8)), x % 8) else if x < 640 then (.k (Fin.ofNat 8 ((x - 512) / 16)), (x - 512) % 16) else (.p 0, 0)
/-- A byte of a register of a context, or of a pane row of its core. -/
def Sys2Proof.Claims.regByte (s : State) (cx : Nat) (r : RegId) (j : Nat) : Nat :=
  match r with
  | .s n => ((s.ctx cx).sr n.val).toNat / 256 ^ j % 256
  | .k n => ((s.ctx cx).kr n.val).toNat / 256 ^ j % 256
  | .o n => ((s.ctx cx).or n.val).toNat / 256 ^ j % 256
  | .row ph r => ((s.core (coreOf cx)).row ph r).toNat / 256 ^ j % 256
  | _ => 0
/-- The poison record that an operation which met a poisoned unit at address a leaves at its level (10 R210). -/
def Sys2Proof.Claims.Recorded (s t : State) (cx : Nat) (op : MOp) (a : Nat) : Prop :=
  ∃ r : PoisonRec, r.addr = a ∧ (op.lvl = 0 → (t.ctx cx).l0.poison = (s.ctx cx).l0.poison ++ [r]) ∧
    (op.lvl ≠ 0 → (t.ctx cx).l1.poison = (s.ctx cx).l1.poison ++ [r])

/-- 10 R207, R209, R211 to R214, 07 R51, 14 R312, 17 R363: performing all bytes of the oldest load takes each byte's value from memory as
it then stands, or from the core's L1 where that serves it, and moves the load to the returning ones; memory keeps every byte; a load that
misses in the L1 fills the line. A byte of a poisoned unit is not taken, and the lowest such unit is noted. The units of a returning
scalar load give its destination the loaded bytes, low byte first, extended as the load says; those of a vector, pane-row, MX or save-block
load give each loaded byte its place, and every other byte of every register and row stays; a scalar load that met poison writes nothing;
the operation then counts as complete, and one that met poison leaves a poison record. Where a later store has passed a compare-and-swap
behind the load, and that compare would succeed now, the load returns the bytes it held when the compare last failed (14 R323; log
entry 120, DEDUCED). -/
def Sys2Proof.Claims.LoadEventResults : Prop :=
  ∀ (cx sel : Nat) (hit : Bool) (s : State) (op : MOp), s.stopped (modOf cx) = false →
    (∀ rest dst, (s.ctx cx).lq = op :: rest → (∀ o ∈ rest, o.passed = false) → op.kind = .load dst → op.cached = false → op.did = 0 →
      op.got = [] → op.bad = none → 0 < op.size → (∀ j < op.size, sel.testBit j = true ∧ s.hbmBusy (pick op.locs j) = false ∧
        (op.readsByte j = true → s.isBad (pick op.locs j) = false)) → (s.ctx cx).phase = .running →
      ∃ t op', exec (.loadComplete cx 0 sel hit) s = .next t ∧
        (t.ctx cx).lq = rest ∧ (t.ctx cx).rets = (s.ctx cx).rets ++ [{ op := op' }] ∧
        op'.kind = op.kind ∧ op'.id = op.id ∧ op'.size = op.size ∧ op'.bad = none ∧
        op'.got = ((List.range op.size).filter op.readsByte).map (fun j => (j, s.byte (pick op.locs j))) ∧
        (∀ loc, t.byte loc = s.byte loc) ∧ (t.ctx cx).s = (s.ctx cx).s) ∧
    (∀ rest dst, (s.ctx cx).lq = op :: rest → s.fallsBack (s.ctx cx) = true → op.kind = .load dst → op.cached = false → op.did = 0 →
      op.got = [] → op.bad = none → 0 < op.size → (∀ j < op.size, sel.testBit j = true ∧ s.hbmBusy (pick op.locs j) = false) →
      (s.ctx cx).phase = .running → ∃ t op', exec (.loadComplete cx 0 sel hit) s = .next t ∧
        (t.ctx cx).lq = rest ∧ (t.ctx cx).rets = (s.ctx cx).rets ++ [{ op := op' }] ∧ op'.bad = none ∧
        op'.got = ((List.range op.size).filter op.readsByte).map (fun j => (j, ((op.fall.find? fun x => x.1 == j).map (·.2)).getD 0)) ∧
        t.mem = s.mem ∧ t.cores = s.cores) ∧
    (∀ rest dst, (s.ctx cx).lq = op :: rest → (∀ o ∈ rest, o.passed = false) → op.kind = .load dst → op.cached = false → op.did = 0 →
      op.got = [] → op.bad = none → 0 < op.size → (∀ j < op.size, sel.testBit j = true ∧ s.hbmBusy (pick op.locs j) = false) → (s.ctx cx).phase = .running →
      let bad (j : Nat) : Bool := op.readsByte j && s.isBad (pick op.locs j)
      ∃ t op', exec (.loadComplete cx 0 sel hit) s = .next t ∧
        (t.ctx cx).lq = rest ∧ (t.ctx cx).rets = (s.ctx cx).rets ++ [{ op := op' }] ∧
        op'.got = ((List.range op.size).filter fun j => op.readsByte j && !bad j).map (fun j => (j, s.byte (pick op.locs j))) ∧
        (op'.bad = none ↔ ∀ j < op.size, bad j = false) ∧
        (∀ a, op'.bad = some a → (∃ j < op.size, bad j = true ∧ a = (op.ea + j) / 32 * 32) ∧
          ∀ j < op.size, bad j = true → a ≤ (op.ea + j) / 32 * 32)) ∧
    (∀ rest dst, (s.ctx cx).lq = op :: rest → (∀ o ∈ rest, o.passed = false) → op.kind = .load dst → op.cached = true → op.did = 0 →
      op.got = [] → op.bad = none → 0 < op.size → (∀ j < op.size, sel.testBit j = true ∧ isSpad (pick op.locs j) = false ∧ s.isBad (pick op.locs j) = false) →
      (s.ctx cx).phase = .running →
      let core := coreOf cx
      (hit = true → (∀ j < op.size, (s.core core).hasLine (pick op.locs j) = true) →
        ∃ t op', exec (.loadComplete cx 0 sel hit) s = .next t ∧ (t.ctx cx).rets = (s.ctx cx).rets ++ [{ op := op' }] ∧
          op'.got = ((List.range op.size).filter op.readsByte).map (fun j => (j, s.l1Byte core (pick op.locs j))) ∧
          t.mem = s.mem ∧ (t.core core).l1 = (s.core core).l1) ∧
      (∀ line, hit = false → (∀ j < op.size, lineOf (pick op.locs j) = line ∧ s.hbmBusy (pick op.locs j) = false) →
        ((s.core core).l1.length < l1Lines ∨ thas (s.core core).l1 line = true) → op.readsByte 0 = true →
        ∃ t op', exec (.loadComplete cx 0 sel hit) s = .next t ∧ (t.ctx cx).rets = (s.ctx cx).rets ++ [{ op := op' }] ∧
          op'.got = ((List.range op.size).filter op.readsByte).map (fun j => (j, s.byte (pick op.locs j))) ∧
          t.mem = s.mem ∧ thas (t.core core).l1 line = true ∧
          ∀ loc, lineOf loc = line → t.l1Byte core loc = s.byte loc)) ∧
    (∀ dst more, (s.ctx cx).rets = { op := op } :: more → op.kind = .load dst → (∀ d sg, dst ≠ .scalar d sg) →
      (op.got.map fun x => placeOf dst x.1).Nodup →
      (∀ x ∈ op.got, let w := placeOf dst x.1
        w.2 < regBytes w.1 ∧ w.1 ≠ .s 0 ∧ w.1 ≠ .k 0 ∧ (dst = .srest → x.1 < 641)) →
      (∀ j < op.got.length, sel.testBit j = true) →
      ∃ t, exec (.loadComplete cx 1 sel hit) s = .next t ∧ (t.ctx cx).rets = more ∧ t.mem = s.mem ∧
        (∀ x ∈ op.got, let w := placeOf dst x.1
          w.1 ≠ .p 0 → regByte t cx w.1 w.2 = x.2.toNat) ∧
        (∀ b, (640, b) ∈ op.got → dst = .srest → ∀ i, 1 ≤ i → i < 8 → (t.ctx cx).pr i = b.toNat.testBit i) ∧
        (∀ r j, j < regBytes r → (∀ ph n ph' n', r = .row ph n → dst = .row ph' n' → n < 64 ∧ n' < 64) →
          (∀ x ∈ op.got, placeOf dst x.1 ≠ (r, j)) → regByte t cx r j = regByte s cx r j) ∧
        ((∀ b, (640, b) ∈ op.got → dst ≠ .srest) → ∀ i, (t.ctx cx).pr i = (s.ctx cx).pr i) ∧
        (t.ctx cx).outs = settleOuts ((s.ctx cx).outs.map fun o => if o.id = op.id then { o with done := true } else o) [] ∧
        (∀ a, op.bad = some a → Recorded s t cx op a)) ∧
    (∀ d sg more a, (s.ctx cx).rets = { op := op } :: more → op.kind = .load (.scalar d sg) → op.bad = some a →
      ∃ t, exec (.loadComplete cx 1 sel hit) s = .next t ∧ (t.ctx cx).rets = more ∧ t.mem = s.mem ∧
        (∀ j, (t.ctx cx).sr j = (s.ctx cx).sr j) ∧ Recorded s t cx op a) ∧
    (∀ d sg more, (s.ctx cx).rets = { op := op } :: more → op.kind = .load (.scalar d sg) → op.bad = none → 0 < d → d < 64 →
      op.size ≤ 8 → (∀ j < op.size, ∃ b, (op.got.find? fun x => x.1 == j) = some (j, b)) → sel.testBit 0 = true → sel.testBit 1 = true →
      ∃ t, exec (.loadComplete cx 1 sel hit) s = .next t ∧ (t.ctx cx).rets = more ∧
        (let n := leNat ((List.range op.size).map fun j => ((op.got.find? fun x => x.1 == j).map (·.2)).getD 0)
         (t.ctx cx).sr d = if sg then BitVec.ofInt 64 (sgn (8 * op.size) n) else BitVec.ofNat 64 n) ∧
        (∀ j, j ≠ d → (t.ctx cx).sr j = (s.ctx cx).sr j) ∧
        (t.ctx cx).outs = settleOuts ((s.ctx cx).outs.map fun o => if o.id = op.id then { o with done := true } else o) [] ∧
        t.mem = s.mem)

/-- 10 R207, R209: performing all bytes of the oldest store writes each byte at its location, the last byte for a location that two
bytes name, and no other byte of memory; a byte of a line that the issuing core's L1 holds is written there too, no other core's L1
changes, and a 32-byte unit that the store writes whole loses its poison mark, no other unit; the store leaves the queue and counts
as complete. Where only the acquire of a compare-and-swap with a relaxed failure stands ahead of it, the schedule may let it go first, and
that compare then fails (14 R323; log entry 120, DEDUCED). -/
def Sys2Proof.Claims.StoreEventResults : Prop :=
  ∀ (cx sel : Nat) (s : State) (op : MOp) (rest : List MOp), s.stopped (modOf cx) = false →
    let direct := (s.ctx cx).sq = op :: rest
    let passes := ∃ (a b : MOp) (f : AmoOp) (y ex : Word) (d : Nat) (acq : Option Scope) (pod e : Bool) (act : OrdAct),
      (s.ctx cx).sq = b :: op :: rest ∧ b.kind = .order acq pod act e ∧ (s.ctx cx).lq.find? (fun x => x.id == a.id) = some a ∧
      a.kind = .amo f y ex d true ∧ a.fails = false ∧ b.id = a.id + 1 ∧ (∀ x ∈ op :: rest, x.id ≠ b.id) ∧ sel.testBit 4096 = true
    direct ∨ passes → op.kind = .store → op.did = 0 → 0 < op.size → op.locs.length = op.size →
    (∀ j < op.size, sel.testBit j = true ∧ s.hbmBusy (pick op.locs j) = false) →
    ∃ t, exec (.storePerformed cx sel) s = .next t ∧ (t.ctx cx).sq = rest ∧ (direct → (t.ctx cx).lq = (s.ctx cx).lq) ∧
      (∀ a b, (s.ctx cx).sq = b :: op :: rest → a ∈ (s.ctx cx).lq → b.id = a.id + 1 →
        (∃ x ∈ (t.ctx cx).lq, x.id = a.id ∧ x.fails = true) ∧ ∀ x ∈ (t.ctx cx).lq, x.id ≠ b.id) ∧
      (t.ctx cx).outs = settleOuts ((s.ctx cx).outs.map fun o => if o.id = op.id then { o with done := true } else o) [] ∧
      (∀ loc, loc ∉ op.locs → t.byte loc = s.byte loc) ∧
      (∀ j < op.size, (∀ i, j < i → i < op.size → pick op.locs i ≠ pick op.locs j) →
        t.byte (pick op.locs j) = pick op.data j ∧
        (isSpad (pick op.locs j) = false → (s.core (coreOf cx)).hasLine (pick op.locs j) = true →
          (tget (s.core (coreOf cx)).l1 (lineOf (pick op.locs j))).length = 64 →
          (t.core (coreOf cx)).hasLine (pick op.locs j) = true ∧ t.l1Byte (coreOf cx) (pick op.locs j) = pick op.data j)) ∧
      (∀ k, k ≠ coreOf cx → t.core k = s.core k) ∧
      (∀ x, x ∈ t.poison ↔ x ∈ s.poison ∧ ∃ i < 32, 32 * x + i ∉ op.locs) ∧
      (∀ n, (t.ctx cx).sr n = (s.ctx cx).sr n)

/-- 10 Table 10.6: what an atomic leaves in memory from the old value, its source and its expected value, on w bytes: an
and-or-xor bit by bit, max and min on signed numbers; a failed compare writes nothing. -/
def Sys2Proof.Claims.AtomicOperations : Prop :=
  ∀ (w old b e : Nat), 0 < w → old < 2 ^ (8 * w) →
    let m := 2 ^ (8 * w)
    amoNew .add w old b e = some ((old + b) % m) ∧ amoNew .swap w old b e = some (b % m) ∧
    (old = e % m → amoNew .cas w old b e = some (b % m)) ∧ (old ≠ e % m → amoNew .cas w old b e = none) ∧
    (∀ v, amoNew .and w old b e = some v → ∀ i < 8 * w, v.testBit i = (old.testBit i && b.testBit i)) ∧
    (∀ v, amoNew .or w old b e = some v → ∀ i < 8 * w, v.testBit i = (old.testBit i || b.testBit i)) ∧
    (∀ v, amoNew .xor w old b e = some v → ∀ i < 8 * w, v.testBit i = (old.testBit i != b.testBit i)) ∧
    (∃ v, amoNew .max w old b e = some v ∧ sgn (8 * w) v = max (sgn (8 * w) old) (sgn (8 * w) (b % m))) ∧
    (∃ v, amoNew .min w old b e = some v ∧ sgn (8 * w) v = min (sgn (8 * w) old) (sgn (8 * w) (b % m)))

/-- 10 R207, R220, R221: an atomic at the head of its queue reads its operand and writes it at one instant, no other byte changes,
and the line of the issuing core's L1 goes, on a poisoned unit too, where nothing is written. The old value, sign-extended from 4
bytes, reaches the destination register when it returns, and no other register. A compare-and-swap that a later store has passed, and
that would succeed now, writes nothing and returns what its operand held when the compare last failed; one that has not failed yet waits
until it does (14 R323; log entry 120, DEDUCED). -/
def Sys2Proof.Claims.AtomicEventResults : Prop :=
  ∀ (cx : Nat) (s : State) (op : MOp) (rest : List MOp) (f : AmoOp) (b ex : Word) (d : Nat) (drop : Bool),
    s.stopped (modOf cx) = false → (s.ctx cx).phase = .running → (s.ctx cx).lq = op :: rest → op.kind = .amo f b ex d drop →
    (op.size = 4 ∨ op.size = 8) → op.bad = none →
    (op.fails = true → s.fallsBack (s.ctx cx) = true → ∃ t, exec (.atomicPerformed cx) s = .next t ∧ t.mem = s.mem ∧
      (t.ctx cx).lq = rest ∧ (t.ctx cx).sq = (s.ctx cx).sq ∧
      (t.ctx cx).rets = (s.ctx cx).rets ++ [{ op := { op with got := op.fall } }]) ∧
    (op.fails = true → s.fallsBack (s.ctx cx) = false → (∃ v, amoNew f op.size (s.rd (pick op.locs 0) op.size) b.toNat ex.toNat = some v) →
      exec (.atomicPerformed cx) s = .next s) ∧
    (op.fails = false → (∀ o ∈ rest, o.passed = false) → s.hbmWaits op.locs = false →
    let loc := pick op.locs 0
    let old := leNat ((List.range op.size).map fun j => s.byte (loc + j))
    ∃ t, exec (.atomicPerformed cx) s = .next t ∧
      (isSpad loc = false → (t.core (coreOf cx)).hasLine loc = false) ∧ (∀ k, k ≠ coreOf cx → t.core k = s.core k) ∧
      (s.isBad loc = true → (∀ l, t.byte l = s.byte l) ∧ (t.ctx cx).lq = rest ∧
        (t.ctx cx).rets = (s.ctx cx).rets ++ [{ op := { op with bad := some (op.ea / 32 * 32) } }]) ∧
      (s.isBad loc = false →
        (∀ v, amoNew f op.size old b.toNat ex.toNat = some v →
          (∀ j < op.size, t.byte (loc + j) = BitVec.ofNat 8 (v / 256 ^ j)) ∧ (t.ctx cx).lq = rest) ∧
        (amoNew f op.size old b.toNat ex.toNat = none → ∀ l, t.byte l = s.byte l) ∧
        (∀ l, l < loc ∨ loc + op.size ≤ l → t.byte l = s.byte l) ∧
        (∃ got, (t.ctx cx).rets = (s.ctx cx).rets ++ [{ op := { op with got := got } }] ∧ leNat (got.map (·.2)) = old) ∧
        ((s.ctx cx).rets = [] → 0 < d → d < 64 → ∃ u, exec (.loadComplete cx 1 3 false) t = .next u ∧ (u.ctx cx).rets = [] ∧
          (u.ctx cx).sr d = BitVec.ofInt 64 (sgn (8 * op.size) old) ∧ (∀ j, j ≠ d → (u.ctx cx).sr j = (s.ctx cx).sr j) ∧
          ∀ l, u.byte l = t.byte l)))

/-- 10 R218, R222, 14 R311 and Table 14.1: an ordering place that heads both queues is left in both; an acquire at scope die or
wider empties the core's L1; a signal adds to its semaphore, or saturates it; a spawn may then be placed; an accepted arrival at a
byte barrier and a hoop release are dated; a command block is captured. At scope pod the place stays while an earlier far store of
the context is not performed at its target. A place that an ended wheel left behind goes first, with its acquire and its signal (07 R162; log
entry 45); a bundle that waits for a barrier alone has its release performed and its arrival recorded (07 R160; log entry 25). -/
def Sys2Proof.Claims.MarkEventResults : Prop :=
  (∀ (cx : Nat) (s : State) (p : LeftPlace), s.stopped (modOf cx) = false → s.leftReached cx = some p →
    ∃ t, exec (.markPerformed cx) s = .next t ∧ t.mem = s.mem ∧ ((∀ core slot u, p.act ≠ .fork core slot u) → t.ctxs = s.ctxs) ∧
      (t.core (coreOf cx)).left = (s.core (coreOf cx)).left.erase p ∧
      (∀ sc, p.acq = some sc → sc = .die ∨ sc = .module ∨ sc = .pod → (t.core (coreOf cx)).l1 = []) ∧
      (∀ die n k, p.act = .signal die n k → ((s.die die).sem n).cur.bad = false → ((s.die die).sem n).cur.count + k < 2 ^ 32 →
        ((t.die die).sem n).cur = { ((s.die die).sem n).cur with count := ((s.die die).sem n).cur.count + k })) ∧
  (∀ (cx g : Nat) (s : State) (q : PReg) (sc : Scope), s.stopped (modOf cx) = false → s.leftReached cx = none →
    (s.ctx cx).lq = [] → (s.ctx cx).sq = [] → s.arrives cx = true → (s.atIssue cx).fate = .wait [(3, .bar q sc)] →
    (sc = .pod → ∀ r ∈ (s.ctx cx).farSent, s.farOpen r = false) → (s.vat (s.ctx cx).vatKey).gangOf (s.ctx cx).wid.idx = some g →
    ∃ t, exec (.markPerformed cx) s = .next t ∧ t.mem = s.mem ∧ t.cur = s.cur ∧
      ((t.ctx cx).barIn = some sc ∨ (t.ctx cx).barOk = true)) ∧
  ∀ (cx : Nat) (s : State) (a b : MOp) (l q : List MOp) (acq : Option Scope) (pod entry : Bool) (act : OrdAct),
    s.stopped (modOf cx) = false → s.leftReached cx = none → (s.ctx cx).lq = a :: l → (s.ctx cx).sq = b :: q → a.kind = .order acq pod act entry → a.id = b.id →
    (pod = true → (∃ r ∈ (s.ctx cx).farSent, thas s.fars r = true ∧ (tget s.fars r).performed = false) →
      exec (.markPerformed cx) s = .next (if s.arrives cx then s.arriveBar cx else s)) ∧
    ((pod = false ∨ ∀ r ∈ (s.ctx cx).farSent, thas s.fars r = true → (tget s.fars r).performed = true) →
    ∃ t, exec (.markPerformed cx) s = .next t ∧ (t.ctx cx).lq = l ∧ (t.ctx cx).sq = q ∧ t.mem = s.mem ∧
      (act = .none → (∀ sc, acq = some sc → sc = .die ∨ sc = .module ∨ sc = .pod → (t.core (coreOf cx)).l1 = []) ∧
        (acq = none → t.cores = s.cores) ∧ t.quads = s.quads ∧ t.dies = s.dies ∧ t.vats = s.vats) ∧
      (∀ die n k, act = .signal die n k → ((s.die die).sem n).cur.bad = false →
        ((t.die die).sem n).prev = ((s.die die).sem n).seen s.now ∧
        (((s.die die).sem n).cur.count + k < 2 ^ 32 →
          ((t.die die).sem n).cur = { ((s.die die).sem n).cur with count := ((s.die die).sem n).cur.count + k }) ∧
        (2 ^ 32 ≤ ((s.die die).sem n).cur.count + k →
          ((t.die die).sem n).cur = { ((s.die die).sem n).cur with count := 2 ^ 32 - 1, sat := true })) ∧
      (∀ vat idx, act = .spawn vat idx → ∀ w ∈ (t.vat vat).spawns, w.idx = idx → w.released = true) ∧
      (∀ quad i id, act = .bbArrive quad i id → tget (t.quad quad).bbAcc i =
        (tget (s.quad quad).bbAcc i).map fun x => if x.id = id then { x with rel := some s.now } else x) ∧
      (∀ quad i slot, act = .hoopRel quad i slot → ((s.quad quad).hoop i).cur.slotSt slot = .releasing →
        tget ((t.quad quad).hoop i).cur.rel slot = s.now) ∧
      (∀ core slot e, act = .fork core slot e.uid → acq = none → (s.core core).ember slot = some e →
        let locs := (List.range e.op.blockSize).map fun j => spadAddr core (e.ba + j)
        (∀ x ∈ locs, s.isBad x = false) →
        (t.core core).ember slot = some { e with captured := true, cmd := locs.map s.byte }))

/-- 17 R373, R374 and Table 17.7: a walk caches the translation of a page for its core or copy engine in place of any older one of
that page, and nothing else; a completed invalidation leaves no translation that it covers cached in any core or copy engine, keeps
every other one, and lets its context go on. An invalidation of range entry i covers the pages that the entry gave and those it now
reaches, one of a page the translations of that page by the page table, one of the vat all. -/
def Sys2Proof.Claims.TranslationEventResults : Prop :=
  ∀ (s : State) (vat va : Nat),
    (∀ unit x, unit < 2 ^ 40 → s.walk vat va = some x → s.splitPage vat x.page = false → s.walkHeld vat va = false →
      (∃ t, exec (.translationWalk unit vat va) s = .next t ∧
        (t.core unit).tlb = (s.core unit).tlb.filter (fun y => !(y.vat == vat && y.page == x.page)) ++ [x] ∧
        (∀ j, j ≠ unit → t.core j = s.core j) ∧ t.quads = s.quads ∧ t.mem = s.mem ∧ t.ctxs = s.ctxs) ∧
      (∃ t, exec (.translationWalk (2 ^ 40 + unit) vat va) s = .next t ∧
        (t.quad unit).tlb = (s.quad unit).tlb.filter (fun y => !(y.vat == vat && y.page == x.page)) ++ [x] ∧
        (∀ j, j ≠ unit → t.quad j = s.quad j) ∧ t.cores = s.cores ∧ t.mem = s.mem ∧ t.ctxs = s.ctxs)) ∧
    (∀ cx x, s.stopped (modOf cx) = false → (s.ctx cx).xinv = some x →
      let covered := fun y : Xlat => y.vat = (s.ctx cx).vatKey ∧ (match x with
        | .range i => y.range = some i ∨ (let e := s.rangeEntry y.vat i
            e.attr % 2 = 1 ∧ e.base < (y.page + 1) * 4096 ∧ y.page * 4096 ≤ e.limit)
        | .page a => y.range = none ∧ y.page * 4096 / y.size = a / y.size
        | .vat => True)
      ∃ t, exec (.xlatInvComplete cx) s = .next t ∧ (t.ctx cx).xinv = none ∧ (t.ctx cx).pc = (s.ctx cx).pc ∧ t.mem = s.mem ∧
        (∀ j, j ≠ cx → t.ctx j = s.ctx j) ∧
        (∀ k y, y ∈ (t.core k).tlb ↔ y ∈ (s.core k).tlb ∧ ¬covered y) ∧
        (∀ k y, y ∈ (t.quad k).tlb ↔ y ∈ (s.quad k).tlb ∧ ¬covered y))

/-- 18 R388, R389, R392 to R394, FarTarget: a request that reaches its die over a route that is up is answered, and its answer takes
the same route. It is answered with poison, and nothing is read or written, where the domain is not bound, the window's entry is
invalid or has not the bit that the operation asks for (1 to read, 2 to write, 3 for an atomic), the access passes its end, or the
address has no translation that grants the right. Otherwise, on a resident page, a far load reads its bytes (with poison where a
unit is marked), a far store and a flag store write theirs and no others, and an atomic does both at one instant. -/
def Sys2Proof.Claims.FarTargetResults : Prop :=
  ∀ (req die : Nat) (s : State), let r := tget s.fars req
    thas s.fars req = true → r.answered = false → s.dieOfPod r.die = some die → s.routeUp (dieOf r.ctx) die = true →
    s.stopped (die / 8) = false → s.farHeld r die = false →
    let r' := { r with route := some (!s.routeVia (dieOf r.ctx) die false), answered := true }
    let poisoned := exec (.farRequestReceive req) s = .next { s with fars := tset s.fars req { r' with poison := true } }
    let bit := match r.op with | .ld => 1 | .st => 2 | .flag => 2 | .amo _ => 3
    let reads := match r.op with | .ld => true | .amo _ => true | _ => false
    let writes := match r.op with | .ld => false | _ => true
    (thas (s.die die).doms r.domain = false → poisoned) ∧
    (∀ vat table, thas (s.die die).doms r.domain = true → tget (s.die die).doms r.domain = (vat, table) →
      (s.window vat table r.win = none → poisoned) ∧
      (∀ base len rt, s.window vat table r.win = some (base, len, rt) →
        (len < r.off + r.size → poisoned) ∧ (rt.testBit bit = false → poisoned) ∧
        (s.walk vat (base + r.off) = none → poisoned) ∧
        (∀ x, r.off + r.size ≤ len → rt.testBit bit = true → s.walk vat (base + r.off) = some x →
          ((reads = true ∧ x.r = false) ∨ (writes = true ∧ x.w = false) ∨ base + r.off < 2 ^ 32 ∨ 2 ^ 56 ≤ base + r.off → poisoned) ∧
          ((reads = true → x.r = true) → (writes = true → x.w = true) → x.resident = true → 2 ^ 32 ≤ base + r.off →
            base + r.off < 2 ^ 56 → 0 < r.size → r.size ≤ 8 →
            let loc := x.loc + (base + r.off) % 4096
            let old := leNat ((List.range r.size).map fun i => s.byte (loc + i))
            let marked := ∃ i < r.size, s.isBad (loc + i) = true
            let done := fun (t : State) (v : Word) => exec (.farRequestReceive req) s = .next t ∧
              tget t.fars req = { r' with performed := true, value := v } ∧
              ∀ l, l < loc ∨ loc + r.size ≤ l → t.byte l = s.byte l
            (reads = true → marked → poisoned) ∧
            (r.op = .ld → ¬marked → ∃ t, done t (BitVec.ofNat 64 old) ∧ t.mem = s.mem) ∧
            (r.op = .st ∨ r.op = .flag → ∃ t, done t 0 ∧
              ∀ j < r.size, t.byte (loc + j) = BitVec.ofNat 8 (r.b.toNat / 256 ^ j)) ∧
            (∀ f, r.op = .amo f → ¬marked → r.fails = false → ∃ t, done t (BitVec.ofNat 64 old) ∧
              (∀ v, amoNew f r.size old r.b.toNat r.expected.toNat = some v →
                ∀ j < r.size, t.byte (loc + j) = BitVec.ofNat 8 (v / 256 ^ j)) ∧
              (amoNew f r.size old r.b.toNat r.expected.toNat = none → t.mem = s.mem))))))

/-- 18 R392 to R395: the response of a far load or atomic puts its value, sign-extended from 4 bytes, into the destination and ends
the block, that of a flag fence ends it and writes no register; a poisoned one, and none
within 16,000,000 cycles, ends it with a completion trap that leaves the destination alone (17 R356); the acknowledgement of a far
store completes it, and a poisoned one or none sets the far-store record. -/
def Sys2Proof.Claims.FarAnswerResults : Prop :=
  ∀ (req cx : Nat) (s : State), let r := tget s.fars req
    let c := s.ctx cx
    s.stopped (modOf r.ctx) = false → thas s.fars req = true → s.findWheel r.wheel = some cx → r.timedOut = false →
    c.phase = .running →
    let alone := fun w : FarWait => c.farWait = [w] ∧ w.op = r.opId ∧ c.lv.land = [] ∧ c.lv.fmtp = none ∧ c.level = 0 ∧ c.tvec ≠ 0
    let trapped := fun (t : State) (w : FarWait) (code : Nat) => (t.ctx cx).farWait = [] ∧ (t.ctx cx).level = 1 ∧
      (t.ctx cx).pc = c.tvec ∧ (t.ctx cx).cause = BitVec.ofNat 64 (code + 256 * w.slot) ∧ (t.ctx cx).epc = c.pc ∧
      (t.ctx cx).tbundle = w.bundle ∧ (t.ctx cx).tval = BitVec.ofNat 64 r.ea ∧ (∀ j, (t.ctx cx).sr j = c.sr j) ∧ t.mem = s.mem
    let blocked := r.op ≠ .st
    (blocked → s.answerUp r = true → r.size = 4 ∨ r.size = 8 → ∀ w, alone w → w.slot = 5 ∨ w.slot = 6 →
      ∃ t, exec (.farResponse req) s = .next t ∧
      (r.poison = false → r.op ≠ .flag → r.d ≠ 0 → r.d < 64 → (t.ctx cx).farWait = [] ∧ (t.ctx cx).pc = c.pc ∧
        (t.ctx cx).sr r.d = (if r.size = 4 then BitVec.ofInt 64 (sgn 32 (r.value.toNat % 2 ^ 32)) else r.value) ∧
        (∀ j, j ≠ r.d → (t.ctx cx).sr j = c.sr j) ∧ t.mem = s.mem) ∧
      (r.poison = false → r.op = .flag → (t.ctx cx).farWait = [] ∧ (t.ctx cx).pc = c.pc ∧
        (∀ j, (t.ctx cx).sr j = c.sr j) ∧ t.mem = s.mem) ∧
      (r.poison = true → trapped t w 0x09)) ∧
    (blocked → r.acked = false → r.sentAt + 16000000 ≤ s.now → ∀ w, alone w → w.slot = 5 ∨ w.slot = 6 → ∃ t,
      exec (.farTimeout req) s = .next t ∧ (tget t.fars req).timedOut = true ∧ trapped t w 0x0A) ∧
    (r.op = .st → r.acked = false →
      let done := settleOuts (c.outs.map fun o => if o.id = r.opId then { o with done := true } else o) []
      (s.answerUp r = true → ∃ t, exec (.fstAck req) s = .next t ∧ (t.ctx cx).outs = done ∧ t.mem = s.mem ∧
        (∀ j, (t.ctx cx).sr j = c.sr j) ∧ (r.poison = false → (t.ctx cx).farRec = c.farRec) ∧
        (r.poison = true → c.farRec = none → (t.ctx cx).farRec = some (0x09, r.ea))) ∧
      (r.sentAt + 16000000 ≤ s.now → ∃ t, exec (.farTimeout req) s = .next t ∧ (t.ctx cx).outs = done ∧
        (tget t.fars req).timedOut = true ∧ (c.farRec = none → (t.ctx cx).farRec = some (0x0A, r.ea)) ∧ t.mem = s.mem))


/-- What a slot's instruction does to registers at its issue: none changes; results only join the landing buffer of the level
that issued them, each under the sequence number of the running bundle, and no earlier result leaves it. -/
def Sys2Proof.Claims.OnlyLands (s t : State) : Prop :=
  ∃ ls, t.cc = s.cc.setLv { s.cc.lv with land := ls } ∧ (∀ e ∈ s.cc.lv.land, e ∈ ls) ∧
    (∀ e ∈ ls, e ∈ s.cc.lv.land ∨ e.seq = s.cc.seq)
/-- Every byte of memory and every poison mark. -/
def Sys2Proof.Claims.SameMemory (s t : State) : Prop := (∀ a, t.byte a = s.byte a) ∧ t.poison = s.poison
/-- Everything shared beyond the core, but the quads: dies, vats, modules and far requests. -/
def Sys2Proof.Claims.SameDies (s t : State) : Prop :=
  t.dies = s.dies ∧ t.vats = s.vats ∧ t.mods = s.mods ∧ t.fars = s.fars
/-- pane.park and pane.unpark, the vector-slot instructions that use the park store. -/
def Sys2Proof.Claims.parks : Instr → Bool
  | .panePark _ _ _ | .paneUnpark _ _ _ => true
  | _ => false

/-- Frame of the vector slots and the A slot (02 R47, R50): an instruction of these slots, but for pane.park and pane.unpark,
writes no memory, no poison mark, no pane, nothing of the core, the quad, the die, the vat or another context, and no register
at its issue: it only adds results to the landing buffer. What a delivery then changes is DeliveryFrame's. -/
def Obligations.RegisterInstructionFrame : Prop :=
  ∀ (i : Instr) (s t : State) (n v : Nat), i.encSlot = some (n, v) → n = 0 ∨ n = 1 ∨ n = 4 → parks i = false →
    IssuesV i s → exec i s = .next t →
      SameMemory s t ∧ SameDies s t ∧ t.cores = s.cores ∧ t.quads = s.quads ∧ (∀ cx, cx ≠ s.cur → t.ctx cx = s.ctx cx) ∧
      OnlyLands s t

/-- Frame of the C slot, but for wheel.end, whose delivery of every pending result is WaitBarrierAndEndResults', and tret, whose delivery is
SystemResults': memory, poison, panes and registers stay, in every context; the die changes under sem.wait alone and the vat and the molds under a spawn alone. -/
def Obligations.ControlInstructionFrame : Prop :=
  ∀ (i : Instr) (s t : State) (v : Nat), i.encSlot = some (3, v) → (∀ p, i ≠ .wheelEnd p ∧ i ≠ .tret p) →
    IssuesV i s → exec i s = .next t →
      SameMemory s t ∧ SameRegisters s.cc t.cc ∧ t.quads = s.quads ∧ (∀ cx, cx ≠ s.cur → t.ctx cx = s.ctx cx) ∧
      (∀ k, (t.core k).panes = (s.core k).panes) ∧ t.mods = s.mods ∧ t.fars = s.fars ∧
      ((∀ p a n, i ≠ .semWait p a n) → t.dies = s.dies) ∧ (∀ d, d ≠ dieOf s.cur → t.die d = s.die d) ∧
      ((∀ p a, i ≠ .wheelSpawn p a ∧ i ≠ .wheelSpawnCore p a) → t.vats = s.vats ∧ t.cores = s.cores) ∧
      (∀ k, k ≠ s.cc.vatKey → t.vat k = s.vat k)

/-- Frame of the LD and ST slots: at its issue a memory instruction only enters the queues (10 R204); no byte of memory, no
poison mark, no register, no pane and nothing of a quad, a die, a vat or another context changes. What the performing of a
queued operation then changes is StoreAndLoadFrame's. -/
def Obligations.MemoryInstructionFrame : Prop :=
  ∀ (i : Instr) (s t : State) (n v : Nat), i.encSlot = some (n, v) → n = 5 ∨ n = 6 → IssuesV i s → exec i s = .next t →
    SameMemory s t ∧ SameRegisters s.cc t.cc ∧ SameDies s t ∧ t.quads = s.quads ∧
    (∀ cx, cx ≠ s.cur → t.ctx cx = s.ctx cx) ∧ (∀ k, (t.core k).panes = (s.core k).panes) ∧
    t.cc.lv.land = s.cc.lv.land ∧ t.cc.lv.fmtp = s.cc.lv.fmtp ∧ t.cc.lv.loops = s.cc.lv.loops

/-- Frame of the E slot: an ember, press, hoop, barrier or mold instruction writes no byte of memory, no poison mark, no pane,
no register at its issue, and nothing of another quad, of another core, of a die, of a vat or of a collective, but that emb.cancel of
a collective that began in this cycle ends that beginning: the embers of its members, in their cores or saved with their vats, wait again
(11 R229, R237), and what they hold back in their queues (R232); of the other contexts of its core
it changes at most what emb.after left (11 R241), and of those of other cores nothing. -/
def Obligations.EngineInstructionFrame : Prop :=
  ∀ (i : Instr) (s t : State) (v : Nat), i.encSlot = some (2, v) → IssuesV i s → exec i s = .next t →
    SameMemory s t ∧ t.dies = s.dies ∧ t.mods = s.mods ∧ t.fars = s.fars ∧ SameRegisters s.cc t.cc ∧
    (∀ q, q ≠ quadOf s.cur → t.quad q = s.quad q) ∧
    ((∀ p d a, i ≠ .embCancel p d a) → (∀ k, k ≠ coreOf s.cur → t.core k = s.core k) ∧ t.vats = s.vats ∧ t.colls = s.colls) ∧
    (∀ k, ∃ f : CoreSave → Tbl (Option Ember), t.vat k = { s.vat k with saves := (s.vat k).saves.map fun x => { x with embers := f x } }) ∧
    (∀ r ∈ t.colls, r ∈ s.colls) ∧
    (∀ k, k ≠ coreOf s.cur → ∃ l, t.core k = { s.core k with embers := l }) ∧
    (t.core (coreOf s.cur)).panes = (s.core (coreOf s.cur)).panes ∧
    (∀ cx, coreOf cx ≠ coreOf s.cur → t.ctx cx = s.ctx cx) ∧
    (∀ cx, cx ≠ s.cur → coreOf cx = coreOf s.cur → ∃ d, t.ctx cx = { s.ctx cx with dep := d })

/-- Frame of a delivery (02 R50, 03 R56): a scalar register, predicate, lane mask, operand register or control register that no
due result names keeps its value, STATUS where also no due result carries a flag, and FMT where no pending write has run out (02 R54,
03 R78); so does a pane that none names, every byte of memory, and everything of another context. -/
def Obligations.DeliveryFrame : Prop :=
  ∀ (s t : State) (cx : Nat), s.issue.active = false → exec (.resultDelivery cx) s = .next t →
    let c := s.ctx cx
    let d := t.ctx cx
    let due := fun x : Dest => ∃ e ∈ c.lv.land, e.rem = 0 ∧ e.dest = x
    (∀ n, ¬ due (.sreg n) → d.sr n = c.sr n) ∧ (∀ n, ¬ due (.preg n) → d.pr n = c.pr n) ∧
    (∀ n, ¬ due (.kreg n) → d.kr n = c.kr n) ∧ (∀ n, ¬ due (.oreg n) → d.or n = c.or n) ∧
    (¬ due .status → (∀ e ∈ c.lv.land, e.rem = 0 → e.flags = 0) → d.status = c.status) ∧
    ((∀ p, c.lv.fmtp = some p → p.rem ≠ 0) → d.fmt = c.fmt) ∧ (¬ due .key → d.key = c.key) ∧ (¬ due (.csr 0x100) → d.cause = c.cause) ∧ (¬ due (.csr 0x101) → d.epc = c.epc) ∧
    (¬ due (.csr 0x102) → d.tval = c.tval) ∧ (¬ due (.csr 0x103) → d.tvec = c.tvec) ∧ d.level = c.level ∧ d.pc = c.pc ∧
    d.saveptr = c.saveptr ∧ d.tbundle = c.tbundle ∧
    ((∀ e ∈ c.lv.land, e.rem = 0 → e.lat = none) → d.lat0 = c.lat0 ∧ d.lat1 = c.lat1) ∧
    (∀ ph r, r < 64 → (∀ dir x, ¬ due (.pane ph dir x)) → ¬ due (.paneImg ph) →
      (∀ e ∈ c.lv.land, ∀ p dir x, e.dest = .pane p dir x → x < 64 ∧ (e.esz = 8 ∨ e.esz = 16 ∨ e.esz = 32) ∧
        e.n * e.esz ≤ 1024) → (∀ e ∈ c.lv.land, e.img.length ≤ 64) →
      (t.core (coreOf cx)).row ph r = (s.core (coreOf cx)).row ph r) ∧
    SameMemory s t ∧ SameDies s t ∧ t.quads = s.quads ∧ (∀ j, j ≠ cx → t.ctx j = s.ctx j) ∧
    (∀ k, k ≠ coreOf cx → t.core k = s.core k)

/-- Frame of performing (10 R207, 07 R51): performing parts of the oldest store, or of one that goes before the acquire at the head (14
R323), changes no byte outside the locations that its issue translated its address to, and no register; performing a load changes no byte and no register; a return of loaded bytes
changes the registers and pane rows that it names and no others. -/
def Obligations.StoreAndLoadFrame : Prop :=
  ∀ (s t : State) (cx ret sel : Nat) (hit : Bool), s.issue.active = false →
    (∀ op rest, let behind := ∃ b acq pod act e, (s.ctx cx).sq = b :: op :: rest ∧ b.kind = .order acq pod act e ∧ op.id ≠ b.id
      (s.ctx cx).sq = op :: rest ∨ behind → op.kind = .store → op.size ≤ op.locs.length →
      exec (.storePerformed cx sel) s = .next t →
        (∀ a, a ∉ op.locs → t.byte a = s.byte a) ∧ SameRegisters (s.ctx cx) (t.ctx cx) ∧
        t.dies = s.dies ∧ t.mods = s.mods ∧ ((s.ctx cx).sq = op :: rest → t.fars = s.fars) ∧ (∀ j, j ≠ cx → t.ctx j = s.ctx j) ∧
        (∀ k, (t.core k).panes = (s.core k).panes) ∧ ∀ k, ∃ l, t.vat k = { s.vat k with codeOld := l }) ∧
    (exec (.loadComplete cx ret sel hit) s = .next t →
      SameMemory s t ∧ t.dies = s.dies ∧ t.vats = s.vats ∧ t.mods = s.mods ∧ t.quads = s.quads ∧
      (∀ j, j ≠ cx → t.ctx j = s.ctx j) ∧
      (ret = 0 → SameRegisters (s.ctx cx) (t.ctx cx) ∧ ∀ k, (t.core k).panes = (s.core k).panes) ∧
      (∀ r, 0 < ret → (s.ctx cx).rets[ret - 1]? = some r →
        let named := fun x : RegId => ∃ w ∈ loadWrites r.op, w.1 = x
        (∀ n : Fin 64, ¬ named (.s n) → (t.ctx cx).sr n.val = (s.ctx cx).sr n.val) ∧
        (∀ n : Fin 8, ¬ named (.k n) → (t.ctx cx).kr n.val = (s.ctx cx).kr n.val) ∧
        (∀ n : Fin 16, ¬ named (.o n) → (t.ctx cx).or n.val = (s.ctx cx).or n.val) ∧
        (¬ named (.p 0) → (t.ctx cx).p = (s.ctx cx).p) ∧
        (∀ ph row, row < 64 → (∀ x y, named (.row x y) → y < 64) → ¬ named (.row ph row) →
          (t.core (coreOf cx)).row ph row = (s.core (coreOf cx)).row ph row) ∧
        (t.ctx cx).fmt = (s.ctx cx).fmt ∧ (t.ctx cx).key = (s.ctx cx).key ∧ (t.ctx cx).status = (s.ctx cx).status ∧
        (t.ctx cx).level = (s.ctx cx).level))

/-- No instruction and no machine event ever stops the machine: the table gives each an effect, a wait or a trap that the
specification describes (02 R37 to R44, 17 R356). -/
def Obligations.NothingStopsTheMachine : Prop :=
  (∀ (i : Instr) (s : State), ∃ t, exec i s = .next t) ∧ (∀ s : State, ∃ t, step s = .next t)

/-- Memory keeps its canonical form under every step: addresses rise and no byte is listed that reads as an unlisted one. -/
def Obligations.EveryStepKeepsMemoryCanonical : Prop :=
  ∀ s t : State, s.memOk → step s = .next t → t.memOk

/-- The memory after reset is in canonical form. -/
def Sys2Proof.Claims.ResetMemoryIsCanonical : Prop := State.reset.memOk

/-- No bundle stays open between steps: a step from a state without an open bundle leaves none open. -/
def Sys2Proof.Claims.EveryStepClosesItsBundle : Prop :=
  ∀ s t : State, s.issue.active = false → step s = .next t → t.issue.active = false

/-- Every well-formed instruction of the seven slots has an encoding, with every operand at every value that the encodings admit,
and is what the literal bundle that encodes it alone decodes to; the machine events, which come after the instructions in the
syntax, have none (02 R28, R29, R34, 05 R103 to R119). -/
def Obligations.DecodeOfEncode : Prop :=
  ∀ i : Instr, (i.ctorIdx < (Instr.bundleIssue 0).ctorIdx → i.wf = true → ∃ ws, encode i = some ws ∧ decode ws = some i) ∧
    ((Instr.bundleIssue 0).ctorIdx ≤ i.ctorIdx → encode i = none)

/-- A literal has at most one spelling: code words that decode to an instruction are that instruction's encoding, so that every
reserved field of the encodings is checked (05 R103), and the instruction is well formed. -/
def Obligations.EncodeOfDecode : Prop :=
  ∀ (ws : List Nat) (i : Instr), (∀ w ∈ ws, w < 2 ^ 16) → decode ws = some i → encode i = some ws ∧ i.wf = true


/-- Executing answers a next state, of which something holds. -/
def Sys2Proof.Claims.Leads (i : Instr) (s : State) (post : State → Prop) : Prop := ∃ t, exec i s = .next t ∧ post t
/-- An ember's record shows a final state with its cause, fault address and progress word (11 R247). -/
def Sys2Proof.Claims.Ended (t : State) (core slot : Nat) (st : EState) (cause faddr prog : Nat) : Prop :=
  ∃ e, (t.core core).ember slot = some e ∧ e.st.cur = st ∧ e.cause = cause ∧ e.faddr = faddr ∧ e.prog = prog
/-- An ember not final whose record no uncorrectable error has struck (11 R250). -/
def Sys2Proof.Claims.Sound (e : Ember) : Prop := e.struck = false ∧ e.st.cur.final = false
/-- An ember that its engine has begun: RUNNING where it was PENDING, ORPHANED where it was that (11 Table 11.2). -/
def Sys2Proof.Claims.Begun (t : State) (core slot : Nat) (e : Ember) (now : Nat) : Prop :=
  (t.core core).ember slot = some { e with
    began := true, stopped := false, snap := if e.isSnap then e.snap else [], st :=
      if e.st.cur = .pending then e.st.put now .running else if e.st.cur = .orphaned then e.st.put now .orphaned else e.st }

/-- Nothing of an earlier step of an ember is left, no write put off, parked or owed to a target (14 R308, R318). -/
def Sys2Proof.Claims.Settled (s : State) (e : Ember) : Prop :=
  s.lag = false ∧ s.hasLate e.uid = false ∧ s.emberOpen e = false

/-- 12 R255, LeaseArbiter: the chosen lease requests; its core is the first after lastcore that holds a request; its priority is
the lowest of that core's requests, and its context the first after the core's lastctx among those. -/
def Sys2Proof.Claims.LeaseArbiterOrder : Prop :=
  ∀ (quad : Nat) (s : State) (w : WheelLease), let q := s.quad quad
    let dist := fun (last x : Nat) => (x % 4 + 3 - last) % 4
    q.lastcore < 4 → (∀ g, tget q.lastctx g < 4) → s.arbiter quad = some w →
      w ∈ q.leases ∧ w.cur.requesting = true ∧
      ∀ x ∈ q.leases, x.cur.requesting = true →
        dist q.lastcore (coreOf w.ctx) ≤ dist q.lastcore (coreOf x.ctx) ∧
        (coreOf x.ctx % 4 = coreOf w.ctx % 4 → s.requestPrio w ≤ s.requestPrio x ∧
          (s.requestPrio x = s.requestPrio w →
            dist (tget q.lastctx (coreOf w.ctx % 4)) w.ctx ≤ dist (tget q.lastctx (coreOf w.ctx % 4)) x.ctx))

/-- 12 R255, R257, R259, R267: a grant gives the array to the arbiter's choice in a cycle after the last lease ended; a bank with
a deferred release whose last command is final becomes free and keeps its accumulators; a command that may start and has no fault
takes the array (while no stack recalibrates), one with a fault becomes FAULTED with progress 0 and writes nothing; a multicast transfer begins for the sender
and every receiver once all of them run. -/
def Sys2Proof.Claims.PressStartEvents : Prop :=
  ∀ (quad : Nat) (s : State), let q := s.quad quad
    s.issue.active = false → (s.modu (quad / 256)).halted = false →
    (∀ w, (∀ l ∈ q.leases, l.cur.isGranted = false) → q.endedAt ≠ some s.now → s.arbiter quad = some w →
      Leads (.leaseGrant quad) s fun t =>
        (t.quad quad).leases = putLease q.leases { w with
          cur := { w.cur with st := if w.cur.freed then .freeing true else .granted }, image := none } ∧
        (t.quad quad).lastcore = coreOf w.ctx % 4 ∧ tget (t.quad quad).lastctx (coreOf w.ctx % 4) = w.ctx % 4 ∧ t.mem = s.mem) ∧
    (∀ b cx w n, (q.bank b).holder = some (cx, w) → (q.bank b).release = some n →
      (∀ x ∈ (s.core (coreOf cx)).live, x.2.issuer = w → x.2.ctx = cx → x.2.op.bank = some b → x.2.order < n →
        x.2.st.cur.final = true) →
      Leads (.bankDeferredRelease quad b) s fun t =>
        (t.quad quad).bank b = { q.bank b with holder := none, release := none } ∧ t.mem = s.mem) ∧
    (∀ core slot e, core / 4 = quad → q.run = none → s.canStart core slot 0 = true → (s.core core).ember slot = some e →
      q.leaseGranted e = true → e.stopped = false → Sound e → s.recal = false →
      Leads (.pressCommandStart quad core slot) s fun t => t.mem = s.mem ∧
        (s.pressFault core e = none → (t.quad quad).run = some { core := core, slot := slot } ∧ Begun t core slot e s.now) ∧
        (∀ f, s.pressFault core e = some f → (t.quad quad).run = none ∧ Ended t core slot .faulted f.1 f.2 0)) ∧
    (∀ r e w n, s.pressRun quad = some (r, e) → e.op = .stat w n → Machine.fld e.cmd 56 1 = 1 → r.sending = false →
      (∀ i < 32, i ≠ quad % 32 → (Machine.fld e.cmd 60 4).testBit i = true → quad / 32 * 32 + i ∈ s.castMembers quad false) →
      (∀ m ∈ s.castMembers quad false, ∀ r' e', s.pressRun m = some (r', e') → e'.vat = e.vat ∧ e'.fresh s.now = false) →
      Leads (.multicastTransfer quad) s fun t => t.mem = s.mem ∧
        ∀ m ∈ s.castMembers quad false, ∃ r', (t.quad m).run = some r' ∧ r'.sending = true)

/-- After one unit of a press command: it goes on at the next, or it is DONE after its last (12 R274). -/
def Sys2Proof.Claims.Advanced (s t : State) (quad : Nat) (r : PressRun) (e : Ember) (units total : Nat) : Prop :=
  (units ≠ total → (t.quad quad).run = some { r with unit := units, held := s.halting e.vat r.core } ∧
    ∃ e', (t.core r.core).ember r.slot = some e' ∧ e'.prog = units ∧ e'.st = e.st) ∧
  (units = total → (t.quad quad).run = none ∧ Ended t r.core r.slot .done 0 0 units)

/-- 12 R268: an accumulator after one reduction block: the exact sum of the products, scaled, is added with one FP32 rounding; NaN
where a scale is. -/
def Sys2Proof.Claims.Accumulated (cmp L : Nat) (a w : List Nat) (sa sw acc : Nat) : Nat :=
  let f := fmtOf (cmp % 64)
  let T : Val := if sa = 255 ∨ sw = 255 then .nan
    else ((Val.sum ((a.zip w).map fun x => ((f.dec x.1).mul (f.dec x.2)).1)).scale ((sa : Int) - 127 + sw - 127 - L)).plusZero
  let z := (fmtF32.result false .rne ((fmtF32.dec acc).add .rne T)).1
  if z = 0x80000000 then 0 else z

/-- The bytes that row i of a drain writes, from the row's accumulators u: every kept element rounded once from the drained row, or
from its sum with the old element, as it is read from memory (12 R271). -/
def Sys2Proof.Claims.Drained (e : Ember) (acc : Bool) (cols i : Nat) (u : List Nat) (read old : Nat → Byte) : List (Nat × Byte) :=
  let d := e.drainBlk
  if d.mx then d.mxRow e cols i u
  else d.plainRow cols i ((d.row e.seed0 u).zipIdx.map fun x =>
    ((fmtOf (d.fmt % 64)).conv d.satf (d.mode e.seed1 i x.2) (if acc then
      ((fmtF32.dec (leNat ((d.elemAddrs i x.2).map read))).add (d.mode e.seed1 i x.2) x.1).1 else x.1)).1) old

/-- Value(r, c) of 12 R264 from a stored element's bytes: the FP32 value of a paired element; an MX element under its scale, rounded to
BF16 where the blocking lies across the reduction axis; half a byte, or a whole code. -/
def Sys2Proof.Claims.StoredValue (t : Tile) (c : Nat) (bs : List Byte) : Val :=
  let byte (k : Nat) : Nat := (pick bs k : Byte).toNat
  let half := byte 0 / 16 ^ (c % 2) % 16
  if t.paired then
    fmtF32.dec (fmtF32.result false .rne ((mxVal (fpOf t.src) (byte 2) (byte 0)).add .rne (mxVal (fpOf t.res) (byte 3) (byte 1)))).1
  else if 128 ≤ t.src then
    let v := mxVal (fpOf (t.src % 64)) (byte 1) (if t.src % 64 = 3 then half else byte 0)
    if t.redCols then v else fmtBf16.dec (fmtBf16.conv false .rne v).1
  else (fmtOf t.src).dec (if fmtBits t.src = 4 then half else leNat bs)

/-- x of 12 R264 at place m of the other axis and i of the reduction axis: 0 beyond the extents and where the bitmap, w positions and 8
rows to a bit, clears it (R269). -/
def Sys2Proof.Claims.TileValue (t : Tile) (rd : Nat → Byte) (bm : Option (Nat × Nat)) (m i : Nat) : Val :=
  let p := if t.redCols then (m, i) else (i, m)
  if (decide (m < t.others) && decide (i < t.reds) && bm.all fun x => x.2.testBit (m / 8 * (256 / x.1) + i / x.1)) = true then
    StoredValue t p.2 ((t.elemAddrs p.1 p.2).map rd)
  else .fin false 0 0

/-- y of 12 R264: the exact signed sum over the rotation block, along the reduction axis or along the output axis; x without a
rotation. -/
def Sys2Proof.Claims.TileRotated (t : Tile) (rd : Nat → Byte) (bm : Option (Nat × Nat)) (m i : Nat) : Val :=
  let n := rotSize t.rot
  let sign (neg : Bool) (v : Val) : Val := if neg then v.neg else v
  let global (cols : Bool) (j : Nat) : Nat := if cols then t.col0 + j else t.row0 + j
  let d (g : Nat) : Bool := (keyMix t.rotSeed (BitVec.ofNat 64 g)).getLsbD 63
  let odd (x : Nat) : Bool := decide (((List.range 8).filter x.testBit).length % 2 = 1)
  if n = 0 then TileValue t rd bm m i
  else if t.rotOut then Val.sum ((List.range n).map fun j =>
    sign (odd (m % n &&& j)) (sign (d (global (!t.redCols) (m / n * n + j))) (TileValue t rd bm (m / n * n + j) i)))
  else Val.sum ((List.range n).map fun j =>
    sign (odd (i % n &&& j)) (sign (d (global t.redCols (i / n * n + j))) (TileValue t rd bm m (i / n * n + j))))

/-- MillTile of 12 R264 for len positions of line m from position i0 on, whole rotation blocks: every element of y rounded once to the
compute format, under scale 127, or every 32 of them quantised as an MX block; under SR element (r, c) draws its own key. -/
def Sys2Proof.Claims.Milled (t : Tile) (rd : Nat → Byte) (bm : Option (Nat × Nat)) (m i0 len : Nat) (l : List Nat × List Nat) : Prop :=
  let mode (i : Nat) : Mode :=
    let p := if t.redCols then (m, i) else (i, m)
    byteMode t.rnd (keyMix t.rndSeed (BitVec.ofNat 64 ((t.row0 + p.1) * t.ng + t.col0 + p.2)))
  let y (j : Nat) : Val := TileRotated t rd bm m (i0 + j)
  (t.cmp < 128 → l.1 = (List.range len).map (fun j => ((fmtOf t.cmp).conv true (mode (i0 + j)) (y j)).1) ∧
    l.2 = List.replicate (len / 32) 127) ∧
  (128 ≤ t.cmp → ∀ k < len / 32,
    let b := mxQuantise (fpOf (t.cmp % 64)) ((List.range 32).map fun j => (y (32 * k + j), mode (i0 + 32 * k + j)))
    pick l.2 k = b.1 ∧ ∀ j < 32, pick l.1 (32 * k + j) = pick b.2.1 j)

/-- 12 R266: an image holds what the mill makes of every line of a stat's tile, with the tile's format and rotation and its vat. -/
def Sys2Proof.Claims.ImageOf (im : Image) (s : State) (core : Nat) (e : Ember) (vat : Nat) : Prop :=
  im.vat = vat ∧ im.kind = Machine.fld e.cmd 0 1 ∧ im.fmt = e.tile.cmp ∧ im.rot = e.tile.rot ∧ im.rotOut = e.tile.rotOut ∧
  ∀ o < 256, let l := e.tile.mill (s.heldRead core [] e 0) none o 0 256
    ∀ i < 256, tget im.q (256 * o + i) = pick l.1 i ∧ tget im.sc (8 * o + i / 32) = pick l.2 (i / 32)

/-- 12 R264, R266 to R272, R274, 14 R308: what the mill makes of a line; a press.zero clears its region of the bank and nothing else of
it, and is DONE; a press.stat leaves the image of its tile as the stationary one, in its own press and in that of every quad that takes
part in its multicast; a press.run, dense or sparse, adds one reduction block to every accumulator of its rows and advances by it; a
press.drain writes the kept elements of its next eight rows to memory or to panes, and nothing else. A part of a step that only reads
changes neither memory nor what the step will read; the writes of a step that were put off are performed by aligned 4-byte units. That
a step may be taken in parts, in these ways, is the model's reading of R308 (log entry 15). -/
def Obligations.PressBoundaryEvents : Prop :=
  (∀ (t : Tile) (rd : Nat → Byte) (bm : Option (Nat × Nat)) (m i0 len : Nat), m < 256 →
    (t.rotOut = true ∨ rotSize t.rot = 0 ∨ (rotSize t.rot ∣ i0 ∧ rotSize t.rot ∣ len)) →
    Milled t rd bm m i0 len (t.mill rd bm m i0 len)) ∧
  (∀ (quad : Nat) (s : State) (r : PressRun) (e : Ember), s.issue.active = false → (s.modu (quad / 256)).halted = false →
    s.pressRun quad = some (r, e) → e.cancel = false → Sound e → s.pressStill r e = false → s.recal = false → Settled s e →
    r.core / 4 = quad →
    (∀ b, e.op = .zero b → let d := e.drainBlk
      Leads (.pressBoundary (quad, .whole)) s fun t => t.mem = s.mem ∧ (t.quad quad).run = none ∧ Ended t r.core r.slot .done 0 0 0 ∧
        (∀ row col, col < 256 → ((t.quad quad).bank b).at_ row col =
          if d.br0 ≤ row ∧ row < d.br0 + d.nrows ∧ d.bc0 ≤ col ∧ col < d.bc0 + d.ncols then 0
          else ((s.quad quad).bank b).at_ row col) ∧
        ((t.quad quad).bank (!b)).acc = ((s.quad quad).bank (!b)).acc ∧ ((t.quad quad).bank (!b)).bad = ((s.quad quad).bank (!b)).bad) ∧
    (∀ w n, e.op = .stat w n → s.readFault r.core e.vat (e.tile.addrs none 0 256) = none → (n = true → s.lockedLines = []) →
      (Machine.fld e.cmd 56 1 = 0 → (∀ l ∈ (s.quad quad).leases, l.cur.freed = false ∧ l.cur.count ≠ 32) →
        Leads (.pressBoundary (quad, .whole)) s fun t => t.mem = s.mem ∧ (t.quad quad).run = none ∧ Ended t r.core r.slot .done 0 0 0 ∧
          ∃ im, (t.quad quad).image = some im ∧ ImageOf im s r.core e e.vat) ∧
      (Machine.fld e.cmd 56 1 = 1 → r.sending = true →
        (∀ m ∈ s.castMembers quad true, ∃ r' e', s.pressRun m = some (r', e') ∧ r'.core / 4 = m ∧ e'.cancel = false ∧ Sound e' ∧
          s.emberOpen e' = false ∧ ∀ l ∈ (s.quad m).leases, l.cur.freed = false ∧ l.cur.count ≠ 32) →
        Leads (.pressBoundary (quad, .whole)) s fun t => t.mem = s.mem ∧
          ∀ m ∈ s.castMembers quad true, ∀ r' e', s.pressRun m = some (r', e') →
            (t.quad m).run = none ∧ Ended t r'.core r'.slot .done 0 0 0 ∧
            ∃ im, (t.quad m).image = some im ∧ ImageOf im s r.core e e'.vat)) ∧
    (∀ b sp n, e.op = .run b sp n → (n = true → s.lockedLines = []) → let bl := blockLen e.tile.cmp
      let rot := rotSize e.tile.rot
      let need := if rot < bl then (r.unit * bl, bl) else (r.unit * bl / rot * rot, rot)
      let old := (s.quad quad).bank b
      let row0 := Machine.fld e.cmd 13 1
      let bm := s.bitmapOf r.core e
      (∀ x, e.bitmap = some x → s.spadPoison r.core x.1 x.2.1 = none) →
      s.readFault r.core e.vat (e.tile.addrs bm need.1 need.2) = none → old.poisoned row0 e.tile.others 0 256 = false →
      (e.bitmap = if sp = false ∨ 2 < e.tile.rot then none
        else if e.tile.rot = 1 then some (Machine.fld e.cmd 56 8, 64, 16) else some (Machine.fld e.cmd 56 8, 32, 32)) ∧
      (e.bitmap = none → bm = none) ∧
      (∀ at_ k w, e.bitmap = some (at_, k, w) → ∃ bits, bm = some (w, bits) ∧
        ∀ j < 8 * k, bits.testBit j = (s.byte (spadAddr r.core (at_ + j / 8))).getLsbD (j % 8)) ∧
      Leads (.pressBoundary (quad, .whole)) s fun t => t.mem = s.mem ∧ Advanced s t quad r e (r.unit + 1) (256 / bl) ∧
        (∀ m < e.tile.others, ∀ o < 256, let sp := e.tile.span r.unit
          let l := e.tile.mill (s.heldRead r.core [] e 0) bm m sp.1 sp.2
          let im := (s.quad quad).image.getD {}
          ((t.quad quad).bank b).at_ (row0 + m) o = Accumulated im.fmt (rotLog e.tile.rot)
            ((l.1.drop (r.unit * bl - sp.1)).take bl)
            ((List.range (blockLen im.fmt)).map fun i => tget im.q (256 * o + blockLen im.fmt * r.unit + i))
            (pick l.2 ((r.unit * bl - sp.1) / 32)) (tget im.sc (8 * o + blockLen im.fmt * r.unit / 32)) (old.at_ (row0 + m) o)) ∧
        (∀ row o, o < 256 → (row < row0 ∨ row0 + e.tile.others ≤ row) → ((t.quad quad).bank b).at_ row o = old.at_ row o)) ∧
    (∀ b acc, e.op = .drain b acc → let d := e.drainBlk
      let bank := (s.quad quad).bank b
      let mask := s.maskOf r.core d
      let n := min 8 (d.nrows - r.unit)
      let rows := ((List.range n).map (· + r.unit)).filter fun i => mask.1.testBit (d.br0 + i)
      let u (i : Nat) := (List.range d.ncols).map fun j => bank.at_ (d.br0 + i) (d.bc0 + j)
      let addrs := d.writes mask r.unit n
      let kept (t : State) : Prop := ((t.quad quad).bank b).acc = bank.acc ∧ ((t.quad quad).bank b).bad = bank.bad
      (∀ x ∈ s.accDrains, x.2.2.late = []) → s.emberAt e.uid = some (.live r.core r.slot, e) → s.paneBad e d = false → s.engCheck r.core e.vat [] (if acc then addrs else []) addrs = none →
      (acc = true → s.engPoison r.core e.vat [] addrs = none) → (∀ i ∈ rows, bank.poisoned (d.br0 + i) 1 d.bc0 d.ncols = false) →
      (∀ dst : Nat → Nat, d.panes = false →
        let ws := rows.flatMap fun i => Drained e acc mask.2 i (u i) (s.heldRead r.core [] e 0) fun a => s.byte (dst a)
        (∀ w ∈ ws, s.engByte r.core e.vat [] true w.1 = .ok (dst w.1)) → (ws.map fun w => dst w.1).Nodup →
        (∀ v : State, v.vats = s.vats → (∀ a, (∀ w ∈ ws, dst w.1 ≠ a) → v.byte a = s.byte a) →
          ∀ va, v.xlat [] e.vat va = s.xlat [] e.vat va) →
        Leads (.pressBoundary (quad, .whole)) s fun t => Advanced s t quad r e (r.unit + n) d.nrows ∧
          (∀ w ∈ ws, t.byte (dst w.1) = w.2) ∧ (∀ a, (∀ w ∈ ws, dst w.1 ≠ a) → t.byte a = s.byte a) ∧ kept t) ∧
      (d.panes = true → d.mx = false → acc = false → d.ncols * d.bits ≤ 1024 → let ph (i : Nat) := (s.ctx e.ctx).panebase + d.dest + i / 64
        Leads (.pressBoundary (quad, .whole)) s fun t => Advanced s t quad r e (r.unit + n) d.nrows ∧ t.mem = s.mem ∧ kept t ∧
          (∀ i ∈ rows, ∀ j < d.ncols, (t.core r.core).cell (ph i) (i % 64) j d.bits =
            if mask.2.testBit (d.bc0 + j) then
              pick ((d.row e.seed0 (u i)).zipIdx.map fun x =>
                ((fmtOf (d.fmt % 64)).conv d.satf (d.mode e.seed1 i x.2) x.1).1) j % 2 ^ d.bits
            else (s.core r.core).cell (ph i) (i % 64) j d.bits) ∧
          (∀ x, (∀ i ∈ rows, 64 * ph i + i % 64 ≠ x) → tget (t.core r.core).panes x = tget (s.core r.core).panes x))) ∧
    (∀ v sel, Leads (.pressBoundary (quad, .read v sel)) s fun t => t.mem = s.mem ∧ (t.quad quad).run = (s.quad quad).run ∧
      ∃ e', (t.core r.core).ember r.slot = some e' ∧ e'.st = e.st ∧ e'.prog = e.prog ∧
        ∀ v' va, t.heldRead r.core [] e' v' va = s.heldRead r.core [] e v' va)) ∧
  ∀ (quad sel : Nat) (s : State) (r : PressRun) (e : Ember) (p : EPlace) (l : Late) (rest : List Late),
    s.issue.active = false → (s.modu (quad / 256)).halted = false → s.pressRun quad = some (r, e) → s.emberAt e.uid = some (p, e) →
    e.late = l :: rest → l.did = [] → (l.ws.map (·.1)).Nodup → s.recal = false →
    Leads (.pressBoundary (quad, .late 0 sel)) s fun t =>
      (∀ x ∈ l.ws, t.byte x.1 = if (l.ws.zipIdx.any fun y => sel.testBit y.2 && y.1.1 / 4 == x.1 / 4) = true then x.2 else s.byte x.1) ∧
      (∀ a, (∀ x ∈ l.ws, x.1 ≠ a) → t.byte a = s.byte a)

/-- Where a byte of a copy's unit is written: at its one destination, or in every scratchpad that a cast names (13 R282). -/
def Sys2Proof.Claims.CopyDests (s : State) (core : Nat) (d : Desc13) (dst : Nat → Nat) (va : Nat) : List Nat :=
  if d.cast then (s.castCores core d).map fun k => spadLoc k (va % 2 ^ 20) else [dst va]

/-- The unit l of a copy can be written whole: every byte has a resident destination, no two the same, and a hoop has room. -/
def Sys2Proof.Claims.UnitFits (s : State) (r : CopyRun) (e : Ember) (l : List (Nat × Byte)) (dst : Nat → Nat) : Prop :=
  let d := copyDesc e.cmd
  (d.cast = false → ∀ w ∈ l, s.engByte r.core e.vat (s.quad (r.core / 4)).tlb true w.1 = .ok (dst w.1)) ∧
  (l.flatMap fun w => CopyDests s r.core d dst w.1).Nodup ∧ s.copyRoom r e d l = l.length

/-- 13 R279, R283, R285: the unit l is written at its destinations and nothing else is; a copy without a target then stands at its
next unit, or is DONE after its last; one with a target has its bytes counted in a later cycle only. -/
def Sys2Proof.Claims.UnitMoved (s t : State) (r : CopyRun) (e : Ember) (l : List (Nat × Byte)) (dst : Nat → Nat) (next : Nat × Nat)
    (last : Prop) : Prop :=
  let d := copyDesc e.cmd
  let q := t.quad (r.core / 4)
  (∀ w ∈ l, ∀ a ∈ CopyDests s r.core d dst w.1, t.byte a = w.2) ∧
  (∀ a, (∀ w ∈ l, a ∉ CopyDests s r.core d dst w.1) → t.byte a = s.byte a) ∧
  (∀ i, q.hoop i = (s.quad (r.core / 4)).hoop i ∧ q.bb i = (s.quad (r.core / 4)).bb i) ∧
  (d.target = false → (last → Ended t r.core r.slot .done 0 0 (r.unit + 1)) ∧
    (¬last → ∃ r' ∈ q.copies, r'.core = r.core ∧ r'.slot = r.slot ∧ r'.unit = r.unit + 1 ∧ r'.todo = none ∧
      (d.codec = true → r'.coded = next.1 ∧ r'.raw = next.2))) ∧
  (d.target = true → ∃ r' ∈ q.copies, r'.core = r.core ∧ r'.slot = r.slot ∧ r'.unit = r.unit ∧ r'.todo = some [] ∧
    r'.uncounted.length = l.length ∧ r'.countAt = s.now)

/-- 13 R276 to R279, R282, R283, R285, R287 to R290: a copy that no other goes before takes a place of the engine, or ends FAULTED
with nothing written; a chunk of a plain copy writes the bytes its source held, at each of its destinations; a block is encoded
and written, or faults where it passes the limit; a coded block is decoded and written, and ends in CODEC_CRC where its CRC does
not match or it is no block. What the encoder makes of up to 4,096 bytes decodes to them again with a matching CRC: to the bytes themselves
under an integer mode, to every element on the grid of the exponent under the FP32 mode, a NaN, an infinity or a large element as it
was. -/
def Sys2Proof.Claims.CopyEvents : Prop :=
  (∀ (mode left : Nat) (raw : List Byte), mode < 256 → riceModeOk mode = true → raw ≠ [] → raw.length ≤ 4096 →
    raw.length % riceElem mode = 0 → let blk := encodeBlock mode raw
    blk.length ≤ left → ∃ out, decodeBlock blk left = some (out, blk.length, true) ∧ (riceKind mode < 2 → out = raw) ∧
      (riceKind mode = 2 → out.length = raw.length ∧ ∀ j < raw.length / 4,
        let x := leNat ((raw.drop (4 * j)).take 4)
        leNat ((out.drop (4 * j)).take 4) = match fmtF32.dec x with
          | .fin neg m e =>
            let a := (roundInt .rne neg m (e - riceExp mode)).1
            if a < 2 ^ 30 then riceF32 (if neg then -(a : Int) else a) (riceExp mode) else x
          | _ => x)) ∧
  ∀ (quad core slot : Nat) (s : State), let q := s.quad quad
    s.issue.active = false → (s.modu (quad / 256)).halted = false → core / 4 = quad → s.recal = false →
    (∀ e, q.copies.length < 8 → s.canStart core slot 1 = true → (s.core core).ember slot = some e → Sound e →
      (∀ j < 4, ∀ x ∈ (s.core (4 * quad + j)).live, s.canStart (4 * quad + j) x.1 1 = true →
        startsBefore (4 * quad + j, x.2) (core, e) = false) →
      Leads (.copyStart quad core slot) s fun t => t.mem = s.mem ∧
        (s.copyFault core e = none →
          (t.quad quad).copies = q.copies ++ [{ core := core, slot := slot }] ∧ Begun t core slot e s.now ∧
          ((copyDesc e.cmd).target = true → e.copyTarget.1 = true → (q.bb e.copyTarget.2).cur.owner = none →
            ((t.quad quad).bb e.copyTarget.2).cur.owner = some e.vat)) ∧
        (∀ f, s.copyFault core e = some f → (t.quad quad).copies = q.copies ∧ Ended t core slot .faulted f.1 f.2 0)) ∧
    (∀ r e (dst : Nat → Nat), s.copyRun quad core slot (copyDesc e.cmd).codec = some (r, e) → s.dueAt core slot = none →
      r.todo = none → r.uncounted = [] → r.pend = [] →
      e.cancel = false → e.allDone = false → e.fresh s.now = false → Sound e → Settled s e → s.copyChosen quad r = true →
      let d := copyDesc e.cmd
      let read (va : Nat) : Byte := s.heldRead core q.tlb e r.unit va
      (d.codec = false → let vas := (List.range d.c).map fun j => d.srcOf (r.unit * d.c + j)
        let l := vas.zipIdx.map fun x => (d.dstOf (r.unit * d.c + x.2), read x.1)
        s.copyReadFault core e.vat vas = none → UnitFits s r e l dst →
        Leads (.copyChunk quad core (slot, .whole)) s fun t => UnitMoved s t r e l dst (0, 0) (r.unit + 1 = d.chunks)) ∧
      (d.enc = true → let n := min 4096 (d.total - r.raw)
        let vas := (List.range n).map fun j => d.srcOf (r.raw + j)
        let blk := encodeBlock d.mode (vas.map read)
        let l := blk.zipIdx.map fun x => (d.da + r.coded + x.2, x.1)
        s.copyReadFault core e.vat vas = none →
        (d.limit < r.coded + blk.length → Leads (.codecBlock quad core (slot, .whole)) s fun t => t.mem = s.mem ∧
          Ended t core slot .faulted cRANGE (d.da + d.limit) r.unit) ∧
        (r.coded + blk.length ≤ d.limit → UnitFits s r e l dst → Leads (.codecBlock quad core (slot, .whole)) s fun t =>
          UnitMoved s t r e l dst (r.coded + blk.length, r.raw + n) (r.raw + n = d.total))) ∧
      (d.dec = true → let at_ := d.sa + r.coded
        let left := d.limit - r.coded
        let hdr := (List.range 16).map (· + at_)
        let vas := (List.range (min left (16 + riceLen (hdr.map read)))).map (· + at_)
        16 ≤ left → s.copyReadFault core e.vat hdr = none → s.copyReadFault core e.vat vas = none →
        (decodeBlock (vas.map read) left = none → Leads (.codecBlock quad core (slot, .whole)) s fun t => t.mem = s.mem ∧
          Ended t core slot .faulted cCRC at_ r.unit) ∧
        (∀ out len good, decodeBlock (vas.map read) left = some (out, len, good) → r.raw + out.length ≤ d.total →
          let l := out.zipIdx.map fun x => (d.dstOf (r.raw + x.2), x.1)
          UnitFits s r e l dst → Leads (.codecBlock quad core (slot, .whole)) s fun t =>
            (good = false → (∀ w ∈ l, ∀ a ∈ CopyDests s core d dst w.1, t.byte a = w.2) ∧ Ended t core slot .faulted cCRC at_ r.unit) ∧
            (good = true → UnitMoved s t r e l dst (r.coded + len, r.raw + out.length) (r.raw + out.length = d.total)))))

/-- 13 R283, R292, R299, R300: the bytes of a unit with a target are counted in a cycle after they were written: into the slots of
the hoop that hold them, each FILLED when its count reaches its size, or as one arrival at the byte barrier, which the copy ends
FAULTED with BB_OVERFLOW where they would overflow it; a unit of which bytes were parked is counted, all together, in a cycle after the
last of them was performed (log entry 114); the unit whole, the copy stands at its next one or is DONE. -/
def Sys2Proof.Claims.CopyCountEvents : Prop :=
  (∀ (quad core slot : Nat) (s : State) (e : Ember) (o : Owed), s.issue.active = false → (s.modu (quad / 256)).halted = false →
    core / 4 = quad → s.dueAt core slot = some (.live core slot, e) → e.owedDue s.now = some o → e.copyTarget.1 = true → 0 < o.n →
    let dated (b : Bb) : Bb := { b with lastAt := some (s.now, 3) }
    let b := ((s.quad (core / 4)).bb e.copyTarget.2).cur
    Leads (.copyChunk quad core (slot, .whole)) s fun t => t.mem = s.mem ∧ let b' := ((t.quad (core / 4)).bb e.copyTarget.2).cur
      (b.armed = true → b.arrived + o.n = b.expected → b.expected < 2 ^ 32 →
        b' = dated { b with phase := !b.phase, expected := 0, arrived := 0, armed := false }) ∧
      (b.arrived + o.n < 2 ^ 32 → (b.armed = true → b.arrived + o.n < b.expected) → b' = dated { b with arrived := b.arrived + o.n }) ∧
      (2 ^ 32 ≤ b.arrived + o.n ∨ (b.armed = true ∧ b.expected < b.arrived + o.n) → b' = dated { b with broken := true })) ∧
  ∀ (quad core slot : Nat) (s : State) (r : CopyRun) (e : Ember), let d := copyDesc e.cmd
    s.issue.active = false → (s.modu (quad / 256)).halted = false → core / 4 = quad →
    s.copyRun quad core slot d.codec = some (r, e) → s.dueAt core slot = none → d.target = true → r.uncounted ≠ [] → r.countAt < s.now →
    e.allDone = false → e.fresh s.now = false → e.cancel = false → Sound e → Settled s e →
    let last := if d.codec then r.after.2 = d.total else r.unit + 1 = d.chunks
    let counted (t : State) : Prop :=
      (r.todo ≠ some [] → ∃ r' ∈ (t.quad quad).copies, r'.core = core ∧ r'.slot = slot ∧ r'.unit = r.unit ∧ r'.uncounted = []) ∧
      (r.todo = some [] → (last → Ended t core slot .done 0 0 (r.unit + 1)) ∧
        (¬last → ∃ r' ∈ (t.quad quad).copies, r'.core = core ∧ r'.slot = slot ∧ r'.unit = r.unit + 1 ∧ r'.uncounted = []))
    let n := r.uncounted.length
    let dated (b : Bb) : Bb := { b with lastAt := some (s.now, 3) }
    let b := ((s.quad quad).bb e.copyTarget.2).cur
    Leads (if d.codec then .codecBlock quad core (slot, .whole) else .copyChunk quad core (slot, .whole)) s fun t => t.mem = s.mem ∧
      (e.copyTarget.1 = false → let h := ((s.quad quad).hoop e.copyTarget.2).cur
        let h' := ((t.quad quad).hoop e.copyTarget.2).cur
        counted t ∧ ∀ i, let k := (r.uncounted.filter fun a => h.slotOf a = some i).length
          h.slotSt i = .empty → tget h.cnt i + k ≤ h.slotSize →
            tget h'.cnt i = tget h.cnt i + k ∧
            h'.slotSt i = if 0 < k ∧ tget h.cnt i + k = h.slotSize then .filled else .empty) ∧
      (e.copyTarget.1 = true → let b' := ((t.quad quad).bb e.copyTarget.2).cur
        (b.armed = true → b.arrived + n = b.expected → b.expected < 2 ^ 32 →
          counted t ∧ b' = dated { b with phase := !b.phase, expected := 0, arrived := 0, armed := false }) ∧
        (b.arrived + n < 2 ^ 32 → (b.armed = true → b.arrived + n < b.expected) →
          counted t ∧ b' = dated { b with arrived := b.arrived + n }) ∧
        (2 ^ 32 ≤ b.arrived + n ∨ (b.armed = true ∧ b.expected < b.arrived + n) →
          b' = dated { b with broken := true } ∧ Ended t core slot .faulted cBBOVF r.uaddr r.unit))

/-- 13 R296, R299 to R301: a released slot becomes EMPTY, its count 0, in a later cycle than its mark's; an accepted arrival is
counted in a later cycle than its release's, the lowest COREID first, completes the phase when it brings the arrivals to the number expected, and breaks
the barrier where it would overflow. -/
def Sys2Proof.Claims.HoopAndBarrierEvents : Prop :=
  ∀ (quad n : Nat) (s : State), s.issue.active = false → (s.modu (quad / 256)).halted = false →
    (∀ slot, let h := (s.quad quad).hoop n
      h.cur.slotSt slot = .releasing → thas h.cur.rel slot = true → tget h.cur.rel slot < s.now →
      Leads (.hoopSlotEmpty quad n slot) s fun t => let h' := (t.quad quad).hoop n
        h'.cur.slotSt slot = .empty ∧ tget h'.cur.cnt slot = 0 ∧ h'.prev = h.seen s.now ∧
        (∀ j, j ≠ slot → h'.cur.slotSt j = h.cur.slotSt j ∧ tget h'.cur.cnt j = tget h.cur.cnt j) ∧
        h'.cur.rd = h.cur.rd ∧ t.mem = s.mem) ∧
    (∀ a rest t0, let b := (s.quad quad).bb n
      tget (s.quad quad).bbAcc n = a :: rest → a.rel = some t0 → t0 < s.now →
      (∀ x ∈ rest, ∀ t1, x.rel = some t1 → t1 < s.now → a.core ≤ x.core) →
      let dated (b : Bb) : Bb := { b with lastAt := some (s.now, 2) }
      Leads (.bbArriveApply quad n) s fun t => let b' := (t.quad quad).bb n
        tget (t.quad quad).bbAcc n = (a :: rest).filter (fun x => x ≠ a) ∧ b'.prev = b.seen s.now ∧ t.mem = s.mem ∧
        (b.cur.armed = true → b.cur.arrived + a.n = b.cur.expected → b.cur.expected < 2 ^ 32 →
          b'.cur = dated { b.cur with phase := !b.cur.phase, expected := 0, arrived := 0, armed := false }) ∧
        (b.cur.arrived + a.n < 2 ^ 32 → (b.cur.armed = true → b.cur.arrived + a.n < b.cur.expected) →
          b'.cur = dated { b.cur with arrived := b.cur.arrived + a.n }) ∧
        (2 ^ 32 ≤ b.cur.arrived + a.n ∨ (b.cur.armed = true ∧ b.cur.expected < b.cur.arrived + a.n) →
          b'.cur = dated { b.cur with broken := true }))

/-- 18 R403: an element of a destination from its contributions, each a member's number and its code, in their order of arrival:
the one contribution itself where no axis reduces; else in FP32, in arrival order (fast), over the canonical tree of the members'
numbers, or as the robust mean, and rounded once to the format. -/
def Sys2Proof.Claims.Combined (b : List Byte) (xs : List (Nat × Nat)) : Option Nat :=
  let f := fpOf (Machine.fld b 1 1)
  let wide (c : Nat) : Nat := (fmtF32.conv false .rne (f.dec c)).1
  let plus (x y : Nat) : Nat := (fmtF32.conv false .rne ((fmtF32.dec x).add .rne (fmtF32.dec y)).1).1
  match xs with
  | [] => none
  | x :: rest =>
    if redAxes b = [] then some x.2
    else some (f.conv false .rne (fmtF32.dec (match collMode b with
      | 0 => rest.foldl (fun a y => plus a (wide y.2)) (wide x.2)
      | 1 => canonRoot 12 ((List.range (redCount b)).map fun q => wide (((xs.find? fun y => y.1 == q).map (·.2)).getD 0))
      | _ => (rmElem (xs.map fun y => wide y.2) (redCount b)).1))).1

/-- 18 R399, R403: every byte of block blk of a destination holds the value combined from the parts ps: a whole code's byte, or two
codes of 4 bits (an odd last one beside the old half, log entry 56). -/
def Sys2Proof.Claims.BlockHolds (s t : State) (r : CollRun) (blk : Nat) (ps : List Piece) (dst : Nat → Nat) : Prop :=
  let b := r.cmd
  let bits := collBits b
  let v (i : Nat) : Nat := (Combined b ((ps.filter fun p => p.block == blk).filterMap fun p =>
    (p.codes.find? fun x => x.1 == i).map fun x => (redIdx b p.sender, x.2))).getD 0
  let i0 := blk * blockElems b
  ∀ j < min 256 (bufBytes b false - 256 * blk),
    (8 ≤ bits → t.byte (dst j) = BitVec.ofNat 8 (v (i0 + j / (bits / 8)) / 256 ^ (j % (bits / 8)))) ∧
    (bits < 8 → t.byte (dst j) = BitVec.ofNat 8 (v (i0 + 2 * j) +
      16 * if i0 + 2 * j + 1 < bufElems b false then v (i0 + 2 * j + 1) else (s.byte (dst j)).toNat / 16))

/-- 18 R385, R400 to R404: a member with a fault ends FAULTED, one without is offered, and once every member of its group is, they
all begin, or, where their blocks are not equal, every member of that group ends FAULTED with LAYOUT_UNSUPPORTED (which offers match, and what an offer is, is of log entry 74); a part that arrives is added to its block, and the last part of a block leaves the combined value in the destination;
at the deadline every block of a whey member is settled; a member whose blocks are all done and whose source is no longer read
writes its mask and is DONE, or FAULTED where a part met a fault. A step that only reads, or puts early writes off, changes no byte of
memory and no part (log entry 15). -/
def Sys2Proof.Claims.CollectiveEvents : Prop :=
  ∀ (u : Nat) (s : State) (p : EPlace) (e : Ember), s.issue.active = false → s.recal = false → s.emberAt u = some (p, e) →
    (s.modu (e.ctx / 4096)).halted = false → s.hasLate u = false → s.lag = false →
    (∀ core slot, p = .live core slot → (s.core core).ember slot = some e → s.canStart core slot 2 = true →
      Sound e → (e.offered = true ∨ s.outranked core e.prio = false) → Leads (.collectiveBegin u) s fun t => t.mem = s.mem ∧
        (∀ f, s.collFault core e = some f → Ended t core slot .faulted f.1 f.2 0) ∧
        (s.collFault core e = none →
          let o := s.updCore core fun k => k.setEmber slot { e with offered := true }
          let ms := (groupOf e.cmd (s.memberPid core e.vat)).mapM fun p =>
            (o.offerOf core { e with offered := true } p).map fun x => (p, x)
          (o.unequalGroups { e with offered := true } = [] → ms = none → t = o) ∧
          (∀ l, ms = some l → (∃ x ∈ l, x.2.2.2.uid = e.uid) → (∃ x ∈ l, x.2.2.2.cmd.take 40 ≠ e.cmd.take 40) → ∀ x ∈ l, ∀ m,
            (o.core x.2.1).ember x.2.2.1 = some m → Sound m → m.predOk = true → Ended t x.2.1 x.2.2.1 .faulted cLAYOUT 0 0) ∧
          (∀ l, o.unequalGroups { e with offered := true } = [] → ms = some l → (∀ x ∈ l, x.2.2.2.cmd.take 40 = e.cmd.take 40) →
            ∃ rs, t.colls = s.colls ++ rs ∧ rs.map (fun r => (r.pid, r.uid, r.beganAt)) = l.map fun x => (x.1, x.2.2.2.uid, s.now)))) ∧
    (∀ r m sender block ok, s.collRun u = some r → r.wants sender block = true →
      s.memberRun r sender = some m → m.pid = sender → r.beganAt < s.now →
      (m.core / 128 = r.core / 128 ∨ s.routeUp (m.core / 128) (r.core / 128) = true) →
      s.engCheck m.core m.vat [] ((partElems r m block).flatMap (partVas r m)) [] = none →
      let part := s.pieceOf r m block
      ((∃ x ∈ r.senders block, x ≠ sender ∧ r.lost.contains x = false ∧ ∀ p ∈ r.pieces, p.block = block → p.sender ≠ x) →
        (collMode r.cmd ≠ 2 → Leads (.collectiveStep (u, .whole) sender block) s fun t => t.mem = s.mem ∧
          ∃ r', t.collRun u = some r' ∧ r'.pieces = r.pieces ++ [part] ∧ r'.done = r.done) ∧
        (collMode r.cmd = 2 → s.now < r.deadline → Leads (.wheyPieceArrival (u, .whole) sender block ok) s fun t => t.mem = s.mem ∧
          ∃ r', t.collRun u = some r' ∧ r'.done = r.done ∧ r'.pieces = r.pieces ++ [{ part with
            ok := part.bad.isEmpty && (ok || m.core / 1024 == r.core / 1024) }])) ∧
      (∀ dst : Nat → Nat, (∀ x ∈ r.senders block, x ≠ sender → ∃ p ∈ r.pieces, p.block = block ∧ p.sender = x) →
        (∀ p ∈ r.pieces, p.block = block → p.bad = [] ∧ p.ok = true) → part.bad = [] →
        (∀ i ∈ elemsOf r.cmd block, let k := ((r.pieces ++ [part]).filter fun p => p.block == block && p.codes.any fun x => x.1 == i).length
          0 < k ∧ (redAxes r.cmd = [] → k = ((r.group.map (·.1)).filter fun x => contributes r.cmd r.pid x i).length)) →
        (∀ j < min 256 (bufBytes r.cmd false - 256 * block),
          s.engByte r.core r.vat [] true (collDst r.cmd + 256 * block + j) = .ok (dst j)) →
        (∀ i < 256, ∀ j < 256, dst i = dst j → i = j) → (∀ k < 8, r.early.contains (8 * block + k) = false) →
        let event : Instr := if collMode r.cmd = 2 then .wheyPieceArrival (u, .whole) sender block true else .collectiveStep (u, .whole) sender block
        (collMode r.cmd = 2 → s.now < r.deadline) → (collBits r.cmd = 4 ∨ 8 ∣ collBits r.cmd ∧ collBits r.cmd ∣ 2048) →
        Leads event s fun t => BlockHolds s t r block (r.pieces ++ [part]) dst ∧
          (∀ a, (∀ j < min 256 (bufBytes r.cmd false - 256 * block), dst j ≠ a) → t.byte a = s.byte a) ∧
          ∃ r', t.collRun u = some r' ∧ block ∈ r'.done ∧ (collMode r.cmd = 2 → block ∈ r'.valid))) ∧
    (∀ r, s.collRun u = some r → collMode r.cmd = 2 → r.deadline ≤ s.now →
      r.beganAt < s.now →
      Leads (.wheyDeadline (u, .whole)) s fun t => ∃ r', t.collRun u = some r' ∧ ∀ b < collBlocks r.cmd, b ∈ r'.done) ∧
    (∀ v sel sender block, Leads (.collectiveStep (u, .read v sel) sender block) s fun t => t.mem = s.mem ∧ t.poison = s.poison ∧
      t.colls.map (fun r => (r.uid, r.pieces, r.done)) = s.colls.map fun r => (r.uid, r.pieces, r.done)) ∧
    (∀ r core slot (dst : Nat → Nat), s.collRun u = some r → p = .live core slot → (s.core core).ember slot = some e →
      Sound e → s.sourceRead r = true → s.anyLoose u = false → s.emberOpen e = false → r.uid = u → e.uid = u →
      (collMode r.cmd = 2 → (∀ w ∈ r.maskWrites, s.engByte r.core r.vat [] true w.1 = .ok (dst w.1)) ∧
        (r.maskWrites.map fun w => dst w.1).Nodup) →
      Leads (.collectiveDone (u, .whole)) s fun t => t.colls = s.colls.filter (fun x => x.uid ≠ r.uid) ∧
        (collMode r.cmd ≠ 2 → t.mem = s.mem) ∧
        (collMode r.cmd = 2 → ∀ j < maskBytes r.cmd, ∀ k < 8,
          (t.byte (dst (collMaskAt r.cmd + j))).getLsbD k = r.valid.contains (8 * j + k)) ∧
        (r.bad = none → Ended t core slot .done 0 0 e.prog) ∧
        (∀ f, r.bad = some f → Ended t core slot .faulted f.1 f.2 e.prog))

/-- 18 R407, one element: w', m and v from the gradient, the master value and the old moments, every operation rounded to FP32 by
nearest even; h k is hyperparameter k of lr, b1, b2, eps, lambda, c1, c2, gs. -/
def Sys2Proof.Claims.CaveElement (h : Nat → Nat) (g w m v : Nat) : Nat × Nat × Nat :=
  let rne (x : Val) : Nat := (fmtF32.conv false .rne x).1
  let add (a b : Nat) : Nat := rne ((fmtF32.dec a).add .rne (fmtF32.dec b)).1
  let sub (a b : Nat) : Nat := rne ((fmtF32.dec a).add .rne (fmtF32.dec b).neg).1
  let mul (a b : Nat) : Nat := rne ((fmtF32.dec a).mul (fmtF32.dec b)).1
  let g := mul g (h 7)
  let m := add (mul (h 1) m) (mul (sub 0x3F800000 (h 1)) g)
  let v := add (mul (h 2) v) (mul (sub 0x3F800000 (h 2)) (mul g g))
  let u := f32Div (mul m (h 5)) (add (f32Sqrt (mul v (h 6))) (h 3))
  (sub w (mul (h 0) (add u (mul (h 4) w))), m, v)

/-- 18 R407, row group i: its writes g are the two members of every block, quantised from w' and from what the main member leaves of it,
their scales, 0 for padding, and the new moments of the elements below N, and nothing else; the second part counts the blocks with a
scale of 0xFF. The old master value is the FP32 sum of its two members, each rounded to FP32 first (log entry 110). -/
def Sys2Proof.Claims.CaveWrites (s : State) (core : Nat) (e : Ember) (i : Nat) (g : List (Nat × Byte) × Nat) : Prop :=
  let c := caveCmd e.cmd
  let n := min 1024 (c.n - 1024 * i)
  let base := c.master + 2112 * i
  let rne (x : Val) : Nat := (fmtF32.conv false .rne x).1
  let byte (va : Nat) : Nat := (s.heldRead core [] e 0 va).toNat
  let word (va : Nat) : Nat := leNat ((List.range 4).map fun k => s.heldRead core [] e 0 (va + k))
  let h (k : Nat) : Nat := Machine.fld e.cmd (64 + 4 * k) 4
  let w (j : Nat) : Nat := rne ((fmtF32.dec (rne (mxVal (fpOf c.main) (byte (base + 2048 + j / 32)) (byte (base + 64 * (j / 32) + j % 32))))).add .rne
    (fmtF32.dec (rne (mxVal (fpOf c.res) (byte (base + 2080 + j / 32)) (byte (base + 64 * (j / 32) + 32 + j % 32)))))).1
  let x (j : Nat) : Nat × Nat × Nat := if j < n then
      let o := 4 * (1024 * i + j)
      CaveElement h (word (c.grad + o)) (w j) (word (c.mom + o)) (word (c.vbase + o))
    else (0, 0, 0)
  let main (b : Nat) := mxQuantise (fpOf c.main) ((List.range 32).map fun k => (fmtF32.dec (x (32 * b + k)).1, .rne))
  let left (b k : Nat) : Nat := rne ((fmtF32.dec (x (32 * b + k)).1).add .rne
    (fmtF32.dec (rne (mxVal (fpOf c.main) (main b).1 (pick (main b).2.1 k)))).neg).1
  let mode (b k : Nat) : Mode :=
    if c.sr then .sr 16 (keyMix e.seed0 (BitVec.ofNat 64 (c.origin + (1024 * i + 32 * b) + k))) else .rne
  let res (b : Nat) := mxQuantise (fpOf c.res) ((List.range 32).map fun k => (fmtF32.dec (left b k), mode b k))
  let by8 (inside : Prop) [Decidable inside] (v : Nat) : Byte := if inside then BitVec.ofNat 8 v else 0
  (∀ a v, (a, v) ∈ g.1 ↔
    (∃ b < 32, ∃ k < 32, a = base + 64 * b + k ∧ v = by8 (32 * b + k < n) (pick (main b).2.1 k)) ∨
    (∃ b < 32, ∃ k < 32, a = base + 64 * b + 32 + k ∧ v = by8 (32 * b + k < n) (pick (res b).2.1 k)) ∨
    (∃ b < 32, a = base + 2048 + b ∧ v = by8 (32 * b < n) (main b).1) ∨
    (∃ b < 32, a = base + 2080 + b ∧ v = by8 (32 * b < n) (res b).1) ∨
    (∃ j < n, ∃ k < 4, a = c.mom + 4 * (1024 * i + j) + k ∧ v = BitVec.ofNat 8 ((x j).2.1 / 256 ^ k)) ∨
    (∃ j < n, ∃ k < 4, a = c.vbase + 4 * (1024 * i + j) + k ∧ v = BitVec.ofNat 8 ((x j).2.2 / 256 ^ k))) ∧
  g.2 = ((List.range 32).filter fun b => decide (32 * b < n) && ((main b).1 == 255 || (res b).1 == 255)).length

/-- 18 R406 to R408, 14 R320: a cave update without a fault begins and holds the hyperparameters that it reads then (log entry 79); each
later step locks one row group, where no other update holds a part of it and no reader with .snap has read only a part (13 R286, 14 R321), and writes what R407 computes from what memory held: what sel
names of it, and nothing else; the row group whole, it is counted with its blocks of scale 0xFF in the progress word; after the last row
group the update is DONE. A step that only reads changes neither memory nor what is computed (log entry 15). -/
def Sys2Proof.Claims.CaveUpdateEvents : Prop :=
  (∀ s core e i, CaveWrites s core e i (s.caveGroup core e (caveCmd e.cmd) i)) ∧
  ∀ (u core slot : Nat) (s : State) (e : Ember), s.issue.active = false → s.emberAt u = some (.live core slot, e) → e.uid = u →
    (s.core core).ember slot = some e → e.op = .cave → Sound e → e.allDone = false → e.fresh s.now = false → (s.modu (e.ctx / 4096)).halted = false →
    s.recal = false → s.lag = false → s.emberOpen e = false →
    (∀ sel reads, e.began = false → s.canStart core slot 3 = true → s.outranked core e.prio = false → Leads (.caveUpdateStep u (sel, reads)) s fun t => t.mem = s.mem ∧
      (∀ f, s.caveFault core e = some f → Ended t core slot .faulted f.1 f.2 0) ∧
      (s.caveFault core e = none → ∃ e', (t.core core).ember slot = some e' ∧ e'.began = true ∧
        e'.cmd = e.cmd.take 64 ++ (List.range 64).map fun i => s.engRead core e.vat [] ((caveCmd e.cmd).hyp + i))) ∧
    (∀ dst : Nat → Nat, e.began = true → e.work = none → coreOf e.ctx = core →
      let c := caveCmd e.cmd
      let i := e.prog % 2 ^ 40
      let g := s.caveGroup core e c i
      let prog := min (e.prog / 2 ^ 40 + g.2) (2 ^ 24 - 1) * 2 ^ 40 + (i + 1)
      s.engCheck core e.vat [] (c.reach i).1 (c.reach i).2 = none → s.engPoison core e.vat [] (c.reach i).1 = none →
      s.lockedLines = [] → (∀ w ∈ g.1, s.engByte core e.vat [] true w.1 = .ok (dst w.1)) → (g.1.map fun w => dst w.1).Nodup →
      let lines := ((List.range 2112).map fun j => (s.engByte core e.vat [] false (c.master + 2112 * i + j)).loc / 64).eraseDups
      (s.readerHolds lines = true → ∀ sel m, exec (.caveUpdateStep u (sel, m)) s = .next s) ∧ (s.readerHolds lines = false →
      (∀ sel m, Leads (.caveUpdateStep u (sel, (some m))) s fun t => t.mem = s.mem ∧ ∃ e' w, (t.core core).ember slot = some e' ∧
        e'.work = some w ∧ e'.st = e.st ∧ e'.prog = e.prog ∧ t.caveGroup core e' c i = g) ∧
      (Leads (.caveUpdateStep u (0, none)) s fun t => t.mem = s.mem ∧ ∃ e' w, (t.core core).ember slot = some e' ∧ e'.work = some w ∧
        w.todo = g.1 ∧ ∀ j < 2112, t.rowLocked core e.vat [] [c.master + 2112 * i + j] = true) ∧
      (∀ sel, (∀ j < 4096, sel.testBit j = true) → Leads (.caveUpdateStep u (sel, none)) s fun t =>
        (∀ w ∈ g.1, t.byte (dst w.1) = w.2) ∧ (∀ a, (∀ w ∈ g.1, dst w.1 ≠ a) → t.byte a = s.byte a) ∧
        (i + 1 = c.groups → Ended t core slot .done 0 0 prog) ∧
        (i + 1 ≠ c.groups → ∃ e', (t.core core).ember slot = some e' ∧ e'.st = e.st ∧ e'.prog = prog ∧ e'.work = none)))) ∧
    (∀ (w : CaveWork) (sel : Nat) (dst : Nat → Nat), e.began = true → e.work = some w → w.isRead = true → coreOf e.ctx = core →
      (∀ x ∈ w.todo, s.engByte core e.vat [] true x.1 = .ok (dst x.1)) → (w.todo.map fun x => dst x.1).Nodup →
      (∃ j < w.todo.length, sel.testBit (j / 4) = false) →
      Leads (.caveUpdateStep u (sel, none)) s fun t =>
        (∀ j x, w.todo[j]? = some x → t.byte (dst x.1) = if sel.testBit (j / 4) then x.2 else s.byte (dst x.1)) ∧
        (∀ a, (∀ x ∈ w.todo, dst x.1 ≠ a) → t.byte a = s.byte a) ∧
        ∃ e', (t.core core).ember slot = some e' ∧ e'.st = e.st ∧ e'.prog = e.prog ∧
          e'.work = some { w with todo := (w.todo.zipIdx.filter fun x => !sel.testBit (x.2 / 4)).map (·.1) })


/-- 16 R330, R332, R342, R343: the next entry of an enabled ring is consumed when its sequence word is the index: the head word and
the index move on, and a descriptor that no rule refuses becomes a queued vat, last of its queue; a queued vat whose valid
dependences all reach their thresholds becomes ready, and a consuming one is subtracted; a poisoned semaphore drops the vat. -/
def Sys2Proof.Claims.FlueQueueEvents : Prop :=
  (∀ (die queue a h : Nat) (s : State), let d := s.die die
    let i := tget d.qnext queue
    s.issue.active = false → (s.modu (die / 8)).halted = false → s.dieHealthy die = true → queue < 16 →
    (tget d.qcfg queue).getLsbD 8 = true → s.recal = false → s.ringLocs die queue i = some (a, h) → s.rd (a + 8) 4 = i % 2 ^ 32 →
    let pa := s.rd a 8
    let u := (s.setBytes ((leBytes 8 (i + 1)).zipIdx.map fun (x : Byte × Nat) => (h + x.2, x.1))).updDie die fun d =>
      { d with qnext := tset d.qnext queue (i + 1) }
    let key := (u.nextVatId die).1
    Leads (.ringEntryConsume die queue) s fun t => tget (t.die die).qnext queue = i + 1 ∧
      (∀ loc, paLoc (die / 8) pa = some loc → pa % 64 = 0 → (s.die (loc / 2 ^ 39)).isolated = false → paRunOk pa (pa + 255) = true →
        (∀ j < 8, s.isBad (loc + 32 * j) = false) →
        let b := u.bytesAt ((List.range 256).map (· + loc))
        let w := (u.updDie die fun d => { d with enq := (u.nextVatId die).2 }).setVat key
          { descPa := pa, die := die, queue := queue, desc := descOf b }
        w.refusal key b = none →
          thas t.vats key = true ∧ (t.vat key).phase = .queued ∧ (t.vat key).desc = descOf b ∧
          tget (t.die die).queues queue = tget d.queues queue ++ [key] ∧
          t.rd h 8 = (i + 1) % 2 ^ 64)) ∧
  (∀ (vat : Nat) (s : State), let v := s.vat vat
    s.issue.active = false → (s.modu (vatMod vat)).halted = false → thas s.vats vat = true → v.phase = .queued → v.cancelled = false →
    ((∀ x ∈ v.desc.deps, x.valid = true → ((s.die v.die).sem x.sem).cur.bad = false ∧
        x.threshold ≤ ((s.die v.die).sem x.sem).cur.count) →
      Leads (.vatReady vat) s fun t => (t.vat vat).phase = .ready ∧ (t.vat vat).readyAt = s.now ∧ t.mem = s.mem ∧
        ∀ x, v.desc.deps.filter (·.valid) = [x] → ((t.die v.die).sem x.sem).cur.count =
          if x.consume then ((s.die v.die).sem x.sem).cur.count - x.threshold else ((s.die v.die).sem x.sem).cur.count) ∧
    (∀ x, s.recal = false → v.desc.deps.find? (fun x => x.valid && ((s.die v.die).sem x.sem).cur.bad) = some x →
      Leads (.vatReady vat) s fun t => thas t.vats vat = false))

/-- A wheel as it starts on a context (03 R74, 16 R337): at the vat's entry, with its argument in s1 and every other register 0, in
the pane window given. -/
def Sys2Proof.Claims.StartsOn (t : State) (d : Desc) (w : WheelId) (cx base : Nat) (arg : Word) : Prop :=
  let c := t.ctx cx
  c.wheel = some w ∧ c.phase = .running ∧ c.level = 0 ∧ c.pc = BitVec.ofNat 64 (d.code + d.entry) ∧ c.sr 1 = arg ∧
  (∀ n, n ≠ 1 → c.sr n = 0) ∧ (∀ n, n ≠ 0 → c.pr n = false) ∧ (∀ n, n ≠ 0 → c.kr n = 0) ∧ (∀ n, c.or n = 0) ∧ c.fmt = 0 ∧
  c.status = 0 ∧ c.panebase = base ∧ c.panecnt = d.panecnt ∧ c.tvec = BitVec.ofNat 64 d.trap

/-- 16 R335 to R338, R350, R351, 03 R74: the wheels of one placement, a single wheel or every wheel of a gang, start together, the next
indices of the wheel count in order; a spawned wheel starts with its own index and argument on the core it asks for; a die that can
place every wheel of a range is granted it, and they start; a preloaded vat holds its range until the vat before it has left the
quad, and then has it as its dictionary range, and one that a fault or an overrun of that vat put in question is judged first, and goes
where its vat is no longer the next. That the places of a range are searched, and the dictionary range of a preload is taken,
lowest first is the model's choice (log entry 64); which vat is preloaded and what it waits for is its reading (log entry 65, DEDUCED). -/
def Sys2Proof.Claims.PlacementEvents : Prop :=
  (∀ (vat : Nat) (places : List (Nat × Nat)) (grans dicts : List Nat) (s : State), let v := s.vat vat
    s.issue.active = false → (s.modu (vatMod vat)).halted = false → s.recal = false → thas s.vats vat = true → v.cancelled = false →
    v.phase ≠ .queued →
    let began (t : State) (idx : Nat) : Prop := t.mem = s.mem ∧ (t.vat vat).phase = .running ∧
      ∀ j cx base, places[j]? = some (cx, base) →
        StartsOn t v.desc { vat := vat, idx := idx + j, start := v.starts + j } cx base (v.desc.arg (idx + j))
    (s.spans vat = false → s.flueChoice v.die = some vat → places.length = (if v.desc.gang = 255 then 1 else 2 ^ v.desc.gang) →
      gangInside v.desc places = true → (s.placeAll vat v.granted places grans dicts).isSome = true →
      Leads (.wheelPlace vat false places grans dicts) s fun t => began t v.granted ∧
        (t.vat vat).granted = v.granted + places.length ∧ (t.vat vat).started = v.started + places.length) ∧
    (∀ w rest cx base, v.spawns = w :: rest → w.released = true → (w.core = none ∨ w.core = some (coreOf cx)) →
      (s.placeOne vat w.idx w.arg cx base grans dicts).isSome = true →
      Leads (.wheelPlace vat true [(cx, base)] grans dicts) s fun t => t.mem = s.mem ∧ (t.vat vat).spawns = rest ∧
        (t.vat vat).granted = v.granted ∧ (t.vat vat).started = v.started ∧
        StartsOn t v.desc { vat := vat, idx := w.idx, start := v.starts } cx base w.arg) ∧
    (∀ die count x, s.spans vat = true → v.lostLeader = false → s.flueChoice v.die = some vat → places.head? = some x →
      (if v.desc.gang = 255 then places.length ≤ 64 else places.length = 2 ^ v.desc.gang) → v.granted + places.length ≤ v.desc.wheels →
      s.rangePlaces vat places = true → gangInside v.desc places = true → (s.placeAll vat v.granted places grans dicts).isSome = true →
      let granted (t : State) : Prop := began t v.granted ∧ (t.vat vat).granted = v.granted + places.length ∧
        (t.vat vat).started = v.started + places.length ∧ (t.vat vat).grants = v.grants ++ [{
          first := v.granted, count := places.length, die := dieOf x.1, next := v.granted + places.length }]
      Leads (.wheelPlace vat false places grans dicts) s granted ∧
      (die ∈ s.vatDies vat → s.dieHealthy die = true →
        (s.rangeCtxs vat die).findSome? (fun c => s.search vat (if v.desc.gang = 255 then count else 2 ^ v.desc.gang) c) =
          some (places, grans, dicts) →
        Leads (.indexRangeGrant vat die count) s granted))) ∧
  (∀ (quad vat a base : Nat) (s : State), let q := s.quad quad
    let v := s.vat vat
    s.issue.active = false → (s.modu (quad / 256)).halted = false → s.recal = false →
    (s.vatsOn quad = [a] → thas s.vats vat = true → v.cancelled = false → v.phase = .ready → a ≠ vat → q.preload = none →
      q.isolated = false → q.draining = false → (∀ j < 4, (s.core (4 * quad + j)).draining = false) → s.dieHealthy (quad / 32) = true → s.nextFor quad vat = true → (s.vat a).rerun = false →
      (∀ j < 4, s.coreAbsent (4 * quad + j) = false → s.newOnCore vat (4 * quad + j) = true ∧ v.desc.moldGran ≤
        ((List.range 256).filter fun g => decide (v.desc.fixed ≤ g) && !s.granTaken (4 * quad + j) g).length) →
      s.placeable vat = false → firstFrom 4097 0 (fun b => q.dictFree b v.desc.dictSize) = some base →
      Leads (.preload quad vat) s fun t => (t.quad quad).preload = some (vat, base, a) ∧ t.mem = s.mem ∧
        ∀ j < 4, s.coreAbsent (4 * quad + j) = false → (tget (t.core (4 * quad + j)).moldRes vat).length = v.desc.moldGran) ∧
    (q.preload = some (vat, base, a) → q.preTest = false → a ∉ s.vatsOn quad → (s.vat a).rerun = false →
      Leads (.preloadCommit quad vat) s fun t =>
        (t.quad quad).preload = none ∧ tget (t.quad quad).dictRange vat = (base, v.desc.dictSize) ∧ t.mem = s.mem) ∧
    (q.preload = some (vat, base, a) → q.preTest = true → Leads (.preloadCommit quad vat) s fun t => t.mem = s.mem ∧
      (s.nextFor quad vat = true → (t.quad quad).preload = q.preload ∧ (t.quad quad).preTest = false) ∧
      (s.nextFor quad vat = false → (t.quad quad).preload = none ∧ tget (t.quad quad).dictRange vat = tget q.dictRange vat)))

/-- 16 Table 16.4: the entry of a FAULTED ember that is reaped at its vat's completion. -/
def Sys2Proof.Claims.EmberEntry (core : Nat) (e : Ember) : RecEntry :=
  { addr := e.faddr, who := e.name.toNat, core := core % 128, die := core / 128 % 8, cause := e.cause, source := 1 }
/-- 16 Table 16.4: a completion record with its outcome, its entries and their count, byte by byte. That the start cycle of a vat of which
no wheel has started is 0 is log entry 132. -/
def Sys2Proof.Claims.RecordBytes (s t : State) (v : Vat) (vat outcome : Nat) (es : List RecEntry) (count : Nat) (loc : Nat → Nat) : Prop :=
  let field := fun o n x : Nat => ∀ j < n, t.byte (loc (o + j)) = BitVec.ofNat 8 (x / 256 ^ j)
  let e0 := (es[0]?).getD ({} : RecEntry)
  field 0 4 vat ∧ field 4 1 outcome ∧ field 5 1 e0.cause ∧ field 6 2 count ∧
  field 8 8 (s.now - (s.modu (v.leader / 8)).resetAt) ∧ field 16 8 (v.startAt.getD 0) ∧ field 24 8 v.used ∧
  field 32 1 v.demotions ∧ field 33 1 0 ∧ field 34 1 v.cls ∧ field 35 1 0 ∧ field 36 4 v.ended ∧ field 40 8 e0.addr ∧ field 48 16 0 ∧
  ∀ i < 12, let e := (es[i]?).getD ({} : RecEntry)
    let at_ := 64 + 16 * i
    field at_ 1 e.source ∧ field (at_ + 1) 1 e.cause ∧ field (at_ + 2) 1 e.die ∧ field (at_ + 3) 1 e.core ∧ field (at_ + 4) 4 e.who ∧
      field (at_ + 8) 8 e.addr

/-- 16 R344 to R349, R354, 17 R379: a vat with nothing left leaves the machine with its record, outcome 3 where it was cancelled, 5 where
its leader's state was lost, 0 where no entry stands in it and else 1, and with a notice of completion, or takes the head of its
queue again when it is marked for a rerun; a cancelled vat that waits for its own far stores on its own pages alone has them discarded
first (log entry 111); energy is counted while a vat is at work, and at 0 the class falls once; a vat ready for 160,000 cycles
pre-empts on every core of the victim; a core without wheels and with no wake pending may be gated, and wakes. That a vat marked for a
rerun ends with outcome 4 and runs again even where it lost its leader is the model's choice (log entry 123, DESIGN CHOICE). -/
def Obligations.CompletionAndEnergyEvents : Prop :=
  (∀ (vat : Nat) (s : State), let v := s.vat vat
    s.issue.active = false → (s.modu (vatMod vat)).halted = false → thas s.vats vat = true →
    v.phase = .running ∨ v.cancelled = true ∨ v.lostLeader = true → s.recal = false →
    (s.vatDone vat = true → (v.desc.sigValid = true → ((s.die v.die).sem v.desc.sigSem).cur.bad = false) →
      let gone := ((s.vatEmbers vat).map (fun x => (x.1, x.2.2)) ++ v.savedEmbers).filter fun x => x.2.st.cur == .faulted
      let es := (v.entries ++ gone.map fun x => EmberEntry x.1 x.2).take 12
      let count := min (v.entryCount + gone.length) 65535
      let outcome := if v.cancelled = true then 3 else if v.rerun = true then 4 else if v.lostLeader = true then 5 else
        if count = 0 then 0 else 1
      v.entries.length ≤ 12 → v.entryCount ≤ 65535 → Leads (.vatComplete vat) s fun t =>
        (∃ lost, .complete (vat % 2 ^ 32) v.desc.record outcome (((es[0]?).map (·.cause)).getD 0) lost ∈ (t.modu (vatMod vat)).notices) ∧
        (∀ loc : Nat → Nat, v.desc.record ≠ 0 → v.recBad = [] →
          (∀ j < 256, s.vatLocs vat (v.desc.record + j) 1 false true = some [loc j]) → (∀ i < 256, ∀ j < 256, loc i = loc j → i = j) →
          RecordBytes s t v vat outcome es count loc ∧ (∀ a, (∀ j < 256, loc j ≠ a) → t.byte a = s.byte a)) ∧
        (v.cancelled = true ∨ v.rerun = false → thas t.vats vat = false) ∧
        (v.cancelled = false → v.rerun = true → (t.vat vat).phase = .queued ∧ (t.vat vat).ended = 0 ∧
          (tget (t.die v.die).queues v.queue).head? = some vat)) ∧
    (s.vatStuck vat = true → Leads (.vatComplete vat) s fun t => t.mem = s.mem ∧ t.vats = s.vats ∧ t.ctxs = s.ctxs ∧
      ∀ die p, p ∈ (t.die die).parked ↔
        p ∈ (s.die die).parked ∧ ¬(p.vat = vat ∧ ∃ r, p.far = some r ∧ (tget s.fars r).wheel.vat = vat))) ∧
  (∀ (vat amount : Nat) (s : State), let v := s.vat vat
    thas s.vats vat = true → (s.atWork vat = false → Leads (.energyUpdate vat amount) s fun t => t = s) ∧
    (s.atWork vat = true → Leads (.energyUpdate vat amount) s fun t => let w := t.vat vat
      w.used = v.used + amount ∧ t.mem = s.mem ∧
      (v.desc.budget = 0 → w.energy = v.energy ∧ w.cls = v.cls) ∧
      (v.desc.budget ≠ 0 → w.energy = v.energy - amount) ∧
      (v.desc.budget ≠ 0 → v.energy ≤ amount → v.demotions = 0 → w.demotions = 1 ∧ w.cls = min (v.cls + 1) 3) ∧
      (amount < v.energy ∨ v.demotions ≠ 0 → w.demotions = v.demotions ∧ w.cls = v.cls))) ∧
  (∀ (vat victim : Nat) (s : State), let v := s.vat vat
    let u := s.vat victim
    let worse := fun w => v.cls < (s.vat w).cls ∧ (s.vat w).phase = .running ∧ (∃ k ∈ s.vatCores w, k ∉ (s.vat w).halting) ∧
      ∃ d ∈ s.vatDies w, d ∈ s.vatDies vat
    s.issue.active = false → (s.modu (vatMod vat)).halted = false → v.phase = .ready → v.cancelled = false →
    v.readyAt + 160000 ≤ s.now → s.placeable vat = false → worse victim →
    (∀ w ∈ tkeys s.vats, worse w → (s.vat w).cls < u.cls ∨ ((s.vat w).cls = u.cls ∧ (s.vat w).startAt.getD 0 ≤ u.startAt.getD 0)) →
    (∀ w ∈ tkeys s.vats, (∃ d ∈ s.vatDies w, d ∈ s.vatDies vat) → (s.vat w).halting = []) →
    Leads (.starvationPreempt vat victim) s fun t => t.mem = s.mem ∧
      ∀ k ∈ s.vatCores victim, thas (s.core k).moldRes victim = true → k ∈ (t.vat victim).halting) ∧
  (∀ (core : Nat) (s : State),
    (s.issue.active = false → (∀ j < 4, (s.ctx (4 * core + j)).wheel = none) → s.wakePending core = false →
      Leads (.corePowerGate core) s fun t => (t.core core).gated = true ∧ ∀ k, k ≠ core → t.core k = s.core k) ∧
    Leads (.coreWake core) s fun t => (t.core core).gated = false ∧ ∀ k, k ≠ core → t.core k = s.core k)

/-- 01 R22, 07 R162, R163, 11 R249, 13 R304, 16 R346, 17 R365 to R368: a wheel whose operations are over leaves its context idle, its molds
ownerless, and counts as ended; ordering places that its queues still hold are left to its core (log entry 45); a context of a pre-empted vat halts with its registers as they are; a save keeps the registers
of every context and frees the contexts; what was saved from a quad resumes together, each core's wheels on the core of the same
place, and they run on, but those of a gang of which a member is still saved. -/
def Obligations.WheelAndPreemptionEvents : Prop :=
  ∀ (s : State), s.issue.active = false →
    (∀ cx w, (s.modu (modOf cx)).halted = false → (s.ctx cx).wheel = some w → s.wheelOver cx = true → Leads (.wheelEnded cx) s fun t =>
      (t.ctx cx).wheel = none ∧ (t.ctx cx).phase = .idle ∧ SameRegisters {} (t.ctx cx) ∧ t.mem = s.mem ∧
      (t.vat w.vat).ended = (s.vat w.vat).ended + 1 ∧
      (∀ o ∈ (s.ctx cx).lq, ∀ acq pod act e, o.kind = .order acq pod act e →
        { ctx := cx, vat := w.vat, acq := acq, act := act, far := if pod = true then (s.ctx cx).farSent else [] } ∈ (t.core (coreOf cx)).left) ∧
      ∀ m ∈ (t.core (coreOf cx)).molds, m.st ≠ .owned cx w ∧ m.st ≠ .passed cx w) ∧
    (∀ cx w, (s.modu (modOf cx)).halted = false → (s.ctx cx).wheel = some w → s.halting w.vat (coreOf cx) = true →
      (s.ctx cx).phase = .running → (s.vat w.vat).cancelled = false → Leads (.contextHalt cx) s fun t =>
        t.ctx cx = { s.ctx cx with phase := .halted, haltAt := s.now } ∧ t.mem = s.mem) ∧
    (∀ vat core, (s.modu (vatMod vat)).halted = false → thas s.vats vat = true → s.maySave vat core = true →
      Leads (.vatSave vat core) s fun t => t.mem = s.mem ∧ core ∉ (t.vat vat).halting ∧
        (∀ cx ∈ s.ctxsOf vat core, (t.ctx cx).wheel = none) ∧
        ∃ k, (t.vat vat).saves = (s.vat vat).saves ++ [k] ∧ k.core = core ∧
          ∀ cx ∈ s.ctxsOf vat core, SameRegisters (s.ctx cx) (tget k.ctxs (cx % 4)) ∧ (tget k.ctxs (cx % 4)).pc = (s.ctx cx).pc ∧
            (tget k.ctxs (cx % 4)).wheel = (s.ctx cx).wheel) ∧
    (∀ vat old new k, let set := (s.vat vat).resumeSet k
      s.recal = false → (s.modu (vatMod vat)).halted = false → (s.vat vat).saves.find? (fun k => k.core == old) = some k → new % 4 = old % 4 →
      s.groupFits vat (new / 4) k = true → s.flueChoice (s.vat vat).die = some vat → (set.map (·.core % 4)).Nodup →
      (∀ x ∈ set, (x.ctxs.map (·.1)).Nodup ∧ ∀ y ∈ x.ctxs, y.1 < 4) → Leads (.vatResume vat old new) s fun t =>
        (t.vat vat).saves.length = ((s.vat vat).saves.filter fun x => !set.contains x).length ∧
        ∀ x ∈ set, ∀ y ∈ x.ctxs, y.2.farWait = [] → let c := t.ctx (4 * (new / 4 * 4 + x.core % 4) + y.1)
          SameRegisters y.2 c ∧ c.pc = y.2.pc ∧ c.wheel = y.2.wheel ∧
          (∀ w, y.2.wheel = some w → w.vat = vat → y.2.phase = .halted →
            ((s.vat vat).gangOf w.idx = none → c.phase = .running) ∧
            (∀ g, (s.vat vat).gangOf w.idx = some g →
              (∃ z ∈ (s.vat vat).saves, z ∉ set ∧ ∃ m ∈ z.ctxs, ∃ w', m.2.wheel = some w' ∧ w'.vat = vat ∧ (s.vat vat).gangOf w'.idx = some g) →
              c.phase = .halted)))


/-- The response to a message (18 R409, R410): it is the last one kept, with the message's number, and the next number follows. -/
def Sys2Proof.Claims.Answered (s t : State) (md ty status arg : Nat) (body : List Byte) : Prop :=
  (t.modu md).resps.getLast? = some { sq := (s.modu md).nextSq, ty := ty, status := status, arg := arg, body := body } ∧
  (t.modu md).nextSq = (s.modu md).nextSq + 1

/-- 01 R22, 16 R332, R348 to R350, 17 R364, 18 R388, R409: the messages about vats and domains, each in its turn: a submission writes
the next ring entry and the tail; a cancelled vat is marked and drops its spawns; a pre-emption halts the cores named, or all, and
with them every core of a gang that has a member there; a rerun is marked and discards the preloads that wait for it; a binding is made
or removed; each is answered with status 0. That a core's number in a PREEMPT counts within the module, 128 times DIEID plus COREID, and
that an empty set names every core of the vat, is the model's reading of Table 18.10 (log entry 61, DEDUCED). -/
def Sys2Proof.Claims.HostVatMessages : Prop :=
  ∀ (md sq : Nat) (s : State), s.takes md sq false = true →
    (∀ die queue pa tl hd a b, let d := 8 * md + die
      die < 8 → queue < 16 → pa < 2 ^ 64 → s.recal = false → s.dieServes d = true → (paLoc md pa).isSome = true → (s.die d).queueOn queue = true →
      paLoc md (tget (s.die d).qtail queue).toNat = some tl → paLoc md (tget (s.die d).qhead queue).toNat = some hd →
      let i := s.rd tl 8
      s.ringLocs d queue i = some (a, b) → i - s.rd hd 8 < 2 ^ ((tget (s.die d).qcfg queue).toNat % 32) →
      (tl + 8 ≤ a ∨ a + 12 ≤ tl) →
      Leads (.submit md sq die queue pa) s fun t => Answered s t md 1 0 0 [] ∧ t.rd a 8 = pa ∧
        t.rd (a + 8) 4 = i % 2 ^ 32 ∧ t.rd tl 8 = (i + 1) % 2 ^ 64 ∧
        ∀ x, (x < a ∨ a + 12 ≤ x) → (x < tl ∨ tl + 8 ≤ x) → t.byte x = s.byte x) ∧
    (∀ vat, vat < 2 ^ 32 → thas s.vats (vatKeyOf md vat) = true → let key := vatKeyOf md vat
      ((s.vat key).cancelled = false → Leads (.cancel md sq vat) s fun t =>
        Answered s t md 2 0 0 [] ∧ (t.vat key).cancelled = true ∧ (t.vat key).spawns = [] ∧ t.mem = s.mem) ∧
      (∀ cores, (∀ c ∈ cores, c < 1024) → (s.vat key).cancelled = false → Leads (.preempt md sq vat cores) s fun t =>
        Answered s t md 3 0 0 [] ∧ t.mem = s.mem ∧
        ∀ k, (cores = [] ∧ k ∈ s.vatCores key ∨ ∃ c ∈ cores, k = c + 1024 * md) → thas (s.core k).moldRes key = true →
          k ∈ (t.vat key).halting ∧ ∀ x y w z g, coreOf x = k → (s.ctx x).wheel = some w → (s.ctx y).wheel = some z → w.vat = key →
            z.vat = key → (s.vat key).gangOf w.idx = some g → (s.vat key).gangOf z.idx = some g → coreOf y ∈ (t.vat key).halting) ∧
      ((s.vat key).phase = .running → (s.vat key).cancelled = false → Leads (.rerun md sq vat) s fun t =>
        Answered s t md 4 0 0 [] ∧ t.vat key = { s.vat key with rerun := true } ∧ t.mem = s.mem ∧
        ∀ q b base, b ≠ key → (s.quad q).preload = some (b, base, key) → (t.quad q).preload = none) ∧
      (∀ die domain table, let d := 8 * md + die
        die < 8 → domain < 2 ^ 32 → table < 2 ^ 64 → s.dieServes d = true → thas (s.die d).doms domain = false →
        (s.die d).doms.length < 64 → Leads (.bind md sq die domain vat table) s fun t => Answered s t md 6 0 0 [] ∧
          tget (t.die d).doms domain = (key, table) ∧ thas (t.die d).doms domain = true ∧
          (∀ j, j ≠ domain → tget (t.die d).doms j = tget (s.die d).doms j) ∧ t.mem = s.mem)) ∧
    (∀ die domain, let d := 8 * md + die
      die < 8 → domain < 2 ^ 32 → s.dieServes d = true → thas (s.die d).doms domain = true →
      Leads (.unbind md sq die domain) s fun t => Answered s t md 7 0 0 [] ∧ thas (t.die d).doms domain = false ∧
        (∀ j, j ≠ domain → tget (t.die d).doms j = tget (s.die d).doms j) ∧ t.mem = s.mem)

/-- 17 R378, 18 R409: a DMA write writes its bytes and no others; a DMA read answers the bytes, with status 4 and the first poisoned
unit where one is (what a save area reads as while its die holds a save is not stated, log entry 67); a page made resident leaves
no translation of it by the page table cached and no arrival parked for it, whose bytes are written; a malformed message gets
status 1 and has no other effect. Nothing waits here, no stack recalibrating (20 R424). -/
def Sys2Proof.Claims.HostMemoryMessages : Prop :=
  ∀ (md sq : Nat) (s : State), s.takes md sq false = true → s.recal = false →
    let uncached := fun (t : State) (vat page : Nat) =>
      ∀ k, ∀ y ∈ (t.core k).tlb, ¬ (y.vat = vat ∧ y.range = none ∧ y.page * 4096 / y.size = page / y.size)
    (∀ pa bytes l, 0 < bytes.length → bytes.length ≤ 2 ^ 20 → pa < 2 ^ 64 → s.dmaLoc md pa bytes.length = some l →
      Leads (.dmaWrite md sq pa bytes) s fun t => Answered s t md 0x10 0 0 [] ∧
        (∀ j < bytes.length, t.byte (l + j) = pick bytes j) ∧ ∀ a, a < l ∨ l + bytes.length ≤ a → t.byte a = s.byte a) ∧
    (∀ pa len l, 0 < len → len ≤ 2 ^ 20 → pa < 2 ^ 64 → s.dmaLoc md pa len = some l → (∀ j < len, s.inSaveArea (l + j) = false) →
      let body := (List.range len).map fun j => s.byte (l + j)
      Leads (.dmaRead md sq pa len) s fun t => t.mem = s.mem ∧
        ((∀ j < len, s.isBad (l + j) = false) → Answered s t md 0x11 0 0 body) ∧
        (∀ i < len, s.isBad (l + i) = true → (∀ j < i, s.isBad (l + j) = false) →
          Answered s t md 0x11 4 ((pa + i) / 32 * 32) body)) ∧
    (∀ vat page, vat < 2 ^ 32 → page < 2 ^ 64 → thas s.vats (vatKeyOf md vat) = true →
      let key := vatKeyOf md vat
      Leads (.resident md sq vat page) s fun t => Answered s t md 5 0 0 [] ∧ uncached t key page ∧
        (∀ x p y, s.walk key page = some x → p.vat = key → s.walk key p.va = some y → y.resident = true → y.leaf p.va = x.leaf page →
          ∀ d, p ∉ (t.die d).parked) ∧
        (∀ p l, s.toDrain key page = [(p, l)] → (∀ j < p.bytes.length, t.byte (l + j) = pick p.bytes j) ∧
          ∀ a, a < l ∨ l + p.bytes.length ≤ a → t.byte a = s.byte a)) ∧
    (∀ ty, Leads (.malformedMessage md sq ty) s fun t => Answered s t md ty 1 0 [] ∧ t.mem = s.mem ∧ t.dies = s.dies ∧
      t.vats = s.vats ∧ t.quads = s.quads ∧ t.cores = s.cores ∧ t.ctxs = s.ctxs) ∧
    (∀ (die page : Nat), s.stopped (die / 8) = false → thas s.vats (s.resVat die) = true →
      Leads (.residencyCommand die page) s fun t => uncached t (s.resVat die) page)

/-- 20 Table 20.5, R424, R430, 21 R434, R435: when a command is refused: a target outside its range or out of place, no firmware or no
MODCFG for a die that returns, no spare lane in either direction (which are used, log entry 131), a reserved op. -/
def Sys2Proof.Claims.CommandRefused (s : State) (d op target : Nat) : Prop :=
  if op = 1 then 32 ≤ target ∨ (s.quad (32 * d + target)).isolated = true
  else if op = 2 then 32 ≤ target ∨ (s.quad (32 * d + target)).isolated = false
  else if op = 3 then 128 ≤ target ∨ (s.core (128 * d + target)).retired = true
  else if op = 4 then target ≠ 0 ∨ (s.die d).isolated = true
  else if op = 5 then target ≠ 0 ∨ (s.die d).isolated = false ∨ (s.die d).fwRun = none ∨ (s.die d).stage < 4 ∨ (s.modu (d / 8)).modcfg.getLsbD 63 = false
  else if op = 6 then 8 ≤ target ∨ target = d % 8 ∨ s.laneFree d (d / 8 * 8 + target) = false
  else if op = 7 then 6 ≤ target ∨ (s.die d).hbmRecal ≠ none
  else if op = 8 then 1024 ≤ target ∨ tget (s.die d).waiters target ≠ []
  else if op = 9 then 1024 ≤ target
  else if op = 0x10 then target ≠ 0 ∨ (s.die d).isolated = false
  else if op = 0x11 then target ≠ 0 ∨ (s.die d).fwRun.all (fun f => decide (f.2 ≤ (s.die d).fwsvn)) = true
  else True

/-- 18 R409, R410, 20 R428 to R430, 21 R437: a management read answers the register's value, and takes the oldest health event where
it reads HEVENT; a write stores a value that the register accepts, starts the command that HCMD names, and is refused with status 3
elsewhere; SECPOL and MODCFG are written once between resets, neither in a module halted in an earlier cycle (20 R428); the standby port takes over after the active one has been down
for 1,600,000 cycles, or is on an isolated die while its own is not, the module halted or not (the span and the isolation: log entry 81).
That a refused write of HCMD is answered with status 3 and leaves result 1 while the register otherwise stays, is the model's reading
(log entry 61, DEDUCED). -/
def Sys2Proof.Claims.ManagementReadsAndCommands : Prop :=
  ∀ (md sq die : Nat) (s : State), let d := 8 * md + die
    (∀ reg, s.takes md sq true = true → die < 8 → mgmtOk reg = true → Leads (.mgmtRead md sq die reg) s fun t =>
      Answered s t md 0x18 0 0 (leBytes 8 (s.mgmtVal d reg).toNat) ∧ t.mem = s.mem ∧
      (reg = 0x210 → (t.die d).events = (s.die d).events.tail) ∧ (reg ≠ 0x210 → t.dies = s.dies)) ∧
    (s.takes md sq false = true → die < 8 → ∀ v : Word,
      Leads (.mgmtWrite md sq die 0x233 v) s (fun t => Answered s t md 0x19 0 0 [] ∧ (t.die d).fwlen = v ∧ t.mem = s.mem) ∧
      (4000000 ≤ v.toNat → v.toNat ≤ 10800000 → Leads (.mgmtWrite md sq die 0x303 v) s fun t =>
        Answered s t md 0x19 0 0 [] ∧ (t.modu md).pwrcap = v) ∧
      (v.toNat % 64 = 0 → Leads (.mgmtWrite md sq die 0x232 v) s fun t =>
        Answered s t md 0x19 0 0 [] ∧ (t.die d).fwsrc = v ∧ t.mem = s.mem) ∧
      (v.toNat % 64 ≠ 0 → Leads (.mgmtWrite md sq die 0x232 v) s fun t =>
        Answered s t md 0x19 3 0 [] ∧ t.dies = s.dies ∧ t.mem = s.mem) ∧
      ((s.modu md).modcfg.getLsbD 63 = false → v.toNat % 2 ^ 63 < 512 → Leads (.mgmtWrite md sq die 0x301 v) s fun t =>
        Answered s t md 0x19 0 0 [] ∧ (t.modu md).modcfg = BitVec.ofNat 64 (v.toNat % 2 ^ 63 + 2 ^ 63)) ∧
      ((s.modu md).modcfg.getLsbD 63 = true ∨ 512 ≤ v.toNat % 2 ^ 63 → Leads (.mgmtWrite md sq die 0x301 v) s fun t =>
        Answered s t md 0x19 3 0 [] ∧ (t.modu md).modcfg = (s.modu md).modcfg) ∧
      (v.toNat < 2 ^ 24 → (s.die d).hcmd.busy = false → let op := v.toNat % 256
        let target := v.toNat / 256
        (¬CommandRefused s d op target → Leads (.mgmtWrite md sq die 0x204 v) s fun t => Answered s t md 0x19 0 0 [] ∧
          (t.die d).hcmd = { busy := true, op := op, target := target, result := 0 }) ∧
        (CommandRefused s d op target → Leads (.mgmtWrite md sq die 0x204 v) s fun t => Answered s t md 0x19 3 0 [] ∧
          (t.die d).hcmd = { busy := false, op := op, target := target, result := 1 } ∧ t.mem = s.mem)) ∧
      (2 ^ 24 ≤ v.toNat → Leads (.mgmtWrite md sq die 0x204 v) s fun t => Answered s t md 0x19 3 0 [] ∧ t.dies = s.dies ∧ t.mem = s.mem) ∧
      (v.toNat < 2 ^ 24 → (s.die d).hcmd.busy = true → Leads (.mgmtWrite md sq die 0x204 v) s fun t =>
        Answered s t md 0x19 3 0 [] ∧ (t.die d).hcmd = { (s.die d).hcmd with result := 1 })) ∧
    (Leads (.heventRead die) s fun t => (t.die die).events = (s.die die).events.tail ∧ t.mem = s.mem ∧
      ∀ j, j ≠ die → t.die j = s.die j) ∧
    (∀ v : Word, let m := s.modu md
      (m.halted = true → m.haltedAt ≠ some s.now → Leads (.secpolWrite md v) s fun t => t = s) ∧
      (m.halted = false ∨ m.haltedAt = some s.now → m.secpol.getLsbD 63 = false → v.toNat % 2 ^ 63 < 3 → Leads (.secpolWrite md v) s fun t =>
        t.modu md = { m with secpol := BitVec.ofNat 64 (v.toNat % 2 ^ 63 + 2 ^ 63), secpolAt := some s.now }) ∧
      (m.secpol.getLsbD 63 = true ∨ 3 ≤ v.toNat % 2 ^ 63 → Leads (.secpolWrite md v) s fun t => t = s) ∧
      (m.halted = true → m.haltedAt ≠ some s.now → Leads (.modcfgWrite md v) s fun t => t = s) ∧
      (m.halted = false ∨ m.haltedAt = some s.now → m.modcfg.getLsbD 63 = false → v.toNat % 2 ^ 63 < 512 → Leads (.modcfgWrite md v) s fun t =>
        t.modu md = { m with modcfg := BitVec.ofNat 64 (v.toNat % 2 ^ 63 + 2 ^ 63) }) ∧
      (m.modcfg.getLsbD 63 = true ∨ 512 ≤ v.toNat % 2 ^ 63 → Leads (.modcfgWrite md v) s fun t => t = s)) ∧
    (∀ p, let m := s.modu md
      let die := fun b : Bool => s.die (8 * md + if b then 4 else 0)
      s.issue.active = false → m.hostport = some p →
      (∃ t0, m.downAt = some t0 ∧ t0 + 1600000 ≤ s.now) ∨ ((die p).isolated = true ∧ (die !p).isolated = false) →
      Leads (.hostPortFailover md) s fun t =>
        (t.modu md).hostport = some (!p) ∧ (t.modu md).downAt = (if (if p then m.ports0 else m.ports4) then none else some s.now) ∧
        (t.modu md).resps = m.resps ∧ (t.modu md).nextSq = m.nextSq ∧ t.mem = s.mem)

/-- 20 R420, Tables 20.2 and 20.4, 16 R332, 17 R378, 18 R383, 21 R437, Table 21.2: a management write of a fault limit, of a queue's
registers, of the save area, of RESVAT and RESPAGE or of PLANECC stores a value inside its row's range, with status 0, and nothing
else; a queue's addresses and size only while it is disabled, of which enabling takes the head word as the next index (the
model's reading: log entry 71, DEDUCED); the save area only while no vat is saved (no stack recalibrating, 20 R424); anything else is refused with status 3 and has no effect. -/
def Sys2Proof.Claims.ManagementWrites : Prop :=
  ∀ (md sq die : Nat) (s : State) (v : Word), let d := 8 * md + die
    s.takes md sq false = true → die < 8 → s.recal = false →
    let writes := fun (reg : Nat) (t' : Die) => Leads (.mgmtWrite md sq die reg v) s fun t =>
      Answered s t md 0x19 0 0 [] ∧ t.die d = t' ∧ t.mem = s.mem ∧ ∀ j, j ≠ d → t.die j = s.die j
    let refused := fun (reg : Nat) => Leads (.mgmtWrite md sq die reg v) s fun t =>
      Answered s t md 0x19 3 0 [] ∧ t.dies = s.dies ∧ t.mem = s.mem ∧ t.vats = s.vats
    let x := s.die d
    (∀ k < 4, let thr := v.toNat % 2 ^ 16
      let w := v.toNat / 2 ^ 16
      let fits := 1 ≤ thr ∧ (k ≠ 2 → thr ≤ 255 ∧ 1000 ≤ w) ∧ (k < 2 → w ≤ 604800000) ∧ (k = 2 → 100 ≤ w ∧ w ≤ 1000000) ∧
        (k = 3 → w ≤ 86400000)
      (fits → writes (0x208 + k) { x with fclim := tset x.fclim k (thr, w) }) ∧ (¬fits → refused (0x208 + k))) ∧
    (∀ q < 16, let c := v.toNat
      let legal := 4 ≤ c % 32 ∧ c % 32 ≤ 16 ∧ c / 32 % 8 = 0 ∧ c < 512
      (x.queueOn q = false →
        (c % 64 = 0 → writes (0x310 + q) { x with qbase := tset x.qbase q v }) ∧ (c % 64 ≠ 0 → refused (0x310 + q)) ∧
        (c % 8 = 0 → writes (0x330 + q) { x with qhead := tset x.qhead q v }) ∧ (c % 8 ≠ 0 → refused (0x330 + q)) ∧
        (c % 8 = 0 → writes (0x340 + q) { x with qtail := tset x.qtail q v }) ∧ (c % 8 ≠ 0 → refused (0x340 + q)) ∧
        (legal → c < 256 → writes (0x320 + q) { x with qcfg := tset x.qcfg q v }) ∧
        (legal → 256 ≤ c → writes (0x320 + q) { x with qcfg := tset x.qcfg q v, qnext := tset x.qnext q (s.headWord d q) })) ∧
      (x.queueOn q = true → refused (0x310 + q) ∧ refused (0x330 + q) ∧ refused (0x340 + q) ∧
        (legal → c + 256 = (tget x.qcfg q).toNat → writes (0x320 + q) { x with qcfg := tset x.qcfg q v }) ∧
        (c + 256 ≠ (tget x.qcfg q).toNat → v ≠ tget x.qcfg q → refused (0x320 + q))) ∧
      (¬legal → refused (0x320 + q))) ∧
    (v.toNat % 4096 = 0 → s.savedHere d = false →
      writes 0x350 { x with savebase := v } ∧ writes 0x351 { x with savelen := v }) ∧
    (v.toNat % 4096 ≠ 0 ∨ s.savedHere d = true → refused 0x350 ∧ refused 0x351) ∧
    (v.toNat < 2 ^ 32 → writes 0x358 { x with resvat := v }) ∧ (2 ^ 32 ≤ v.toNat → refused 0x358) ∧
    (thas s.vats (s.resVat d) = true → Leads (.mgmtWrite md sq die 0x359 v) s fun t => Answered s t md 0x19 0 0 [] ∧
      ∀ k, ∀ y ∈ (t.core k).tlb, ¬ (y.vat = s.resVat d ∧ y.range = none ∧ y.page * 4096 / y.size = v.toNat / y.size)) ∧
    (thas s.vats (s.resVat d) = false → refused 0x359) ∧
    (v.toNat < 2 → writes 0x360 { x with planecc := v }) ∧ (2 ≤ v.toNat → refused 0x360)


/-- 20 R422, R423, R430: a drain begins with its command; once nothing stands on the unit it is isolated, or the core retired,
and the command ends with result 0, at once where it is isolated or retired already; a unit comes back into service by its command. -/
def Sys2Proof.Claims.IsolationEvents : Prop :=
  ∀ (die n : Nat) (s : State), s.issue.active = false → (s.modu (die / 8)).halted = false →
    let ended := fun (t : State) (op target : Nat) => s.hcmdIs die op target = true →
      (t.die die).hcmd.busy = false ∧ (t.die die).hcmd.result = 0
    (∀ k, k = 32 * die + n → n < 32 → (s.quad k).isolated = false →
      (s.hcmdIs die 1 n = true → (s.quad k).draining = false → Leads (.drainIsolateQuad die n) s fun t =>
        (t.quad k).draining = true ∧ (t.quad k).isolated = false ∧ t.mem = s.mem) ∧
      ((s.quad k).draining = true → s.quadBusy k = false → Leads (.drainIsolateQuad die n) s fun t =>
        (t.quad k).isolated = true ∧ (t.quad k).draining = false ∧ ended t 1 n ∧ t.mem = s.mem)) ∧
    (n < 32 → (s.quad (32 * die + n)).isolated = true → Leads (.drainIsolateQuad die n) s fun t => ended t 1 n ∧ t.mem = s.mem) ∧
    (n < 128 → (s.core (128 * die + n)).retired = true → Leads (.retireCore die n) s fun t => ended t 3 n ∧ t.mem = s.mem) ∧
    ((s.die die).isolated = true → Leads (.drainIsolateDie die) s fun t => ended t 4 0 ∧ t.mem = s.mem) ∧
    (s.hcmdIs die 2 n = true → Leads (.returnQuad die n) s fun t =>
      (t.quad (32 * die + n)).isolated = false ∧ ended t 2 n ∧ t.mem = s.mem) ∧
    (∀ k, k = 128 * die + n → n < 128 → (s.core k).retired = false →
      (s.hcmdIs die 3 n = true → (s.core k).draining = false → Leads (.retireCore die n) s fun t =>
        (t.core k).draining = true ∧ (t.core k).retired = false ∧ t.mem = s.mem) ∧
      ((s.core k).draining = true → s.coresBusy [k] = false → Leads (.retireCore die n) s fun t =>
        (t.core k).retired = true ∧ ended t 3 n ∧ t.mem = s.mem)) ∧
    ((s.die die).isolated = false →
      (s.hcmdIs die 4 0 = true → (s.die die).draining = false → Leads (.drainIsolateDie die) s fun t =>
        (t.die die).draining = true ∧ (t.die die).isolated = false ∧ t.mem = s.mem) ∧
      ((s.die die).draining = true → (∀ q < 32, s.quadBusy (32 * die + q) = false) → Leads (.drainIsolateDie die) s fun t =>
        (t.die die).isolated = true ∧ (t.die die).draining = false ∧ ended t 4 0 ∧ t.mem = s.mem)) ∧
    (s.hcmdIs die 5 0 = true → Leads (.returnDie die) s fun t =>
      (t.die die).isolated = false ∧ (t.die die).stage = 5 ∧ ended t 5 0 ∧ t.mem = s.mem)

/-- 20 R424 to R426, R430: recalibrations begin and end with their commands; a semaphore is set to 0 without saturated and poison, or
loses its saturated bit; an image that verifies runs, one that does not leaves no firmware running and raises the alarm; the
running image's security version is burned where it is higher. -/
def Sys2Proof.Claims.RepairCommandEvents : Prop :=
  ∀ (die n : Nat) (s : State), s.issue.active = false → (s.modu (die / 8)).halted = false →
    let other := die / 8 * 8 + n
    let finished := fun (t : State) => (t.die die).hcmd.busy = false ∧ (t.die die).hcmd.result = 0
    (s.hcmdIs die 6 n = true → n < 8 → other ≠ die → Leads (.recalibrateLink die n) s fun t =>
      (t.link die other).recal = true ∧ t.link other die = s.link other die ∧ t.mem = s.mem) ∧
    (s.hcmdIs die 7 n = true → Leads (.recalibrateHbm die n) s fun t => (t.die die).hbmRecal = some n ∧ t.mem = s.mem) ∧
    (s.hcmdIs die 6 n = true → n < 8 → other ≠ die → (s.link die other).recal = true → Leads (.recalibrationDone die) s fun t =>
      (t.link die other).recal = false ∧ finished t ∧ t.mem = s.mem) ∧
    (s.hcmdIs die 7 n = true → (s.die die).hbmRecal.isSome = true → Leads (.recalibrationDone die) s fun t =>
      (t.die die).hbmRecal = none ∧ finished t ∧ t.mem = s.mem) ∧
    (s.hcmdIs die 8 n = true → Leads (.reinitSemaphore die n) s fun t =>
      ((t.die die).sem n).cur = { count := 0, sat := false, bad := false } ∧ finished t ∧
      (∀ j, j ≠ n → (t.die die).sem j = (s.die die).sem j) ∧ t.mem = s.mem) ∧
    (s.hcmdIs die 9 n = true → Leads (.clearSaturated die n) s fun t =>
      ((t.die die).sem n).cur = { ((s.die die).sem n).cur with sat := false } ∧ finished t ∧ t.mem = s.mem) ∧
    (s.hcmdIs die 0x10 0 = true → s.recal = false → Leads (.loadFirmware die) s fun t => t.mem = s.mem ∧
      (∀ v sv body, s.loadImage die = some (v, sv, body) → (t.die die).fwRun = some (v, sv) ∧ (t.die die).fwBody = body ∧ finished t) ∧
      (s.loadImage die = none → (t.die die).fwRun = none ∧ (t.die die).hcmd.result = 2 ∧ (t.die die).hcmd.busy = false ∧
        (t.modu (die / 8)).alarm.getLsbD 3 = true ∧
        ((s.modu (die / 8)).secpol.getLsbD 63 = false → (t.modu (die / 8)).halted = true))) ∧
    (∀ v sv, s.hcmdIs die 0x11 0 = true → (s.die die).fwRun = some (v, sv) → Leads (.raiseFwsvn die) s fun t =>
      (t.die die).fwsvn = max (s.die die).fwsvn sv ∧ finished t ∧ t.mem = s.mem)

/-- The times of a resource's corrected events with the one of this cycle, and how many of them lie in the window that ends now (20
R419). -/
def Sys2Proof.Claims.eventsOf (s : State) (die kind res : Nat) : List Nat := tget (s.die die).counters (2 ^ 16 * kind + res) ++ [s.now]
def Sys2Proof.Claims.inWindow (s : State) (die kind res : Nat) : Nat :=
  ((eventsOf s die kind res).filter fun t => decide (s.now ≤ t + windowCycles kind (tget (s.die die).fclim kind).2)).length

/-- 20 R417 to R421, Table 20.2: a corrected event is counted and its time is kept; when as many as the limit lie in the window the
fault is lasting, the counter starts again, and the repair starts: a word-line or a row takes a spare, or its core or quad drains,
its cache set is off, its frames are reported; a lane takes a spare, or its link runs at half width and then is down; a core with a
lasting fault of its logic drains. The numbering of resources, lines, rows and frames is log entry 24, that an event exactly one window old
counts is log entry 82, and of which direction a lane is, log entry 131. A failed flit is a corrected event of its lane; a second parity error of a bundle makes it
trap, and is two events. A core whose drain is over is retired, and with the last core of its quad the quad is isolated. -/
def Sys2Proof.Claims.CorrectedErrorEvents : Prop :=
  ∀ (die kind res : Nat) (s : State), s.issue.active = false →
    let d := s.die die
    let counted (t : State) (lasting : Bool) : Prop := (t.die die).ce = d.ce + 1 ∧ t.mem = s.mem ∧ t.ctxs = s.ctxs ∧
      tget (t.die die).counters (2 ^ 16 * kind + res) = (if lasting then [] else eventsOf s die kind res) ∧
      (t.die die).events = d.events ++ [{ res := res, kind := kind, lasting := lasting, ms := s.ms die }]
    let lim := (tget d.fclim kind).1
    (kind < 4 → res < 2 ^ 16 → d.events.length < 1024 → d.ce < 2 ^ 64 - 1 →
      (inWindow s die kind res < lim → Leads (.correctedError die kind res) s fun t => counted t false ∧
        ∀ k, (kind ≠ 0 ∨ k ≠ 128 * die + res / 256) → t.core k = s.core k) ∧
      (lim ≤ inWindow s die kind res → Leads (.correctedError die kind res) s fun t => counted t true ∧
        (kind = 0 → let m := res / 256
          (tget d.lineSpare m < 4 → tget (t.die die).lineSpare m = tget d.lineSpare m + 1) ∧
          (4 ≤ tget d.lineSpare m →
            (m < 128 → (t.core (128 * die + m)).draining = true) ∧
            (128 ≤ m → m < 160 → (t.quad (32 * die + (m - 128))).draining = true) ∧
            (160 ≤ m → m < 255 → m ∈ (t.die die).setsOff))) ∧
        (kind = 1 → let left := tget d.hbmSpare (res / 2 ^ 13)
          (0 < left → tget (t.die die).hbmSpare (res / 2 ^ 13) = left - 1) ∧
          (left = 0 → .frames die (Config.rowFrames die res) ∈ (t.modu (die / 8)).notices)) ∧
        (kind = 2 → let other := die / 8 * 8 + res / 256 % 8
          let l := s.link die other
          other ≠ die → t.link die other =
            if l.spare ≠ 0 then { l with spare := l.spare - 1 } else if l.half = false then { l with half := true } else { l with down := true }) ∧
        (kind = 3 → (t.core (128 * die + res % 128)).draining = true))) ∧
    (∀ other lane, Leads (.linkFlitReceive die other lane true) s (fun t => t = s) ∧
      Leads (.linkFlitReceive die other lane false) s fun t => exec (.correctedError die 2 (other % 8 * 256 + lane % 256)) s = .next t) ∧
    (∀ core, Leads (.parityError core false) s (fun t => exec (.correctedError (core / 128) 3 (core % 128)) s = .next t) ∧
      Leads (.parityError core true) s fun t => t.parity = s.parity ++ [(core, true)] ∧ t.mem = s.mem ∧
        let die := core / 128
        let d := s.die die
        let lim := (tget d.fclim 3).1
        let first := decide (lim ≤ inWindow s die 3 (core % 128))
        let second := decide (lim ≤ if first then 1 else inWindow s die 3 (core % 128) + 1)
        let event (lasting : Bool) : HEvent := { res := core % 128, kind := 3, lasting := lasting, ms := s.ms die }
        (d.ce < 2 ^ 64 - 2 → (t.die die).ce = d.ce + 2) ∧
        (d.events.length < 1023 → (t.die die).events = d.events ++ [event first, event second]) ∧
        tget (t.die die).counters (2 ^ 16 * 3 + core % 128) =
          (if second then [] else if first then [s.now] else eventsOf s die 3 (core % 128) ++ [s.now]) ∧
        (first = true ∨ second = true → (t.core core).draining = true)) ∧
    (∀ n, let k := 128 * die + n
      n < 128 → (s.modu (die / 8)).halted = false → (s.core k).retired = false → (s.core k).draining = true → s.coresBusy [k] = false →
      Leads (.retireCore die n) s fun t => (t.core k).retired = true ∧ t.mem = s.mem ∧
        ((∀ j < 4, k / 4 * 4 + j ≠ k → (s.core (k / 4 * 4 + j)).retired = true) →
          (t.quad (k / 4)).isolated = true ∧ (t.quad (k / 4)).draining = false) ∧
        ((∃ j < 4, k / 4 * 4 + j ≠ k ∧ (s.core (k / 4 * 4 + j)).retired = false) → t.quad (k / 4) = s.quad (k / 4)))

/-- 20 R417, R419, Table 20.1, 11 R250, 16 R343, R353: an uncorrectable error is counted in UECNT and marks what it struck; a scrub
that finds one does the same, and one that finds a corrected error counts it against its resource; failing dies are isolated and
every context on them is lost, the other dies of each vat elect anew, and its wheels there are entered with source 2, which breaks their
gangs. The resource of a place is log entry 24. -/
def Sys2Proof.Claims.UncorrectableErrorEvents : Prop :=
  (∀ (w : UeSite) (s : State), s.issue.active = false → (∀ v, w = .flueEntry v → s.recal = false) → let d := s.die (ueDie w)
    Leads (.uncorrectableError w) s (fun t => ((∀ v, w ≠ .flueEntry v) → t.mem = s.mem) ∧
      (t.die (ueDie w)).ue = min (d.ue + 1) (2 ^ 64 - 1) ∧ (t.die (ueDie w)).ce = d.ce ∧
      (∀ loc, w = .unit loc → t.isBad loc = true ∧ ∀ u, u ≠ loc / 32 → (u ∈ t.poison ↔ u ∈ s.poison)) ∧
      (∀ cx r, w = .reg cx r → (t.ctx cx).marks.contains r = true ∧ (t.ctx cx).s = (s.ctx cx).s) ∧
      (∀ cx i, w = .landing cx i → let entries (c : Ctx) := c.l0.land ++ c.l1.land
        entries (t.ctx cx) = (entries (s.ctx cx)).zipIdx.map fun x => if x.2 = i then { x.1 with bad := true } else x.1) ∧
      (∀ quad b u, w = .acc quad b u → u ∈ ((t.quad quad).bank b).bad) ∧
      (∀ quad e, w = .dict quad e → e ∈ (t.quad quad).dictBad) ∧
      (∀ die sem, w = .semaphore die sem → ((t.die die).sem sem).cur = { ((s.die die).sem sem).cur with bad := true }) ∧
      (∀ core slot e, w = .engineQueue core slot → (s.core core).ember slot = some e → e.began = false → Sound e →
        Ended t core slot .faulted 0x18 0 0) ∧
      (∀ core slot e, w = .emberField core slot → (s.core core).ember slot = some e →
        (e.st.cur.final = true → Ended t core slot .faulted 0x18 0 0) ∧
        (e.st.cur.final = false → (t.core core).ember slot = some { e with struck := true })) ∧
      (∀ core slot e, w = .emberOwner core slot → (s.core core).ember slot = some e → slot ∈ (t.core core).fenced ∧
        (t.core core).ember slot = some { e with owner := 4, fenced := true })) ∧
    Leads (.patrolScrub w true) s (fun t => exec (.uncorrectableError w) s = .next t) ∧
    (siteResource w = none → Leads (.patrolScrub w false) s fun t => t = s) ∧
    (∀ kind res, siteResource w = some (kind, res) → d.ce < 2 ^ 64 - 1 → Leads (.patrolScrub w false) s fun t =>
      (t.die (ueDie w)).ce = d.ce + 1 ∧ t.mem = s.mem ∧ t.ctxs = s.ctxs ∧ t.poison = s.poison ∧
      tget (t.die (ueDie w)).counters (2 ^ 16 * kind + res) =
        if (tget d.fclim kind).1 ≤ inWindow s (ueDie w) kind res then [] else eventsOf s (ueDie w) kind res)) ∧
  (∀ (dies : List Nat) (s : State), s.issue.active = false → Leads (.dieFailure dies) s fun t =>
    (∀ d ∈ dies, (t.die d).isolated = true) ∧ (∀ cx, dieOf cx ∈ dies → (t.ctx cx).wheel = none) ∧
    (∀ vat ∈ tkeys s.vats, (tkeys s.vats).Nodup → (∃ d ∈ s.vatDies vat, d ∈ dies) → let v := s.vat vat
      let w := t.vat vat
      let left := (s.vatDies vat).filter fun d => s.dieHealthy d && !dies.contains d
      w.leader = left.head?.getD v.leader ∧ w.shadow = (left.drop 1).head? ∧
      w.lostLeader = (v.lostLeader || (dies.contains v.leader && v.shadow.all fun d => dies.contains d)) ∧
      (∀ k ∈ w.saves, k.core / 128 ∉ dies) ∧ (∀ g ∈ w.grants, g.die ∉ dies) ∧ v.entries <+: w.entries ∧
      ∀ cx x, (s.ctx cx).wheel = some x → x.vat = vat → dieOf cx ∈ dies →
        (v.entries.length + (s.lostEntries vat fun d => dies.contains d).length ≤ 12 →
          ∃ e ∈ w.entries, e.who = x.idx ∧ e.source = 2 ∧ e.core = coreOf cx % 128 ∧ e.die = dieOf cx % 8) ∧
        ∀ g, v.gangOf x.idx = some g → thas w.broken g = true) ∧
    (s.colls = [] → ∀ d, d ∉ dies → t.die d = s.die d))

/-- 20 R427, R428, 21 R431, R432: each source of the alarm sets its bit and is judged under the policy at the start of the
cycle: halt until SECPOL was written in an earlier one, then log, halt, or halt and erase; a die at 115 °C or a stack at 100 °C trips
and halts the module; THROTTLE holds the causes in force and how many of the last 1 ms of cycles were throttled (log entry 129; what the
sensors read is log entry 10). -/
def Sys2Proof.Claims.AlarmAndHeatEvents : Prop :=
  ∀ (md : Nat) (s : State),
    let alarm := fun (i : Instr) (bit : Nat) => Leads i s fun t => (t.modu md).alarm.getLsbD bit = true ∧ t.mem = s.mem ∧
      (∀ j < 56, (s.modu md).alarm.getLsbD j = true → (t.modu md).alarm.getLsbD j = true) ∧
      (t.modu md).alarm.toNat / 2 ^ 56 = min ((s.modu md).alarm.toNat / 2 ^ 56 + 1) 255 ∧
      ((s.modu md).secpol.getLsbD 63 = false ∨ (s.modu md).secpolAt = some s.now →
        (t.modu md).halted = true ∧ (t.modu md).erased = (s.modu md).erased) ∧
      ((s.modu md).secpolAt ≠ some s.now →
        ((s.modu md).secpol = 2 ^ 63 → (t.modu md).halted = (s.modu md).halted ∧ (t.modu md).erased = (s.modu md).erased) ∧
        ((s.modu md).secpol = 2 ^ 63 + 1 → (t.modu md).halted = true ∧ (t.modu md).erased = (s.modu md).erased) ∧
        ((s.modu md).secpol = 2 ^ 63 + 2 → (t.modu md).halted = true ∧ (t.modu md).erased = true))
    alarm (.tamperMesh md) 0 ∧ alarm (.voltageGlitch md) 1 ∧ alarm (.clockGlitch md) 2 ∧
    (s.issue.active = false → ∀ die, die / 8 = md →
      (dieHot die s.now 115 = true ∨ stackHot die s.now = true → Leads (.thermalTrip die) s fun t =>
        (t.die die).trip = true ∧ (t.modu md).halted = true ∧ (t.modu md).alarm = (s.modu md).alarm ∧ t.mem = s.mem) ∧
      (dieHot die s.now 115 = false → stackHot die s.now = false → Leads (.thermalTrip die) s fun t => t = s)) ∧
    (s.issue.active = false → ∀ die, let d := s.die die
      let power := causeOn s.now d.hotPower (s.overPower (die / 8)) (s.atPower (die / 8))
      let thermal := causeOn s.now d.hotDie (dieHot die · 105) (dieHot die · 105)
      (Leads (.throttle die power thermal (d.throttled s.now)) s fun t => let w := (t.die die).throttleWord s.now
        w.getLsbD 0 = power ∧ w.getLsbD 1 = thermal ∧ t.mem = s.mem ∧
        (d.hotSpans = [] → d.hotPower = false → d.hotDie = false → w.toNat / 2 ^ 32 = 0) ∧
        (d.hotSpans = [] → (d.hotPower = true ∨ d.hotDie = true) → d.hotSince ≤ s.now →
          w.toNat / 2 ^ 32 = min (s.now - d.hotSince) 1600000)) ∧
      ∀ p h c, (p ≠ power ∨ h ≠ thermal ∨ c ≠ d.throttled s.now) → Leads (.throttle die p h c) s fun t => t = s)

/-- 18 R382, R383, 21 R433, R434, R436: a reset clears a module's contexts, queues, registers and memory but keeps the fused
version, the repair fuses and the retirements; each stage of bring-up is followed by the next, or by the die being held in it; each fault
that the self-test finds takes a spare word-line, else its core is retired or its quad isolated, and one in a structure of the whole die
(array 255 of log entry 24) without a spare holds the die; the first host port whose link is up becomes active, die 0's where its link is up within 100 ms; a plane port comes up with PLANECC in
use, and goes down. That a module reset clears HBM4E and the scratchpads is log entry 83, and what cleared memory reads log entries 1 and
2; that links and ports are down or idle after it, log entry 21; that the events SELF_TEST_DONE and the faults they carry end stages 1 and
2, log entries 80 and 130; the numbering of resources by macro and word-line, log entry 24. -/
def Sys2Proof.Claims.ResetAndBringupEvents : Prop :=
  (∀ (md : Nat) (s : State), s.issue.active = false → Leads (.moduleReset md) s fun t =>
    (∀ cx, modOf cx = md → t.ctx cx = {}) ∧ (t.modu md).secpol = 0 ∧ (t.modu md).modcfg = 0 ∧ (t.modu md).hostport = none ∧
    (t.modu md).halted = false ∧ (t.modu md).nextSq = 0 ∧ (t.modu md).erased = (s.modu md).erased ∧
    (∀ d, d / 8 = md → (t.die d).stage = 1 ∧ (t.die d).isolated = true ∧ (t.die d).fwRun = none ∧
      (t.die d).fwsvn = (s.die d).fwsvn ∧ (t.die d).lineSpare = (s.die d).lineSpare ∧ (t.die d).hbmSpare = (s.die d).hbmSpare ∧
      (t.die d).setsOff = [] ∧ ∀ j, tget (t.die d).links j = { spare := (tget (s.die d).links j).spare }) ∧
    (∀ k, k / 1024 = md → (t.core k).retired = (s.core k).retired) ∧
    ((∀ r ∈ s.colls, vatMod r.vat < 512) → ∀ a, locMod a = md → cellGet t.mem a = 0)) ∧
  (∀ (die : Nat) (s : State), s.issue.active = false → (s.modu (die / 8)).halted = false → let d := s.die die
    (d.heldTest = false → d.heldFuse = false →
      let common (w : UeSite) : Prop := ∃ x y, w = .dieUnit x ∨ w = .flueEntry x ∨ w = .semaphore x y
      let uncovered (w : UeSite) : Prop := (∃ x y, w = .recordWrite x y) ∨ (common w ∧ 4 ≤ tget d.lineSpare 255)
      (d.stage = 1 → ∀ faults, Leads (.selfTestDone die faults) s fun t => t.mem = s.mem ∧
        (faults = [] → t.die die = { d with stage := 2 }) ∧
        (faults ≠ [] → t.die die = { d with heldFuse := true } ∧ ∀ more, Leads (.selfTestDone die more) t fun v => v = t)) ∧
      (d.stage = 2 →
        (Leads (.selfTestDone die []) s fun t => t.die die = { d with stage := 3 } ∧ t.mem = s.mem) ∧
        (∀ faults, (∃ w ∈ faults, ueDie w = die ∧ uncovered w) → Leads (.selfTestDone die faults) s fun t => t.mem = s.mem ∧
          (t.die die).heldTest = true ∧ (t.die die).stage = 2) ∧
        (∀ w, ueDie w = die → common w → tget d.lineSpare 255 < 4 → Leads (.selfTestDone die [w]) s fun t => t.mem = s.mem ∧
          tget (t.die die).lineSpare 255 = tget d.lineSpare 255 + 1 ∧ (t.die die).stage = 3) ∧
        (∀ cores quads : List Nat, (∀ k ∈ cores, k / 128 = die) → (∀ q ∈ quads, q / 32 = die) →
          Leads (.selfTestDone die (cores.map .coreUnit ++ quads.map .quadUnit)) s fun t => t.mem = s.mem ∧
            (∀ k ∈ cores, (t.core k).retired = true) ∧ (∀ q ∈ quads, (t.quad q).isolated = true) ∧ (t.die die).stage = 3) ∧
        (∀ w res, ueDie w = die → siteResource w = some (0, res) → ¬uncovered w →
          (∀ x, w ≠ .coreUnit x ∧ w ≠ .quadUnit x) → let m := res / 256
          Leads (.selfTestDone die [w]) s fun t => t.mem = s.mem ∧
            (tget d.lineSpare m < 4 → tget (t.die die).lineSpare m = tget d.lineSpare m + 1 ∧ (t.die die).stage = 3) ∧
            (4 ≤ tget d.lineSpare m →
              (m < 128 → (t.core (128 * die + m)).retired = true ∧ (t.die die).stage = 3) ∧
              (128 ≤ m → m < 160 → (t.quad (32 * die + (m - 128))).isolated = true ∧ (t.die die).stage = 3))))) ∧
    (d.stage = 3 → d.heldHbm = false →
      (∀ k, Leads (.hbmTrainingDone die (some k)) s fun t => t.die die = { d with heldHbm := true, badStack := k.val } ∧ t.mem = s.mem) ∧
      (s.cycle die ≤ 128000000 → Leads (.hbmTrainingDone die none) s fun t => t.die die = { d with stage := 4 } ∧ t.mem = s.mem) ∧
      (128000000 < s.cycle die → Leads (.hbmTrainingDone die none) s fun t => (t.die die).heldHbm = true ∧ (t.die die).stage = 3)) ∧
    (∀ port, port < 2 → Leads (.planeLinkBringup die port true) s fun t =>
      tget (t.die die).portUp port = true ∧ (t.die die).ccInUse = d.planecc ∧ t.mem = s.mem) ∧
    (∀ port, Leads (.planePortDown die port) s fun t => tget (t.die die).portUp port = false ∧ t.mem = s.mem)) ∧
  (∀ (md : Nat) (up0 up4 : Bool) (s : State), let m := s.modu md
    s.issue.active = false → m.halted = false → Leads (.hostPortSelect md up0 up4) s fun t => let p := (t.modu md).hostport
      (∀ b, m.hostport = some b → p = some b) ∧
      (m.hostport = none → s.now - m.resetAt < 160000000 → p = if up0 then some false else none) ∧
      (m.hostport = none → s.now - m.resetAt ≤ 160000000 → up0 = true → p = some false) ∧
      (m.hostport = none → 160000000 < s.now - m.resetAt → m.ports0 = false → m.ports4 = true → up4 = true → p = some true) ∧
      (m.hostport = none → 160000000 ≤ s.now - m.resetAt → m.ports4 = false → up0 = true → p = some false) ∧
      (m.hostport = none → 160000000 ≤ s.now - m.resetAt → up0 = false → p = if up4 then some true else none) ∧
      (t.modu md).ports0 = up0 ∧ (t.modu md).ports4 = up4 ∧ t.mem = s.mem)


/-- An instruction word stands alone in a literal bundle, in the slot given (02 R28, R29, Table 2.2): the decoder reads it so. -/
def Sys2Proof.Claims.Reads (slot word : Nat) (i : Instr) : Prop :=
  decode (0xF000 :: numWords 24 (word * 2 ^ slotBase slot)) = some i

/-- The decoder reads words that the specification writes out, or that its formats give bit by bit: 07 §7 (sum4), 05 R114,
02 Table 2.2, 08 R187, R189, 09 Example 9.1, 10 Examples 10.1 to 10.3, 11 R231, 12 R257, R265, 13 R283, R298, R303, 16 R338,
17 R362, R363, 18 R396, R406. -/
def Obligations.DecodeWords : Prop :=
  Reads 3 0x004000003006 (.loopi 0 4 6) ∧ Reads 4 0x000001061801 (.add 0 3 3 2) ∧ Reads 4 0x000002860833 (.cmpiGe 0 1 3 5) ∧
  Reads 3 0x000000001101 (.br 1 2) ∧ Reads 3 0x0000000E0022 (.wheelSpawn 0 7) ∧ Reads 3 0x000000000030 (.tret 0) ∧
  Reads 3 0x0000000A0032 (.ssave 0 5) ∧
  Reads 2 0x0000000000000803 (.pressClaim 0 true) ∧
  Reads 2 0x0A2189106C000009 (.pressRun 0 { name := 0x0A21, prio := 2, d := 9, a := 4 } 6 true true false) ∧
  Reads 2 0x0C018C1400000018 (.coll 0 { name := 0x0C01, prio := 2, d := 12, a := 5 }) ∧
  Reads 2 0x0A110A1060000019 (.caveUpd 0 { name := 0x0A11, prio := 0, d := 10, a := 4 } 6) ∧
  Reads 2 0x01000C1C01700010 (.copyBb 0 { name := 0x0100, prio := 0, d := 12, a := 7 } 5 true) ∧
  Reads 2 0x00000000E0103038 (.bbExpect 0 6 7 8) ∧ Reads 2 0x00000000000E3040 (.moldGet 0 6 7) ∧
  Reads 0 0x00002000500040D8 (.vexp2 { v1 := false, width := .w256, mask := 0 } .f32 (.opr 2) (.opr 1)) ∧
  Reads 1 0xC000200110013004 (.vrand { v1 := true, width := .w1024, mask := 0 } (.opr 9) (.opr 4) (.imm 0)) ∧
  Reads 1 0xC001805000001006 (.panePark true 5 3) ∧
  Reads 6 0x000000083003 (.stw 0 6 4 0) ∧ Reads 5 0x00000008100A (.ldmx 0 false .w256 2 4 0) ∧
  Reads 5 0x01EA0388301A (.amoCas 0 .die .acqRel true true 6 4 7)

/-- Reset values that the specification gives: no ember is live and every slot's next generation is 1 (11 R225); lastcore and
every lastctx are 3 (12 R255); every semaphore counts 0 (16 R339); hoops and byte barriers are free (13 R291, R298); every
die is in stage 1 and isolated, SECPOL and MODCFG are unwritten, PWRCAP, FCLIM and DEVID have their values (20 Table 20.4,
21 R433, Table 21.2). That no context holds a wheel and that every register then reads 0 are the model's choices
(log entry 1). -/
def Sys2Proof.Claims.ResetValues : Prop :=
  let s := State.reset
  (∀ core slot, (s.core core).ember slot = none ∧ (s.core core).gen slot = 1) ∧
  (∀ quad, (s.quad quad).lastcore = 3 ∧ (∀ c < 4, tget (s.quad quad).lastctx c = 3) ∧ (s.quad quad).leases = [] ∧
    (∀ b, ((s.quad quad).bank b).holder = none) ∧ (s.quad quad).image = none ∧
    ∀ i, ((s.quad quad).hoop i).cur.owner = none ∧ ((s.quad quad).bb i).cur.owner = none) ∧
  (∀ die i, ((s.die die).sem i).cur = { count := 0, sat := false, bad := false }) ∧
  (∀ die, (s.die die).stage = 1 ∧ (s.die die).isolated = true ∧ (s.die die).fwRun = none ∧
    s.mgmtVal die 0x208 = BitVec.ofNat 64 (4 + 86400000 * 2 ^ 16) ∧ s.mgmtVal die 0x209 = BitVec.ofNat 64 (2 + 3600000 * 2 ^ 16) ∧
    s.mgmtVal die 0x20A = BitVec.ofNat 64 (64 + 1000 * 2 ^ 16) ∧ s.mgmtVal die 0x20B = BitVec.ofNat 64 (3 + 600000 * 2 ^ 16) ∧
    s.mgmtVal die 0x240 = 0 ∧ s.mgmtVal die 0x301 = 0 ∧ s.mgmtVal die 0x303 = 10800000 ∧ s.mgmtVal die 0x30C = 0x4E380A01) ∧
  (∀ cx, (s.ctx cx).wheel = none ∧ (∀ n, (s.ctx cx).sr n = 0) ∧ ∀ n, n ≠ 0 → (s.ctx cx).pr n = false ∧ (s.ctx cx).kr n = 0)

/- The statements that join several of the parts above. -/

/-- Results of the scalar arithmetic, shift, count and immediate instructions: ScalarArithmeticResults, ScalarShiftAndCountResults, ScalarImmediateResults. -/
def Obligations.ScalarAluResults : Prop :=
  ScalarArithmeticResults ∧ ScalarShiftAndCountResults ∧ ScalarImmediateResults

/-- What branches, calls, jumps and loops leave for the end of their bundle: BranchResults, LoopResults. -/
def Obligations.BranchAndLoopResults : Prop :=
  BranchResults ∧ LoopResults

/-- Control registers: what they read, and what csrr, csrw, csrs and csrc do: ControlRegisterWrites, ControlRegisterReads. -/
def Obligations.ControlRegisterResults : Prop :=
  ControlRegisterWrites ∧ ControlRegisterReads

/-- waitc waits and then lets its bundle issue; a released bar; wheel.end: WaitedBarrierAndEndResults, WaitcWaits. -/
def Obligations.WaitBarrierAndEndResults : Prop :=
  WaitedBarrierAndEndResults ∧ WaitcWaits

/-- What spawning a wheel and signalling, waiting on and testing a semaphore do: SpawnResults, SemaphoreResults. -/
def Obligations.SpawnAndSemaphoreResults : Prop :=
  SpawnResults ∧ SemaphoreResults

/-- Every load, store and line operation takes its place in its queue: ScalarLoadResults, ScalarStoreResults, WideLoadStoreResults. -/
def Obligations.LoadStoreResults : Prop :=
  ScalarLoadResults ∧ ScalarStoreResults ∧ WideLoadStoreResults

/-- Marks, fences and local atomics take their places in the queues: MarkAndFenceResults, AtomicResults. -/
def Obligations.OrderingAndAtomicResults : Prop :=
  MarkAndFenceResults ∧ AtomicResults

/-- Vector compares, mask logic, shifts, logic, moves and lane exchanges: VectorCompareAndMaskResults, VectorShiftLogicExchangeResults. -/
def Obligations.VectorCompareLogicAndExchangeResults : Prop :=
  VectorCompareAndMaskResults ∧ VectorShiftLogicExchangeResults

/-- Vector reductions, conversions, MX blocks and keyed words: VectorReductionResults, VectorConversionResults. -/
def Obligations.VectorReductionAndConversionResults : Prop :=
  VectorReductionResults ∧ VectorConversionResults

/-- The special functions of revision 1, element by element: SpecialFunctionElements, SpecialFunctionArguments, SpecialFunctionExactValues. -/
def Obligations.SpecialFunctionResults : Prop :=
  SpecialFunctionElements ∧ SpecialFunctionArguments ∧ SpecialFunctionExactValues

/-- The token instructions, on tokens refused and on embers the context may act on: TokenRefusals, TokenUses. -/
def Obligations.TokenResults : Prop :=
  TokenRefusals ∧ TokenUses

/-- The hoop, byte-barrier and mold instructions: HoopResults, ByteBarrierResults, MoldResults. -/
def Obligations.HoopBarrierAndMoldResults : Prop :=
  HoopResults ∧ ByteBarrierResults ∧ MoldResults

/-- System instructions at level 0 are PRIVILEGED; misaligned groups and absent panes are OPERAND_RANGE: PrivilegedTraps, OperandRangeTraps. -/
def Obligations.PrivilegeAndRangeTraps : Prop :=
  PrivilegedTraps ∧ OperandRangeTraps

/-- Traps that depend on the values of an instruction's sources, on poison records and on the state of hoops, byte barriers, banks and molds: ValueTraps, EmberCommandTraps, PoisonRecordTraps, LoopAndControlValueTraps. -/
def Obligations.ExecutionTraps : Prop :=
  ValueTraps ∧ EmberCommandTraps ∧ PoisonRecordTraps ∧ LoopAndControlValueTraps

/-- When a result of latency L and an FMT write become visible, and which of two results wins: ScalarResultTiming, LaterResultWins, FmtWriteTiming. -/
def Obligations.ResultTiming : Prop :=
  ScalarResultTiming ∧ LaterResultWins ∧ FmtWriteTiming

/-- A step runs one event, and leaves no bundle open: StepIsItsEvent, EveryStepClosesItsBundle. -/
def Obligations.StepRunsOneEvent : Prop :=
  StepIsItsEvent ∧ EveryStepClosesItsBundle

/-- Bundle issue, context selection, result delivery and the FMT write taking effect: BundleIssueResults, WaitingBundleFrame, ContextSelectResults, DeliveryEventResults. -/
def Obligations.IssueAndDeliveryEvents : Prop :=
  BundleIssueResults ∧ WaitingBundleFrame ∧ ContextSelectResults ∧ DeliveryEventResults

/-- Queued loads and stores are performed and return: LoadEventResults, StoreEventResults. -/
def Obligations.QueueEvents : Prop :=
  LoadEventResults ∧ StoreEventResults

/-- A local atomic is performed at one instant: AtomicOperations, AtomicEventResults. -/
def Obligations.AtomicEvents : Prop :=
  AtomicOperations ∧ AtomicEventResults

/-- Ordering places are performed; translations are cached and invalidated: MarkEventResults, TranslationEventResults. -/
def Obligations.MarkAndTranslationEvents : Prop :=
  MarkEventResults ∧ TranslationEventResults

/-- A far request at its target, and its answer, acknowledgement or timeout at its sender: FarTargetResults, FarAnswerResults. -/
def Obligations.FarEvents : Prop :=
  FarTargetResults ∧ FarAnswerResults

/-- The values that reset leaves, and memory in its canonical form: ResetMemoryIsCanonical, ResetValues. -/
def Obligations.ResetStateValues : Prop :=
  ResetMemoryIsCanonical ∧ ResetValues

/-- Lease arbitration, grants, deferred releases, command starts and multicast: LeaseArbiterOrder, PressStartEvents. -/
def Obligations.PressSchedulingEvents : Prop :=
  LeaseArbiterOrder ∧ PressStartEvents

/-- Copies start, move their chunks and end; released slots and accepted arrivals are counted: CopyEvents, CopyCountEvents, HoopAndBarrierEvents. -/
def Obligations.CopyHoopAndBarrierEvents : Prop :=
  CopyEvents ∧ CopyCountEvents ∧ HoopAndBarrierEvents

/-- Collectives begin, gather their parts and end; a cave update writes row group by row group: CollectiveEvents, CaveUpdateEvents. -/
def Obligations.CollectiveAndCaveEvents : Prop :=
  CollectiveEvents ∧ CaveUpdateEvents

/-- Ring entries become vats, vats become ready, wheels are placed, vats are preloaded: FlueQueueEvents, PlacementEvents. -/
def Obligations.FlueQueueAndPlacementEvents : Prop :=
  FlueQueueEvents ∧ PlacementEvents

/-- Host messages about vats, domains and memory: HostVatMessages, HostMemoryMessages. -/
def Obligations.HostMessages : Prop :=
  HostVatMessages ∧ HostMemoryMessages

/-- Management reads and writes, SECPOL, MODCFG, and host-port failover: ManagementReadsAndCommands, ManagementWrites. -/
def Obligations.ManagementMessages : Prop :=
  ManagementReadsAndCommands ∧ ManagementWrites

/-- Draining, isolation, retirement and the other management commands: IsolationEvents, RepairCommandEvents. -/
def Obligations.RepairEvents : Prop :=
  IsolationEvents ∧ RepairCommandEvents

/-- Corrected and uncorrectable errors, scrubs, parity errors and failing dies: CorrectedErrorEvents, UncorrectableErrorEvents. -/
def Obligations.ErrorEvents : Prop :=
  CorrectedErrorEvents ∧ UncorrectableErrorEvents

/-- Alarms, heat, module reset, the stages of bring-up, host port and plane ports: AlarmAndHeatEvents, ResetAndBringupEvents. -/
def Obligations.AlarmResetAndBringupEvents : Prop :=
  AlarmAndHeatEvents ∧ ResetAndBringupEvents
end

