-- ==== Sys2Proof/Laws/Dispatch.lean ====
section
/-! SUPPORT. What `exec` and `slotOp` are for each constructor, so that no proof unfolds either match, and that an
instruction is run as `slotOp` shows it to issue. -/

set_option maxRecDepth 20000

namespace Sys2Proof.Machine

section
variable (z : State)

@[simp] theorem exec_vadd (h : VHdr) (ty : VType) (d : Opnd) (a : Opnd) (b : Opnd) : exec (.vadd h ty d a b) z = execVadd h ty d a b z := rfl
@[simp] theorem exec_vsub (h : VHdr) (ty : VType) (d : Opnd) (a : Opnd) (b : Opnd) : exec (.vsub h ty d a b) z = execVsub h ty d a b z := rfl
@[simp] theorem exec_vmul (h : VHdr) (ty : VType) (d : Opnd) (a : Opnd) (b : Opnd) : exec (.vmul h ty d a b) z = execVmul h ty d a b z := rfl
@[simp] theorem exec_vfma (h : VHdr) (ty : VType) (d : Opnd) (a : Opnd) (b : Opnd) : exec (.vfma h ty d a b) z = execVfma h ty d a b z := rfl
@[simp] theorem exec_vadds (h : VHdr) (ty : VType) (d : Opnd) (a : Opnd) (b : Opnd) : exec (.vadds h ty d a b) z = execVadds h ty d a b z := rfl
@[simp] theorem exec_vsubs (h : VHdr) (ty : VType) (d : Opnd) (a : Opnd) (b : Opnd) : exec (.vsubs h ty d a b) z = execVsubs h ty d a b z := rfl
@[simp] theorem exec_vmin (h : VHdr) (ty : VType) (d : Opnd) (a : Opnd) (b : Opnd) : exec (.vmin h ty d a b) z = execVmin h ty d a b z := rfl
@[simp] theorem exec_vmax (h : VHdr) (ty : VType) (d : Opnd) (a : Opnd) (b : Opnd) : exec (.vmax h ty d a b) z = execVmax h ty d a b z := rfl
@[simp] theorem exec_vabs (h : VHdr) (ty : VType) (d : Opnd) (a : Opnd) : exec (.vabs h ty d a) z = execVabs h ty d a z := rfl
@[simp] theorem exec_vcmpeq (h : VHdr) (ty : VType) (d : KReg) (a : Opnd) (b : Opnd) : exec (.vcmpeq h ty d a b) z = execVcmpeq h ty d a b z := rfl
@[simp] theorem exec_vcmplt (h : VHdr) (ty : VType) (d : KReg) (a : Opnd) (b : Opnd) : exec (.vcmplt h ty d a b) z = execVcmplt h ty d a b z := rfl
@[simp] theorem exec_vcmple (h : VHdr) (ty : VType) (d : KReg) (a : Opnd) (b : Opnd) : exec (.vcmple h ty d a b) z = execVcmple h ty d a b z := rfl
@[simp] theorem exec_kand (v1 : Bool) (d : KReg) (a : KReg) (b : KReg) : exec (.kand v1 d a b) z = execKand v1 d a b z := rfl
@[simp] theorem exec_kor (v1 : Bool) (d : KReg) (a : KReg) (b : KReg) : exec (.kor v1 d a b) z = execKor v1 d a b z := rfl
@[simp] theorem exec_kxor (v1 : Bool) (d : KReg) (a : KReg) (b : KReg) : exec (.kxor v1 d a b) z = execKxor v1 d a b z := rfl
@[simp] theorem exec_kandn (v1 : Bool) (d : KReg) (a : KReg) (b : KReg) : exec (.kandn v1 d a b) z = execKandn v1 d a b z := rfl
@[simp] theorem exec_vshl (h : VHdr) (ty : VType) (d : Opnd) (a : Opnd) (b : Opnd) : exec (.vshl h ty d a b) z = execVshl h ty d a b z := rfl
@[simp] theorem exec_vshr (h : VHdr) (ty : VType) (d : Opnd) (a : Opnd) (b : Opnd) : exec (.vshr h ty d a b) z = execVshr h ty d a b z := rfl
@[simp] theorem exec_vsar (h : VHdr) (ty : VType) (d : Opnd) (a : Opnd) (b : Opnd) : exec (.vsar h ty d a b) z = execVsar h ty d a b z := rfl
@[simp] theorem exec_vand (h : VHdr) (ty : VType) (d : Opnd) (a : Opnd) (b : Opnd) : exec (.vand h ty d a b) z = execVand h ty d a b z := rfl
@[simp] theorem exec_vor (h : VHdr) (ty : VType) (d : Opnd) (a : Opnd) (b : Opnd) : exec (.vor h ty d a b) z = execVor h ty d a b z := rfl
@[simp] theorem exec_vxor (h : VHdr) (ty : VType) (d : Opnd) (a : Opnd) (b : Opnd) : exec (.vxor h ty d a b) z = execVxor h ty d a b z := rfl
@[simp] theorem exec_vmov (h : VHdr) (ty : VType) (d : Opnd) (a : Opnd) : exec (.vmov h ty d a) z = execVmov h ty d a z := rfl
@[simp] theorem exec_vbfly (h : VHdr) (ty : VType) (d : Opnd) (a : Opnd) (m : BitVec 15) : exec (.vbfly h ty d a m) z = execVbfly h ty d a m z := rfl
@[simp] theorem exec_vrot (h : VHdr) (ty : VType) (d : Opnd) (a : Opnd) (m : BitVec 15) : exec (.vrot h ty d a m) z = execVrot h ty d a m z := rfl
@[simp] theorem exec_vbcast (h : VHdr) (ty : VType) (d : Opnd) (a : Opnd) (m : BitVec 15) : exec (.vbcast h ty d a m) z = execVbcast h ty d a m z := rfl
@[simp] theorem exec_vperm (h : VHdr) (d : Opnd) (a : Opnd) (b : Opnd) : exec (.vperm h d a b) z = execVperm h d a b z := rfl
@[simp] theorem exec_vredsum (h : VHdr) (ty : VType) (d : Opnd) (a : Opnd) : exec (.vredsum h ty d a) z = execVredsum h ty d a z := rfl
@[simp] theorem exec_vredmax (h : VHdr) (ty : VType) (d : Opnd) (a : Opnd) : exec (.vredmax h ty d a) z = execVredmax h ty d a z := rfl
@[simp] theorem exec_vredmin (h : VHdr) (ty : VType) (d : Opnd) (a : Opnd) : exec (.vredmin h ty d a) z = execVredmin h ty d a z := rfl
@[simp] theorem exec_vredmask (h : VHdr) (d : Opnd) (a : Opnd) (b : Opnd) : exec (.vredmask h d a b) z = execVredmask h d a b z := rfl
@[simp] theorem exec_vcvt (h : VHdr) (d : Opnd) (a : Opnd) (c : CvtCtl) : exec (.vcvt h d a c) z = execVcvt h d a c z := rfl
@[simp] theorem exec_vmxq (h : VHdr) (d : OReg) (a : Opnd) (c : CvtCtl) : exec (.vmxq h d a c) z = execVmxq h d a c z := rfl
@[simp] theorem exec_vmxdq (h : VHdr) (d : Opnd) (a : OReg) (c : CvtCtl) : exec (.vmxdq h d a c) z = execVmxdq h d a c z := rfl
@[simp] theorem exec_vrand (h : VHdr) (d : Opnd) (a : Opnd) (b : Opnd) : exec (.vrand h d a b) z = execVrand h d a b z := rfl
@[simp] theorem exec_panePark (v1 : Bool) (pane : PaneNo) (tag : Fin 32) : exec (.panePark v1 pane tag) z = execPanePark v1 pane tag z := rfl
@[simp] theorem exec_paneUnpark (v1 : Bool) (pane : PaneNo) (tag : Fin 32) : exec (.paneUnpark v1 pane tag) z = execPaneUnpark v1 pane tag z := rfl
@[simp] theorem exec_vexp2 (h : VHdr) (ty : VType) (d : Opnd) (a : Opnd) : exec (.vexp2 h ty d a) z = execVexp2 h ty d a z := rfl
@[simp] theorem exec_vlog2 (h : VHdr) (ty : VType) (d : Opnd) (a : Opnd) : exec (.vlog2 h ty d a) z = execVlog2 h ty d a z := rfl
@[simp] theorem exec_vrcp (h : VHdr) (ty : VType) (d : Opnd) (a : Opnd) : exec (.vrcp h ty d a) z = execVrcp h ty d a z := rfl
@[simp] theorem exec_vrsqrt (h : VHdr) (ty : VType) (d : Opnd) (a : Opnd) : exec (.vrsqrt h ty d a) z = execVrsqrt h ty d a z := rfl
@[simp] theorem exec_vsqrt (h : VHdr) (ty : VType) (d : Opnd) (a : Opnd) : exec (.vsqrt h ty d a) z = execVsqrt h ty d a z := rfl
@[simp] theorem exec_vtanh (h : VHdr) (ty : VType) (d : Opnd) (a : Opnd) : exec (.vtanh h ty d a) z = execVtanh h ty d a z := rfl
@[simp] theorem exec_vsigmoid (h : VHdr) (ty : VType) (d : Opnd) (a : Opnd) : exec (.vsigmoid h ty d a) z = execVsigmoid h ty d a z := rfl
@[simp] theorem exec_vsin2pi (h : VHdr) (ty : VType) (d : Opnd) (a : Opnd) : exec (.vsin2pi h ty d a) z = execVsin2pi h ty d a z := rfl
@[simp] theorem exec_vcos2pi (h : VHdr) (ty : VType) (d : Opnd) (a : Opnd) : exec (.vcos2pi h ty d a) z = execVcos2pi h ty d a z := rfl
@[simp] theorem exec_add (p : PReg) (d : SReg) (a : SReg) (b : SReg) : exec (.add p d a b) z = execAdd p d a b z := rfl
@[simp] theorem exec_sub (p : PReg) (d : SReg) (a : SReg) (b : SReg) : exec (.sub p d a b) z = execSub p d a b z := rfl
@[simp] theorem exec_and (p : PReg) (d : SReg) (a : SReg) (b : SReg) : exec (.and p d a b) z = execAnd p d a b z := rfl
@[simp] theorem exec_or (p : PReg) (d : SReg) (a : SReg) (b : SReg) : exec (.or p d a b) z = execOr p d a b z := rfl
@[simp] theorem exec_xor (p : PReg) (d : SReg) (a : SReg) (b : SReg) : exec (.xor p d a b) z = execXor p d a b z := rfl
@[simp] theorem exec_andn (p : PReg) (d : SReg) (a : SReg) (b : SReg) : exec (.andn p d a b) z = execAndn p d a b z := rfl
@[simp] theorem exec_shl (p : PReg) (d : SReg) (a : SReg) (b : SReg) : exec (.shl p d a b) z = execShl p d a b z := rfl
@[simp] theorem exec_shr (p : PReg) (d : SReg) (a : SReg) (b : SReg) : exec (.shr p d a b) z = execShr p d a b z := rfl
@[simp] theorem exec_sar (p : PReg) (d : SReg) (a : SReg) (b : SReg) : exec (.sar p d a b) z = execSar p d a b z := rfl
@[simp] theorem exec_min (p : PReg) (d : SReg) (a : SReg) (b : SReg) : exec (.min p d a b) z = execMin p d a b z := rfl
@[simp] theorem exec_max (p : PReg) (d : SReg) (a : SReg) (b : SReg) : exec (.max p d a b) z = execMax p d a b z := rfl
@[simp] theorem exec_lea (p : PReg) (d : SReg) (a : SReg) (b : SReg) (sh : Fin 16) : exec (.lea p d a b sh) z = execLea p d a b sh z := rfl
@[simp] theorem exec_sel (p : PReg) (d : SReg) (a : SReg) (b : SReg) (q : PReg) : exec (.sel p d a b q) z = execSel p d a b q z := rfl
@[simp] theorem exec_mul (p : PReg) (d : SReg) (a : SReg) (b : SReg) : exec (.mul p d a b) z = execMul p d a b z := rfl
@[simp] theorem exec_mulh (p : PReg) (d : SReg) (a : SReg) (b : SReg) : exec (.mulh p d a b) z = execMulh p d a b z := rfl
@[simp] theorem exec_clz (p : PReg) (d : SReg) (a : SReg) : exec (.clz p d a) z = execClz p d a z := rfl
@[simp] theorem exec_popc (p : PReg) (d : SReg) (a : SReg) : exec (.popc p d a) z = execPopc p d a z := rfl
@[simp] theorem exec_addi (p : PReg) (d : SReg) (a : SReg) (imm : BitVec 25) : exec (.addi p d a imm) z = execAddi p d a imm z := rfl
@[simp] theorem exec_andi (p : PReg) (d : SReg) (a : SReg) (imm : BitVec 25) : exec (.andi p d a imm) z = execAndi p d a imm z := rfl
@[simp] theorem exec_ori (p : PReg) (d : SReg) (a : SReg) (imm : BitVec 25) : exec (.ori p d a imm) z = execOri p d a imm z := rfl
@[simp] theorem exec_xori (p : PReg) (d : SReg) (a : SReg) (imm : BitVec 25) : exec (.xori p d a imm) z = execXori p d a imm z := rfl
@[simp] theorem exec_shli (p : PReg) (d : SReg) (a : SReg) (n : Fin 64) : exec (.shli p d a n) z = execShli p d a n z := rfl
@[simp] theorem exec_shri (p : PReg) (d : SReg) (a : SReg) (n : Fin 64) : exec (.shri p d a n) z = execShri p d a n z := rfl
@[simp] theorem exec_sari (p : PReg) (d : SReg) (a : SReg) (n : Fin 64) : exec (.sari p d a n) z = execSari p d a n z := rfl
@[simp] theorem exec_li (p : PReg) (d : SReg) (imm : BitVec 25) : exec (.li p d imm) z = execLi p d imm z := rfl
@[simp] theorem exec_lcat (p : PReg) (d : SReg) (a : SReg) (imm : BitVec 25) : exec (.lcat p d a imm) z = execLcat p d a imm z := rfl
@[simp] theorem exec_cmp (p : PReg) (c : Cond) (d : PReg) (a : SReg) (b : SReg) : exec (.cmp p c d a b) z = execCmp p c d a b z := rfl
@[simp] theorem exec_cmpiEq (p : PReg) (d : PReg) (a : SReg) (imm : BitVec 25) : exec (.cmpiEq p d a imm) z = execCmpiEq p d a imm z := rfl
@[simp] theorem exec_cmpiNe (p : PReg) (d : PReg) (a : SReg) (imm : BitVec 25) : exec (.cmpiNe p d a imm) z = execCmpiNe p d a imm z := rfl
@[simp] theorem exec_cmpiLt (p : PReg) (d : PReg) (a : SReg) (imm : BitVec 25) : exec (.cmpiLt p d a imm) z = execCmpiLt p d a imm z := rfl
@[simp] theorem exec_cmpiGe (p : PReg) (d : PReg) (a : SReg) (imm : BitVec 25) : exec (.cmpiGe p d a imm) z = execCmpiGe p d a imm z := rfl
@[simp] theorem exec_cmpiLtu (p : PReg) (d : PReg) (a : SReg) (imm : BitVec 25) : exec (.cmpiLtu p d a imm) z = execCmpiLtu p d a imm z := rfl
@[simp] theorem exec_cmpiGeu (p : PReg) (d : PReg) (a : SReg) (imm : BitVec 25) : exec (.cmpiGeu p d a imm) z = execCmpiGeu p d a imm z := rfl
@[simp] theorem exec_pand (p : PReg) (d : PReg) (a : PReg) (b : PReg) : exec (.pand p d a b) z = execPand p d a b z := rfl
@[simp] theorem exec_por (p : PReg) (d : PReg) (a : PReg) (b : PReg) : exec (.por p d a b) z = execPor p d a b z := rfl
@[simp] theorem exec_pxor (p : PReg) (d : PReg) (a : PReg) (b : PReg) : exec (.pxor p d a b) z = execPxor p d a b z := rfl
@[simp] theorem exec_bfx (p : PReg) (d : SReg) (a : SReg) (pos : Fin 64) (len1 : Fin 64) : exec (.bfx p d a pos len1) z = execBfx p d a pos len1 z := rfl
@[simp] theorem exec_bfxu (p : PReg) (d : SReg) (a : SReg) (pos : Fin 64) (len1 : Fin 64) : exec (.bfxu p d a pos len1) z = execBfxu p d a pos len1 z := rfl
@[simp] theorem exec_bfi (p : PReg) (d : SReg) (a : SReg) (b : SReg) (pos : Fin 64) (len1 : Fin 64) : exec (.bfi p d a b pos len1) z = execBfi p d a b pos len1 z := rfl
@[simp] theorem exec_kput (p : PReg) (d : KReg) (a : SReg) : exec (.kput p d a) z = execKput p d a z := rfl
@[simp] theorem exec_kget (p : PReg) (d : SReg) (a : KReg) : exec (.kget p d a) z = execKget p d a z := rfl
@[simp] theorem exec_oget (p : PReg) (e : ESize) (d : SReg) (a : OReg) (b : SReg) : exec (.oget p e d a b) z = execOget p e d a b z := rfl
@[simp] theorem exec_oput (p : PReg) (e : ESize) (d : OReg) (a : SReg) (b : SReg) : exec (.oput p e d a b) z = execOput p e d a b z := rfl
@[simp] theorem exec_br (p : PReg) (off : BitVec 25) : exec (.br p off) z = execBr p off z := rfl
@[simp] theorem exec_call (p : PReg) (d : SReg) (off : BitVec 25) : exec (.call p d off) z = execCall p d off z := rfl
@[simp] theorem exec_jmp (p : PReg) (a : SReg) : exec (.jmp p a) z = execJmp p a z := rfl
@[simp] theorem exec_callr (p : PReg) (d : SReg) (a : SReg) : exec (.callr p d a) z = execCallr p d a z := rfl
@[simp] theorem exec_loop (p : PReg) (a : SReg) (off : BitVec 25) : exec (.loop p a off) z = execLoop p a off z := rfl
@[simp] theorem exec_loopi (p : PReg) (n : BitVec 12) (off : BitVec 25) : exec (.loopi p n off) z = execLoopi p n off z := rfl
@[simp] theorem exec_waitc (p : PReg) (t0 : BitVec 8) (t1 : BitVec 8) (t2 : BitVec 8) (t3 : BitVec 8) : exec (.waitc p t0 t1 t2 t3) z = execWaitc p t0 t1 t2 t3 z := rfl
@[simp] theorem exec_csrr (p : PReg) (n : BitVec 12) (d : SReg) : exec (.csrr p n d) z = execCsrr p n d z := rfl
@[simp] theorem exec_csrw (p : PReg) (n : BitVec 12) (a : SReg) : exec (.csrw p n a) z = execCsrw p n a z := rfl
@[simp] theorem exec_csrs (p : PReg) (n : BitVec 12) (a : SReg) (d : SReg) : exec (.csrs p n a d) z = execCsrs p n a d z := rfl
@[simp] theorem exec_csrc (p : PReg) (n : BitVec 12) (a : SReg) (d : SReg) : exec (.csrc p n a d) z = execCsrc p n a d z := rfl
@[simp] theorem exec_bar (p : PReg) (sc : Scope) : exec (.bar p sc) z = execBar p sc z := rfl
@[simp] theorem exec_brk (p : PReg) (imm : BitVec 16) : exec (.brk p imm) z = execBrk p imm z := rfl
@[simp] theorem exec_wheelEnd (p : PReg) : exec (.wheelEnd p) z = execWheelEnd p z := rfl
@[simp] theorem exec_wheelSpawn (p : PReg) (a : SReg) : exec (.wheelSpawn p a) z = execWheelSpawn p a z := rfl
@[simp] theorem exec_wheelSpawnCore (p : PReg) (a : SReg) : exec (.wheelSpawnCore p a) z = execWheelSpawnCore p a z := rfl
@[simp] theorem exec_semSig (p : PReg) (a : SReg) (n : BitVec 16) : exec (.semSig p a n) z = execSemSig p a n z := rfl
@[simp] theorem exec_semWait (p : PReg) (a : SReg) (n : BitVec 16) : exec (.semWait p a n) z = execSemWait p a n z := rfl
@[simp] theorem exec_semTest (p : PReg) (d : SReg) (a : SReg) : exec (.semTest p d a) z = execSemTest p d a z := rfl
@[simp] theorem exec_tret (p : PReg) : exec (.tret p) z = execTret p z := rfl
@[simp] theorem exec_xlatInvRange (p : PReg) (ni : Fin 64) : exec (.xlatInvRange p ni) z = execXlatInvRange p ni z := rfl
@[simp] theorem exec_xlatInvPage (p : PReg) (a : SReg) : exec (.xlatInvPage p a) z = execXlatInvPage p a z := rfl
@[simp] theorem exec_xlatInvVat (p : PReg) : exec (.xlatInvVat p) z = execXlatInvVat p z := rfl
@[simp] theorem exec_ssave (p : PReg) (a : SReg) : exec (.ssave p a) z = execSsave p a z := rfl
@[simp] theorem exec_srest (p : PReg) (a : SReg) : exec (.srest p a) z = execSrest p a z := rfl
@[simp] theorem exec_ldb (p : PReg) (d : SReg) (a : SReg) (off : BitVec 14) : exec (.ldb p d a off) z = execLdb p d a off z := rfl
@[simp] theorem exec_ldbu (p : PReg) (d : SReg) (a : SReg) (off : BitVec 14) : exec (.ldbu p d a off) z = execLdbu p d a off z := rfl
@[simp] theorem exec_ldh (p : PReg) (d : SReg) (a : SReg) (off : BitVec 14) : exec (.ldh p d a off) z = execLdh p d a off z := rfl
@[simp] theorem exec_ldhu (p : PReg) (d : SReg) (a : SReg) (off : BitVec 14) : exec (.ldhu p d a off) z = execLdhu p d a off z := rfl
@[simp] theorem exec_ldw (p : PReg) (d : SReg) (a : SReg) (off : BitVec 14) : exec (.ldw p d a off) z = execLdw p d a off z := rfl
@[simp] theorem exec_ldwu (p : PReg) (d : SReg) (a : SReg) (off : BitVec 14) : exec (.ldwu p d a off) z = execLdwu p d a off z := rfl
@[simp] theorem exec_ldd (p : PReg) (w8 : Bool) (d : SReg) (a : SReg) (off : BitVec 14) : exec (.ldd p w8 d a off) z = execLdd p w8 d a off z := rfl
@[simp] theorem exec_stb (p : PReg) (d : SReg) (a : SReg) (off : BitVec 14) : exec (.stb p d a off) z = execStb p d a off z := rfl
@[simp] theorem exec_sth (p : PReg) (d : SReg) (a : SReg) (off : BitVec 14) : exec (.sth p d a off) z = execSth p d a off z := rfl
@[simp] theorem exec_stw (p : PReg) (d : SReg) (a : SReg) (off : BitVec 14) : exec (.stw p d a off) z = execStw p d a off z := rfl
@[simp] theorem exec_std (p : PReg) (w8 : Bool) (d : SReg) (a : SReg) (off : BitVec 14) : exec (.std p w8 d a off) z = execStd p w8 d a off z := rfl
@[simp] theorem exec_ldv (p : PReg) (w : VWidth) (at_ : Atomicity) (d : OReg) (a : SReg) (off : BitVec 14) : exec (.ldv p w at_ d a off) z = execLdv p w at_ d a off z := rfl
@[simp] theorem exec_stv (p : PReg) (w : VWidth) (at_ : Atomicity) (d : OReg) (a : SReg) (off : BitVec 14) : exec (.stv p w at_ d a off) z = execStv p w at_ d a off z := rfl
@[simp] theorem exec_ldp (p : PReg) (w : VWidth) (at_ : Atomicity) (pane : PaneNo) (row : Fin 64) (a : SReg) (off : BitVec 14) : exec (.ldp p w at_ pane row a off) z = execLdp p w at_ pane row a off z := rfl
@[simp] theorem exec_stp (p : PReg) (w : VWidth) (at_ : Atomicity) (pane : PaneNo) (row : Fin 64) (a : SReg) (off : BitVec 14) : exec (.stp p w at_ pane row a off) z = execStp p w at_ pane row a off z := rfl
@[simp] theorem exec_ldmx (p : PReg) (el8 : Bool) (w : VWidth) (d : OReg) (a : SReg) (off : BitVec 14) : exec (.ldmx p el8 w d a off) z = execLdmx p el8 w d a off z := rfl
@[simp] theorem exec_stmx (p : PReg) (el8 : Bool) (w : VWidth) (d : OReg) (a : SReg) (off : BitVec 14) : exec (.stmx p el8 w d a off) z = execStmx p el8 w d a off z := rfl
@[simp] theorem exec_pref (p : PReg) (a : SReg) (off : BitVec 14) : exec (.pref p a off) z = execPref p a off z := rfl
@[simp] theorem exec_clInv (p : PReg) (a : SReg) (off : BitVec 14) : exec (.clInv p a off) z = execClInv p a off z := rfl
@[simp] theorem exec_clZero (p : PReg) (a : SReg) (off : BitVec 14) : exec (.clZero p a off) z = execClZero p a off z := rfl
@[simp] theorem exec_mark : exec .mark z = execMark z := rfl
@[simp] theorem exec_fence (p : PReg) (sc : Scope) (o : MemOrd) : exec (.fence p sc o) z = execFence p sc o z := rfl
@[simp] theorem exec_amoAdd (p : PReg) (sc : Scope) (o : MemOrd) (w8 : Bool) (d : SReg) (a : SReg) (b : SReg) : exec (.amoAdd p sc o w8 d a b) z = execAmoAdd p sc o w8 d a b z := rfl
@[simp] theorem exec_amoSwap (p : PReg) (sc : Scope) (o : MemOrd) (w8 : Bool) (d : SReg) (a : SReg) (b : SReg) : exec (.amoSwap p sc o w8 d a b) z = execAmoSwap p sc o w8 d a b z := rfl
@[simp] theorem exec_amoCas (p : PReg) (sc : Scope) (o : MemOrd) (failAcq : Bool) (w8 : Bool) (d : SReg) (a : SReg) (b : SReg) : exec (.amoCas p sc o failAcq w8 d a b) z = execAmoCas p sc o failAcq w8 d a b z := rfl
@[simp] theorem exec_amoAnd (p : PReg) (sc : Scope) (o : MemOrd) (w8 : Bool) (d : SReg) (a : SReg) (b : SReg) : exec (.amoAnd p sc o w8 d a b) z = execAmoAnd p sc o w8 d a b z := rfl
@[simp] theorem exec_amoOr (p : PReg) (sc : Scope) (o : MemOrd) (w8 : Bool) (d : SReg) (a : SReg) (b : SReg) : exec (.amoOr p sc o w8 d a b) z = execAmoOr p sc o w8 d a b z := rfl
@[simp] theorem exec_amoXor (p : PReg) (sc : Scope) (o : MemOrd) (w8 : Bool) (d : SReg) (a : SReg) (b : SReg) : exec (.amoXor p sc o w8 d a b) z = execAmoXor p sc o w8 d a b z := rfl
@[simp] theorem exec_amoMax (p : PReg) (sc : Scope) (o : MemOrd) (w8 : Bool) (d : SReg) (a : SReg) (b : SReg) : exec (.amoMax p sc o w8 d a b) z = execAmoMax p sc o w8 d a b z := rfl
@[simp] theorem exec_amoMin (p : PReg) (sc : Scope) (o : MemOrd) (w8 : Bool) (d : SReg) (a : SReg) (b : SReg) : exec (.amoMin p sc o w8 d a b) z = execAmoMin p sc o w8 d a b z := rfl
@[simp] theorem exec_fld (p : PReg) (w8 : Bool) (d : SReg) (a : SReg) (off : BitVec 14) : exec (.fld p w8 d a off) z = execFld p w8 d a off z := rfl
@[simp] theorem exec_fst (p : PReg) (w8 : Bool) (d : SReg) (a : SReg) (off : BitVec 14) : exec (.fst p w8 d a off) z = execFst p w8 d a off z := rfl
@[simp] theorem exec_ffenceFlag (p : PReg) (w8 : Bool) (d : SReg) (a : SReg) (off : BitVec 14) : exec (.ffenceFlag p w8 d a off) z = execFfenceFlag p w8 d a off z := rfl
@[simp] theorem exec_famoAdd (p : PReg) (o : MemOrd) (w8 : Bool) (d : SReg) (a : SReg) (b : SReg) : exec (.famoAdd p o w8 d a b) z = execFamoAdd p o w8 d a b z := rfl
@[simp] theorem exec_famoSwap (p : PReg) (o : MemOrd) (w8 : Bool) (d : SReg) (a : SReg) (b : SReg) : exec (.famoSwap p o w8 d a b) z = execFamoSwap p o w8 d a b z := rfl
@[simp] theorem exec_famoCas (p : PReg) (o : MemOrd) (failAcq : Bool) (w8 : Bool) (d : SReg) (a : SReg) (b : SReg) : exec (.famoCas p o failAcq w8 d a b) z = execFamoCas p o failAcq w8 d a b z := rfl
@[simp] theorem exec_famoAnd (p : PReg) (o : MemOrd) (w8 : Bool) (d : SReg) (a : SReg) (b : SReg) : exec (.famoAnd p o w8 d a b) z = execFamoAnd p o w8 d a b z := rfl
@[simp] theorem exec_famoOr (p : PReg) (o : MemOrd) (w8 : Bool) (d : SReg) (a : SReg) (b : SReg) : exec (.famoOr p o w8 d a b) z = execFamoOr p o w8 d a b z := rfl
@[simp] theorem exec_pressLease (p : PReg) : exec (.pressLease p) z = execPressLease p z := rfl
@[simp] theorem exec_pressFree (p : PReg) : exec (.pressFree p) z = execPressFree p z := rfl
@[simp] theorem exec_pressClaim (p : PReg) (bank : Bool) : exec (.pressClaim p bank) z = execPressClaim p bank z := rfl
@[simp] theorem exec_pressRelease (p : PReg) (bank : Bool) : exec (.pressRelease p bank) z = execPressRelease p bank z := rfl
@[simp] theorem exec_pressStatNorth (p : PReg) (c : EcHdr) (b : SReg) (snap : Bool) : exec (.pressStatNorth p c b snap) z = execPressStatNorth p c b snap z := rfl
@[simp] theorem exec_pressStatWest (p : PReg) (c : EcHdr) (b : SReg) (snap : Bool) : exec (.pressStatWest p c b snap) z = execPressStatWest p c b snap z := rfl
@[simp] theorem exec_pressRun (p : PReg) (c : EcHdr) (b : SReg) (bank : Bool) (sparse : Bool) (snap : Bool) : exec (.pressRun p c b bank sparse snap) z = execPressRun p c b bank sparse snap z := rfl
@[simp] theorem exec_pressDrain (p : PReg) (c : EcHdr) (b : SReg) (bank : Bool) (acc : Bool) : exec (.pressDrain p c b bank acc) z = execPressDrain p c b bank acc z := rfl
@[simp] theorem exec_pressZero (p : PReg) (c : EcHdr) (bank : Bool) : exec (.pressZero p c bank) z = execPressZero p c bank z := rfl
@[simp] theorem exec_copy (p : PReg) (c : EcHdr) (snap : Bool) : exec (.copy p c snap) z = execCopy p c snap z := rfl
@[simp] theorem exec_copyHoop (p : PReg) (c : EcHdr) (hoop : Fin 64) (snap : Bool) : exec (.copyHoop p c hoop snap) z = execCopyHoop p c hoop snap z := rfl
@[simp] theorem exec_copyBb (p : PReg) (c : EcHdr) (bb : Fin 64) (snap : Bool) : exec (.copyBb p c bb snap) z = execCopyBb p c bb snap z := rfl
@[simp] theorem exec_coll (p : PReg) (c : EcHdr) : exec (.coll p c) z = execColl p c z := rfl
@[simp] theorem exec_caveUpd (p : PReg) (c : EcHdr) (b : SReg) : exec (.caveUpd p c b) z = execCaveUpd p c b z := rfl
@[simp] theorem exec_embWait (p : PReg) (d : SReg) (a : SReg) : exec (.embWait p d a) z = execEmbWait p d a z := rfl
@[simp] theorem exec_embWaitTrap (p : PReg) (d : SReg) (a : SReg) : exec (.embWaitTrap p d a) z = execEmbWaitTrap p d a z := rfl
@[simp] theorem exec_embTest (p : PReg) (d : SReg) (a : SReg) : exec (.embTest p d a) z = execEmbTest p d a z := rfl
@[simp] theorem exec_embCancel (p : PReg) (d : SReg) (a : SReg) : exec (.embCancel p d a) z = execEmbCancel p d a z := rfl
@[simp] theorem exec_embDetach (p : PReg) (d : SReg) (a : SReg) : exec (.embDetach p d a) z = execEmbDetach p d a z := rfl
@[simp] theorem exec_embAdopt (p : PReg) (d : SReg) (name : BitVec 16) : exec (.embAdopt p d name) z = execEmbAdopt p d name z := rfl
@[simp] theorem exec_embPrio (p : PReg) (d : SReg) (a : SReg) (n : Fin 4) : exec (.embPrio p d a n) z = execEmbPrio p d a n z := rfl
@[simp] theorem exec_embInfo (p : PReg) (d : SReg) (a : SReg) : exec (.embInfo p d a) z = execEmbInfo p d a z := rfl
@[simp] theorem exec_embAfter (p : PReg) (d : SReg) (a : SReg) : exec (.embAfter p d a) z = execEmbAfter p d a z := rfl
@[simp] theorem exec_hoopInit (p : PReg) (hoop : Fin 64) (a : SReg) (b : SReg) : exec (.hoopInit p hoop a b) z = execHoopInit p hoop a b z := rfl
@[simp] theorem exec_hoopAwait (p : PReg) (d : SReg) (hoop : Fin 64) : exec (.hoopAwait p d hoop) z = execHoopAwait p d hoop z := rfl
@[simp] theorem exec_hoopRel (p : PReg) (hoop : Fin 64) : exec (.hoopRel p hoop) z = execHoopRel p hoop z := rfl
@[simp] theorem exec_hoopQuery (p : PReg) (d : SReg) (hoop : Fin 64) : exec (.hoopQuery p d hoop) z = execHoopQuery p d hoop z := rfl
@[simp] theorem exec_bbExpect (p : PReg) (d : SReg) (bb : Fin 64) (a : SReg) : exec (.bbExpect p d bb a) z = execBbExpect p d bb a z := rfl
@[simp] theorem exec_bbArrive (p : PReg) (bb : Fin 64) (a : SReg) : exec (.bbArrive p bb a) z = execBbArrive p bb a z := rfl
@[simp] theorem exec_bbWait (p : PReg) (bb : Fin 64) (a : SReg) : exec (.bbWait p bb a) z = execBbWait p bb a z := rfl
@[simp] theorem exec_bbQuery (p : PReg) (d : SReg) (bb : Fin 64) : exec (.bbQuery p d bb) z = execBbQuery p d bb z := rfl
@[simp] theorem exec_moldGet (p : PReg) (d : SReg) (a : SReg) : exec (.moldGet p d a) z = execMoldGet p d a z := rfl
@[simp] theorem exec_moldPass (p : PReg) (a : SReg) : exec (.moldPass p a) z = execMoldPass p a z := rfl
@[simp] theorem exec_moldFree (p : PReg) (a : SReg) : exec (.moldFree p a) z = execMoldFree p a z := rfl
@[simp] theorem exec_bundleIssue (core : Nat) : exec (.bundleIssue core) z = execBundleIssue core z := rfl
@[simp] theorem exec_contextSelect (core : Nat) : exec (.contextSelect core) z = execContextSelect core z := rfl
@[simp] theorem exec_resultDelivery (cx : Nat) : exec (.resultDelivery cx) z = execResultDelivery cx z := rfl
@[simp] theorem exec_fmtWriteEffect (cx : Nat) : exec (.fmtWriteEffect cx) z = execFmtWriteEffect cx z := rfl
@[simp] theorem exec_wheelEnded (cx : Nat) : exec (.wheelEnded cx) z = execWheelEnded cx z := rfl
@[simp] theorem exec_xlatInvComplete (cx : Nat) : exec (.xlatInvComplete cx) z = execXlatInvComplete cx z := rfl
@[simp] theorem exec_loadComplete (cx : Nat) (ret : Nat) (sel : Nat) (hit : Bool) : exec (.loadComplete cx ret sel hit) z = execLoadComplete cx ret sel hit z := rfl
@[simp] theorem exec_storePerformed (cx : Nat) (sel : Nat) : exec (.storePerformed cx sel) z = execStorePerformed cx sel z := rfl
@[simp] theorem exec_atomicPerformed (cx : Nat) : exec (.atomicPerformed cx) z = execAtomicPerformed cx z := rfl
@[simp] theorem exec_markPerformed (cx : Nat) : exec (.markPerformed cx) z = execMarkPerformed cx z := rfl
@[simp] theorem exec_translationWalk (unit : Nat) (vat : Nat) (va : Nat) : exec (.translationWalk unit vat va) z = execTranslationWalk unit vat va z := rfl
@[simp] theorem exec_leaseGrant (quad : Nat) : exec (.leaseGrant quad) z = execLeaseGrant quad z := rfl
@[simp] theorem exec_bankDeferredRelease (quad : Nat) (bank : Bool) : exec (.bankDeferredRelease quad bank) z = execBankDeferredRelease quad bank z := rfl
@[simp] theorem exec_pressCommandStart (quad : Nat) (core : Nat) (slot : Nat) : exec (.pressCommandStart quad core slot) z = execPressCommandStart quad core slot z := rfl
@[simp] theorem exec_multicastTransfer (quad : Nat) : exec (.multicastTransfer quad) z = execMulticastTransfer quad z := rfl
@[simp] theorem exec_pressBoundary (quad : Nat × Part) : exec (.pressBoundary quad) z = execPressBoundary quad z := rfl
@[simp] theorem exec_copyStart (quad : Nat) (core : Nat) (slot : Nat) : exec (.copyStart quad core slot) z = execCopyStart quad core slot z := rfl
@[simp] theorem exec_copyChunk (quad : Nat) (core : Nat) (slot : Nat × Part) : exec (.copyChunk quad core slot) z = execCopyChunk quad core slot z := rfl
@[simp] theorem exec_codecBlock (quad : Nat) (core : Nat) (slot : Nat × Part) : exec (.codecBlock quad core slot) z = execCodecBlock quad core slot z := rfl
@[simp] theorem exec_collectiveBegin (ember : Nat) : exec (.collectiveBegin ember) z = execCollectiveBegin ember z := rfl
@[simp] theorem exec_wheyPieceArrival (ember : Nat × Part) (sender : Nat) (block : Nat) (ok : Bool) : exec (.wheyPieceArrival ember sender block ok) z = execWheyPieceArrival ember sender block ok z := rfl
@[simp] theorem exec_wheyDeadline (ember : Nat × Part) : exec (.wheyDeadline ember) z = execWheyDeadline ember z := rfl
@[simp] theorem exec_collectiveStep (ember : Nat × Part) (sender : Nat) (block : Nat) : exec (.collectiveStep ember sender block) z = execCollectiveStep ember sender block z := rfl
@[simp] theorem exec_collectiveDone (ember : Nat × Part) : exec (.collectiveDone ember) z = execCollectiveDone ember z := rfl
@[simp] theorem exec_caveUpdateStep (ember : Nat) (sel : Nat × Option Nat) : exec (.caveUpdateStep ember sel) z = execCaveUpdateStep ember sel z := rfl
@[simp] theorem exec_hoopSlotEmpty (quad : Nat) (hoop : Nat) (slot : Nat) : exec (.hoopSlotEmpty quad hoop slot) z = execHoopSlotEmpty quad hoop slot z := rfl
@[simp] theorem exec_bbArriveApply (quad : Nat) (bb : Nat) : exec (.bbArriveApply quad bb) z = execBbArriveApply quad bb z := rfl
@[simp] theorem exec_ringEntryConsume (die : Nat) (queue : Nat) : exec (.ringEntryConsume die queue) z = execRingEntryConsume die queue z := rfl
@[simp] theorem exec_vatReady (vat : Nat) : exec (.vatReady vat) z = execVatReady vat z := rfl
@[simp] theorem exec_wheelPlace (vat : Nat) (spawned : Bool) (places : List (Nat × Nat)) (granules : List Nat) (dicts : List Nat) : exec (.wheelPlace vat spawned places granules dicts) z = execWheelPlace vat spawned places granules dicts z := rfl
@[simp] theorem exec_indexRangeGrant (vat : Nat) (die : Nat) (count : Nat) : exec (.indexRangeGrant vat die count) z = execIndexRangeGrant vat die count z := rfl
@[simp] theorem exec_preload (quad : Nat) (vat : Nat) : exec (.preload quad vat) z = execPreload quad vat z := rfl
@[simp] theorem exec_preloadCommit (quad : Nat) (vat : Nat) : exec (.preloadCommit quad vat) z = execPreloadCommit quad vat z := rfl
@[simp] theorem exec_vatComplete (vat : Nat) : exec (.vatComplete vat) z = execVatComplete vat z := rfl
@[simp] theorem exec_energyUpdate (vat : Nat) (amount : Nat) : exec (.energyUpdate vat amount) z = execEnergyUpdate vat amount z := rfl
@[simp] theorem exec_starvationPreempt (vat : Nat) (victim : Nat) : exec (.starvationPreempt vat victim) z = execStarvationPreempt vat victim z := rfl
@[simp] theorem exec_corePowerGate (core : Nat) : exec (.corePowerGate core) z = execCorePowerGate core z := rfl
@[simp] theorem exec_coreWake (core : Nat) : exec (.coreWake core) z = execCoreWake core z := rfl
@[simp] theorem exec_contextHalt (cx : Nat) : exec (.contextHalt cx) z = execContextHalt cx z := rfl
@[simp] theorem exec_vatSave (vat : Nat) (core : Nat) : exec (.vatSave vat core) z = execVatSave vat core z := rfl
@[simp] theorem exec_vatResume (vat : Nat) (oldCore : Nat) (newCore : Nat) : exec (.vatResume vat oldCore newCore) z = execVatResume vat oldCore newCore z := rfl
@[simp] theorem exec_farRequestReceive (req : Nat) : exec (.farRequestReceive req) z = execFarRequestReceive req z := rfl
@[simp] theorem exec_farResponse (req : Nat) : exec (.farResponse req) z = execFarResponse req z := rfl
@[simp] theorem exec_fstAck (req : Nat) : exec (.fstAck req) z = execFstAck req z := rfl
@[simp] theorem exec_farTimeout (req : Nat) : exec (.farTimeout req) z = execFarTimeout req z := rfl
@[simp] theorem exec_linkFlitReceive (die : Nat) (other : Nat) (lane : Nat) (ok : Bool) : exec (.linkFlitReceive die other lane ok) z = execLinkFlitReceive die other lane ok z := rfl
@[simp] theorem exec_planeLinkBringup (die : Nat) (port : Nat) (ok : Bool) : exec (.planeLinkBringup die port ok) z = execPlaneLinkBringup die port ok z := rfl
@[simp] theorem exec_planePortDown (die : Nat) (port : Nat) : exec (.planePortDown die port) z = execPlanePortDown die port z := rfl
@[simp] theorem exec_hostPortSelect (md : Nat) (up0 : Bool) (up4 : Bool) : exec (.hostPortSelect md up0 up4) z = execHostPortSelect md up0 up4 z := rfl
@[simp] theorem exec_hostPortFailover (md : Nat) : exec (.hostPortFailover md) z = execHostPortFailover md z := rfl
@[simp] theorem exec_submit (md : Nat) (sq : Nat) (die : Nat) (queue : Nat) (pa : Nat) : exec (.submit md sq die queue pa) z = execSubmit md sq die queue pa z := rfl
@[simp] theorem exec_cancel (md : Nat) (sq : Nat) (vat : Nat) : exec (.cancel md sq vat) z = execCancel md sq vat z := rfl
@[simp] theorem exec_preempt (md : Nat) (sq : Nat) (vat : Nat) (cores : List Nat) : exec (.preempt md sq vat cores) z = execPreempt md sq vat cores z := rfl
@[simp] theorem exec_rerun (md : Nat) (sq : Nat) (vat : Nat) : exec (.rerun md sq vat) z = execRerun md sq vat z := rfl
@[simp] theorem exec_resident (md : Nat) (sq : Nat) (vat : Nat) (page : Nat) : exec (.resident md sq vat page) z = execResident md sq vat page z := rfl
@[simp] theorem exec_bind (md : Nat) (sq : Nat) (die : Nat) (domain : Nat) (vat : Nat) (table : Nat) : exec (.bind md sq die domain vat table) z = execBind md sq die domain vat table z := rfl
@[simp] theorem exec_unbind (md : Nat) (sq : Nat) (die : Nat) (domain : Nat) : exec (.unbind md sq die domain) z = execUnbind md sq die domain z := rfl
@[simp] theorem exec_dmaWrite (md : Nat) (sq : Nat) (pa : Nat) (bytes : List Byte) : exec (.dmaWrite md sq pa bytes) z = execDmaWrite md sq pa bytes z := rfl
@[simp] theorem exec_dmaRead (md : Nat) (sq : Nat) (pa : Nat) (len : Nat) : exec (.dmaRead md sq pa len) z = execDmaRead md sq pa len z := rfl
@[simp] theorem exec_mgmtRead (md : Nat) (sq : Nat) (die : Nat) (reg : Nat) : exec (.mgmtRead md sq die reg) z = execMgmtRead md sq die reg z := rfl
@[simp] theorem exec_mgmtWrite (md : Nat) (sq : Nat) (die : Nat) (reg : Nat) (val : Word) : exec (.mgmtWrite md sq die reg val) z = execMgmtWrite md sq die reg val z := rfl
@[simp] theorem exec_malformedMessage (md : Nat) (sq : Nat) (ty : Nat) : exec (.malformedMessage md sq ty) z = execMalformedMessage md sq ty z := rfl
@[simp] theorem exec_heventRead (die : Nat) : exec (.heventRead die) z = execHeventRead die z := rfl
@[simp] theorem exec_secpolWrite (md : Nat) (val : Word) : exec (.secpolWrite md val) z = execSecpolWrite md val z := rfl
@[simp] theorem exec_modcfgWrite (md : Nat) (val : Word) : exec (.modcfgWrite md val) z = execModcfgWrite md val z := rfl
@[simp] theorem exec_residencyCommand (die : Nat) (page : Nat) : exec (.residencyCommand die page) z = execResidencyCommand die page z := rfl
@[simp] theorem exec_drainIsolateQuad (die : Nat) (quad : Nat) : exec (.drainIsolateQuad die quad) z = execDrainIsolateQuad die quad z := rfl
@[simp] theorem exec_returnQuad (die : Nat) (quad : Nat) : exec (.returnQuad die quad) z = execReturnQuad die quad z := rfl
@[simp] theorem exec_retireCore (die : Nat) (core : Nat) : exec (.retireCore die core) z = execRetireCore die core z := rfl
@[simp] theorem exec_drainIsolateDie (die : Nat) : exec (.drainIsolateDie die) z = execDrainIsolateDie die z := rfl
@[simp] theorem exec_returnDie (die : Nat) : exec (.returnDie die) z = execReturnDie die z := rfl
@[simp] theorem exec_recalibrateLink (die : Nat) (other : Nat) : exec (.recalibrateLink die other) z = execRecalibrateLink die other z := rfl
@[simp] theorem exec_recalibrateHbm (die : Nat) (stack : Nat) : exec (.recalibrateHbm die stack) z = execRecalibrateHbm die stack z := rfl
@[simp] theorem exec_recalibrationDone (die : Nat) : exec (.recalibrationDone die) z = execRecalibrationDone die z := rfl
@[simp] theorem exec_reinitSemaphore (die : Nat) (sem : Nat) : exec (.reinitSemaphore die sem) z = execReinitSemaphore die sem z := rfl
@[simp] theorem exec_clearSaturated (die : Nat) (sem : Nat) : exec (.clearSaturated die sem) z = execClearSaturated die sem z := rfl
@[simp] theorem exec_loadFirmware (die : Nat) : exec (.loadFirmware die) z = execLoadFirmware die z := rfl
@[simp] theorem exec_raiseFwsvn (die : Nat) : exec (.raiseFwsvn die) z = execRaiseFwsvn die z := rfl
@[simp] theorem exec_correctedError (die : Nat) (kind : Nat) (res : Nat) : exec (.correctedError die kind res) z = execCorrectedError die kind res z := rfl
@[simp] theorem exec_uncorrectableError (where_ : UeSite) : exec (.uncorrectableError where_) z = execUncorrectableError where_ z := rfl
@[simp] theorem exec_patrolScrub (where_ : UeSite) (bad : Bool) : exec (.patrolScrub where_ bad) z = execPatrolScrub where_ bad z := rfl
@[simp] theorem exec_parityError (core : Nat) (again : Bool) : exec (.parityError core again) z = execParityError core again z := rfl
@[simp] theorem exec_dieFailure (dies : List Nat) : exec (.dieFailure dies) z = execDieFailure dies z := rfl
@[simp] theorem exec_tamperMesh (md : Nat) : exec (.tamperMesh md) z = execTamperMesh md z := rfl
@[simp] theorem exec_voltageGlitch (md : Nat) : exec (.voltageGlitch md) z = execVoltageGlitch md z := rfl
@[simp] theorem exec_clockGlitch (md : Nat) : exec (.clockGlitch md) z = execClockGlitch md z := rfl
@[simp] theorem exec_thermalTrip (die : Nat) : exec (.thermalTrip die) z = execThermalTrip die z := rfl
@[simp] theorem exec_throttle (die : Nat) (power : Bool) (thermal : Bool) (cycles : Nat) : exec (.throttle die power thermal cycles) z = execThrottle die power thermal cycles z := rfl
@[simp] theorem exec_moduleReset (md : Nat) : exec (.moduleReset md) z = execModuleReset md z := rfl
@[simp] theorem exec_selfTestDone (die : Nat) (faults : List UeSite) : exec (.selfTestDone die faults) z = execSelfTestDone die faults z := rfl
@[simp] theorem exec_hbmTrainingDone (die : Nat) (failed : Option (Fin 6)) : exec (.hbmTrainingDone die failed) z = execHbmTrainingDone die failed z := rfl

end

@[simp] theorem slotOp_vadd (h : VHdr) (ty : VType) (d : Opnd) (a : Opnd) (b : Opnd) : slotOp (.vadd h ty d a b) = vaddOp h ty d a b := rfl
@[simp] theorem slotOp_vsub (h : VHdr) (ty : VType) (d : Opnd) (a : Opnd) (b : Opnd) : slotOp (.vsub h ty d a b) = vsubOp h ty d a b := rfl
@[simp] theorem slotOp_vmul (h : VHdr) (ty : VType) (d : Opnd) (a : Opnd) (b : Opnd) : slotOp (.vmul h ty d a b) = vmulOp h ty d a b := rfl
@[simp] theorem slotOp_vfma (h : VHdr) (ty : VType) (d : Opnd) (a : Opnd) (b : Opnd) : slotOp (.vfma h ty d a b) = vfmaOp h ty d a b := rfl
@[simp] theorem slotOp_vadds (h : VHdr) (ty : VType) (d : Opnd) (a : Opnd) (b : Opnd) : slotOp (.vadds h ty d a b) = vaddsOp h ty d a b := rfl
@[simp] theorem slotOp_vsubs (h : VHdr) (ty : VType) (d : Opnd) (a : Opnd) (b : Opnd) : slotOp (.vsubs h ty d a b) = vsubsOp h ty d a b := rfl
@[simp] theorem slotOp_vmin (h : VHdr) (ty : VType) (d : Opnd) (a : Opnd) (b : Opnd) : slotOp (.vmin h ty d a b) = vminOp h ty d a b := rfl
@[simp] theorem slotOp_vmax (h : VHdr) (ty : VType) (d : Opnd) (a : Opnd) (b : Opnd) : slotOp (.vmax h ty d a b) = vmaxOp h ty d a b := rfl
@[simp] theorem slotOp_vabs (h : VHdr) (ty : VType) (d : Opnd) (a : Opnd) : slotOp (.vabs h ty d a) = vabsOp h ty d a := rfl
@[simp] theorem slotOp_vcmpeq (h : VHdr) (ty : VType) (d : KReg) (a : Opnd) (b : Opnd) : slotOp (.vcmpeq h ty d a b) = vcmpeqOp h ty d a b := rfl
@[simp] theorem slotOp_vcmplt (h : VHdr) (ty : VType) (d : KReg) (a : Opnd) (b : Opnd) : slotOp (.vcmplt h ty d a b) = vcmpltOp h ty d a b := rfl
@[simp] theorem slotOp_vcmple (h : VHdr) (ty : VType) (d : KReg) (a : Opnd) (b : Opnd) : slotOp (.vcmple h ty d a b) = vcmpleOp h ty d a b := rfl
@[simp] theorem slotOp_kand (v1 : Bool) (d : KReg) (a : KReg) (b : KReg) : slotOp (.kand v1 d a b) = kandOp v1 d a b := rfl
@[simp] theorem slotOp_kor (v1 : Bool) (d : KReg) (a : KReg) (b : KReg) : slotOp (.kor v1 d a b) = korOp v1 d a b := rfl
@[simp] theorem slotOp_kxor (v1 : Bool) (d : KReg) (a : KReg) (b : KReg) : slotOp (.kxor v1 d a b) = kxorOp v1 d a b := rfl
@[simp] theorem slotOp_kandn (v1 : Bool) (d : KReg) (a : KReg) (b : KReg) : slotOp (.kandn v1 d a b) = kandnOp v1 d a b := rfl
@[simp] theorem slotOp_vshl (h : VHdr) (ty : VType) (d : Opnd) (a : Opnd) (b : Opnd) : slotOp (.vshl h ty d a b) = vshlOp h ty d a b := rfl
@[simp] theorem slotOp_vshr (h : VHdr) (ty : VType) (d : Opnd) (a : Opnd) (b : Opnd) : slotOp (.vshr h ty d a b) = vshrOp h ty d a b := rfl
@[simp] theorem slotOp_vsar (h : VHdr) (ty : VType) (d : Opnd) (a : Opnd) (b : Opnd) : slotOp (.vsar h ty d a b) = vsarOp h ty d a b := rfl
@[simp] theorem slotOp_vand (h : VHdr) (ty : VType) (d : Opnd) (a : Opnd) (b : Opnd) : slotOp (.vand h ty d a b) = vandOp h ty d a b := rfl
@[simp] theorem slotOp_vor (h : VHdr) (ty : VType) (d : Opnd) (a : Opnd) (b : Opnd) : slotOp (.vor h ty d a b) = vorOp h ty d a b := rfl
@[simp] theorem slotOp_vxor (h : VHdr) (ty : VType) (d : Opnd) (a : Opnd) (b : Opnd) : slotOp (.vxor h ty d a b) = vxorOp h ty d a b := rfl
@[simp] theorem slotOp_vmov (h : VHdr) (ty : VType) (d : Opnd) (a : Opnd) : slotOp (.vmov h ty d a) = vmovOp h ty d a := rfl
@[simp] theorem slotOp_vbfly (h : VHdr) (ty : VType) (d : Opnd) (a : Opnd) (m : BitVec 15) : slotOp (.vbfly h ty d a m) = vbflyOp h ty d a m := rfl
@[simp] theorem slotOp_vrot (h : VHdr) (ty : VType) (d : Opnd) (a : Opnd) (m : BitVec 15) : slotOp (.vrot h ty d a m) = vrotOp h ty d a m := rfl
@[simp] theorem slotOp_vbcast (h : VHdr) (ty : VType) (d : Opnd) (a : Opnd) (m : BitVec 15) : slotOp (.vbcast h ty d a m) = vbcastOp h ty d a m := rfl
@[simp] theorem slotOp_vperm (h : VHdr) (d : Opnd) (a : Opnd) (b : Opnd) : slotOp (.vperm h d a b) = vpermOp h d a b := rfl
@[simp] theorem slotOp_vredsum (h : VHdr) (ty : VType) (d : Opnd) (a : Opnd) : slotOp (.vredsum h ty d a) = vredsumOp h ty d a := rfl
@[simp] theorem slotOp_vredmax (h : VHdr) (ty : VType) (d : Opnd) (a : Opnd) : slotOp (.vredmax h ty d a) = vredmaxOp h ty d a := rfl
@[simp] theorem slotOp_vredmin (h : VHdr) (ty : VType) (d : Opnd) (a : Opnd) : slotOp (.vredmin h ty d a) = vredminOp h ty d a := rfl
@[simp] theorem slotOp_vredmask (h : VHdr) (d : Opnd) (a : Opnd) (b : Opnd) : slotOp (.vredmask h d a b) = vredmaskOp h d a b := rfl
@[simp] theorem slotOp_vcvt (h : VHdr) (d : Opnd) (a : Opnd) (c : CvtCtl) : slotOp (.vcvt h d a c) = vcvtOp h d a c := rfl
@[simp] theorem slotOp_vmxq (h : VHdr) (d : OReg) (a : Opnd) (c : CvtCtl) : slotOp (.vmxq h d a c) = vmxqOp h d a c := rfl
@[simp] theorem slotOp_vmxdq (h : VHdr) (d : Opnd) (a : OReg) (c : CvtCtl) : slotOp (.vmxdq h d a c) = vmxdqOp h d a c := rfl
@[simp] theorem slotOp_vrand (h : VHdr) (d : Opnd) (a : Opnd) (b : Opnd) : slotOp (.vrand h d a b) = vrandOp h d a b := rfl
@[simp] theorem slotOp_panePark (v1 : Bool) (pane : PaneNo) (tag : Fin 32) : slotOp (.panePark v1 pane tag) = paneParkOp v1 pane tag := rfl
@[simp] theorem slotOp_paneUnpark (v1 : Bool) (pane : PaneNo) (tag : Fin 32) : slotOp (.paneUnpark v1 pane tag) = paneUnparkOp v1 pane tag := rfl
@[simp] theorem slotOp_vexp2 (h : VHdr) (ty : VType) (d : Opnd) (a : Opnd) : slotOp (.vexp2 h ty d a) = vexp2Op h ty d a := rfl
@[simp] theorem slotOp_vlog2 (h : VHdr) (ty : VType) (d : Opnd) (a : Opnd) : slotOp (.vlog2 h ty d a) = vlog2Op h ty d a := rfl
@[simp] theorem slotOp_vrcp (h : VHdr) (ty : VType) (d : Opnd) (a : Opnd) : slotOp (.vrcp h ty d a) = vrcpOp h ty d a := rfl
@[simp] theorem slotOp_vrsqrt (h : VHdr) (ty : VType) (d : Opnd) (a : Opnd) : slotOp (.vrsqrt h ty d a) = vrsqrtOp h ty d a := rfl
@[simp] theorem slotOp_vsqrt (h : VHdr) (ty : VType) (d : Opnd) (a : Opnd) : slotOp (.vsqrt h ty d a) = vsqrtOp h ty d a := rfl
@[simp] theorem slotOp_vtanh (h : VHdr) (ty : VType) (d : Opnd) (a : Opnd) : slotOp (.vtanh h ty d a) = vtanhOp h ty d a := rfl
@[simp] theorem slotOp_vsigmoid (h : VHdr) (ty : VType) (d : Opnd) (a : Opnd) : slotOp (.vsigmoid h ty d a) = vsigmoidOp h ty d a := rfl
@[simp] theorem slotOp_vsin2pi (h : VHdr) (ty : VType) (d : Opnd) (a : Opnd) : slotOp (.vsin2pi h ty d a) = vsin2piOp h ty d a := rfl
@[simp] theorem slotOp_vcos2pi (h : VHdr) (ty : VType) (d : Opnd) (a : Opnd) : slotOp (.vcos2pi h ty d a) = vcos2piOp h ty d a := rfl
@[simp] theorem slotOp_add (p : PReg) (d : SReg) (a : SReg) (b : SReg) : slotOp (.add p d a b) = addOp p d a b := rfl
@[simp] theorem slotOp_sub (p : PReg) (d : SReg) (a : SReg) (b : SReg) : slotOp (.sub p d a b) = subOp p d a b := rfl
@[simp] theorem slotOp_and (p : PReg) (d : SReg) (a : SReg) (b : SReg) : slotOp (.and p d a b) = andOp p d a b := rfl
@[simp] theorem slotOp_or (p : PReg) (d : SReg) (a : SReg) (b : SReg) : slotOp (.or p d a b) = orOp p d a b := rfl
@[simp] theorem slotOp_xor (p : PReg) (d : SReg) (a : SReg) (b : SReg) : slotOp (.xor p d a b) = xorOp p d a b := rfl
@[simp] theorem slotOp_andn (p : PReg) (d : SReg) (a : SReg) (b : SReg) : slotOp (.andn p d a b) = andnOp p d a b := rfl
@[simp] theorem slotOp_shl (p : PReg) (d : SReg) (a : SReg) (b : SReg) : slotOp (.shl p d a b) = shlOp p d a b := rfl
@[simp] theorem slotOp_shr (p : PReg) (d : SReg) (a : SReg) (b : SReg) : slotOp (.shr p d a b) = shrOp p d a b := rfl
@[simp] theorem slotOp_sar (p : PReg) (d : SReg) (a : SReg) (b : SReg) : slotOp (.sar p d a b) = sarOp p d a b := rfl
@[simp] theorem slotOp_min (p : PReg) (d : SReg) (a : SReg) (b : SReg) : slotOp (.min p d a b) = minOp p d a b := rfl
@[simp] theorem slotOp_max (p : PReg) (d : SReg) (a : SReg) (b : SReg) : slotOp (.max p d a b) = maxOp p d a b := rfl
@[simp] theorem slotOp_lea (p : PReg) (d : SReg) (a : SReg) (b : SReg) (sh : Fin 16) : slotOp (.lea p d a b sh) = leaOp p d a b sh := rfl
@[simp] theorem slotOp_sel (p : PReg) (d : SReg) (a : SReg) (b : SReg) (q : PReg) : slotOp (.sel p d a b q) = selOp p d a b q := rfl
@[simp] theorem slotOp_mul (p : PReg) (d : SReg) (a : SReg) (b : SReg) : slotOp (.mul p d a b) = mulOp p d a b := rfl
@[simp] theorem slotOp_mulh (p : PReg) (d : SReg) (a : SReg) (b : SReg) : slotOp (.mulh p d a b) = mulhOp p d a b := rfl
@[simp] theorem slotOp_clz (p : PReg) (d : SReg) (a : SReg) : slotOp (.clz p d a) = clzOp p d a := rfl
@[simp] theorem slotOp_popc (p : PReg) (d : SReg) (a : SReg) : slotOp (.popc p d a) = popcOp p d a := rfl
@[simp] theorem slotOp_addi (p : PReg) (d : SReg) (a : SReg) (imm : BitVec 25) : slotOp (.addi p d a imm) = addiOp p d a imm := rfl
@[simp] theorem slotOp_andi (p : PReg) (d : SReg) (a : SReg) (imm : BitVec 25) : slotOp (.andi p d a imm) = andiOp p d a imm := rfl
@[simp] theorem slotOp_ori (p : PReg) (d : SReg) (a : SReg) (imm : BitVec 25) : slotOp (.ori p d a imm) = oriOp p d a imm := rfl
@[simp] theorem slotOp_xori (p : PReg) (d : SReg) (a : SReg) (imm : BitVec 25) : slotOp (.xori p d a imm) = xoriOp p d a imm := rfl
@[simp] theorem slotOp_shli (p : PReg) (d : SReg) (a : SReg) (n : Fin 64) : slotOp (.shli p d a n) = shliOp p d a n := rfl
@[simp] theorem slotOp_shri (p : PReg) (d : SReg) (a : SReg) (n : Fin 64) : slotOp (.shri p d a n) = shriOp p d a n := rfl
@[simp] theorem slotOp_sari (p : PReg) (d : SReg) (a : SReg) (n : Fin 64) : slotOp (.sari p d a n) = sariOp p d a n := rfl
@[simp] theorem slotOp_li (p : PReg) (d : SReg) (imm : BitVec 25) : slotOp (.li p d imm) = liOp p d imm := rfl
@[simp] theorem slotOp_lcat (p : PReg) (d : SReg) (a : SReg) (imm : BitVec 25) : slotOp (.lcat p d a imm) = lcatOp p d a imm := rfl
@[simp] theorem slotOp_cmp (p : PReg) (c : Cond) (d : PReg) (a : SReg) (b : SReg) : slotOp (.cmp p c d a b) = cmpOp p c d a b := rfl
@[simp] theorem slotOp_cmpiEq (p : PReg) (d : PReg) (a : SReg) (imm : BitVec 25) : slotOp (.cmpiEq p d a imm) = cmpiEqOp p d a imm := rfl
@[simp] theorem slotOp_cmpiNe (p : PReg) (d : PReg) (a : SReg) (imm : BitVec 25) : slotOp (.cmpiNe p d a imm) = cmpiNeOp p d a imm := rfl
@[simp] theorem slotOp_cmpiLt (p : PReg) (d : PReg) (a : SReg) (imm : BitVec 25) : slotOp (.cmpiLt p d a imm) = cmpiLtOp p d a imm := rfl
@[simp] theorem slotOp_cmpiGe (p : PReg) (d : PReg) (a : SReg) (imm : BitVec 25) : slotOp (.cmpiGe p d a imm) = cmpiGeOp p d a imm := rfl
@[simp] theorem slotOp_cmpiLtu (p : PReg) (d : PReg) (a : SReg) (imm : BitVec 25) : slotOp (.cmpiLtu p d a imm) = cmpiLtuOp p d a imm := rfl
@[simp] theorem slotOp_cmpiGeu (p : PReg) (d : PReg) (a : SReg) (imm : BitVec 25) : slotOp (.cmpiGeu p d a imm) = cmpiGeuOp p d a imm := rfl
@[simp] theorem slotOp_pand (p : PReg) (d : PReg) (a : PReg) (b : PReg) : slotOp (.pand p d a b) = pandOp p d a b := rfl
@[simp] theorem slotOp_por (p : PReg) (d : PReg) (a : PReg) (b : PReg) : slotOp (.por p d a b) = porOp p d a b := rfl
@[simp] theorem slotOp_pxor (p : PReg) (d : PReg) (a : PReg) (b : PReg) : slotOp (.pxor p d a b) = pxorOp p d a b := rfl
@[simp] theorem slotOp_bfx (p : PReg) (d : SReg) (a : SReg) (pos : Fin 64) (len1 : Fin 64) : slotOp (.bfx p d a pos len1) = bfxOp p d a pos len1 := rfl
@[simp] theorem slotOp_bfxu (p : PReg) (d : SReg) (a : SReg) (pos : Fin 64) (len1 : Fin 64) : slotOp (.bfxu p d a pos len1) = bfxuOp p d a pos len1 := rfl
@[simp] theorem slotOp_bfi (p : PReg) (d : SReg) (a : SReg) (b : SReg) (pos : Fin 64) (len1 : Fin 64) : slotOp (.bfi p d a b pos len1) = bfiOp p d a b pos len1 := rfl
@[simp] theorem slotOp_kput (p : PReg) (d : KReg) (a : SReg) : slotOp (.kput p d a) = kputOp p d a := rfl
@[simp] theorem slotOp_kget (p : PReg) (d : SReg) (a : KReg) : slotOp (.kget p d a) = kgetOp p d a := rfl
@[simp] theorem slotOp_oget (p : PReg) (e : ESize) (d : SReg) (a : OReg) (b : SReg) : slotOp (.oget p e d a b) = ogetOp p e d a b := rfl
@[simp] theorem slotOp_oput (p : PReg) (e : ESize) (d : OReg) (a : SReg) (b : SReg) : slotOp (.oput p e d a b) = oputOp p e d a b := rfl
@[simp] theorem slotOp_br (p : PReg) (off : BitVec 25) : slotOp (.br p off) = brOp p off := rfl
@[simp] theorem slotOp_call (p : PReg) (d : SReg) (off : BitVec 25) : slotOp (.call p d off) = callOp p d off := rfl
@[simp] theorem slotOp_jmp (p : PReg) (a : SReg) : slotOp (.jmp p a) = jmpOp p a := rfl
@[simp] theorem slotOp_callr (p : PReg) (d : SReg) (a : SReg) : slotOp (.callr p d a) = callrOp p d a := rfl
@[simp] theorem slotOp_loop (p : PReg) (a : SReg) (off : BitVec 25) : slotOp (.loop p a off) = loopOp p a off := rfl
@[simp] theorem slotOp_loopi (p : PReg) (n : BitVec 12) (off : BitVec 25) : slotOp (.loopi p n off) = loopiOp p n off := rfl
@[simp] theorem slotOp_waitc (p : PReg) (t0 : BitVec 8) (t1 : BitVec 8) (t2 : BitVec 8) (t3 : BitVec 8) : slotOp (.waitc p t0 t1 t2 t3) = waitcOp p t0 t1 t2 t3 := rfl
@[simp] theorem slotOp_csrr (p : PReg) (n : BitVec 12) (d : SReg) : slotOp (.csrr p n d) = csrrOp p n d := rfl
@[simp] theorem slotOp_csrw (p : PReg) (n : BitVec 12) (a : SReg) : slotOp (.csrw p n a) = csrwOp p n a := rfl
@[simp] theorem slotOp_csrs (p : PReg) (n : BitVec 12) (a : SReg) (d : SReg) : slotOp (.csrs p n a d) = csrsOp p n a d := rfl
@[simp] theorem slotOp_csrc (p : PReg) (n : BitVec 12) (a : SReg) (d : SReg) : slotOp (.csrc p n a d) = csrcOp p n a d := rfl
@[simp] theorem slotOp_bar (p : PReg) (sc : Scope) : slotOp (.bar p sc) = barOp p sc := rfl
@[simp] theorem slotOp_brk (p : PReg) (imm : BitVec 16) : slotOp (.brk p imm) = brkOp p imm := rfl
@[simp] theorem slotOp_wheelEnd (p : PReg) : slotOp (.wheelEnd p) = wheelEndOp p := rfl
@[simp] theorem slotOp_wheelSpawn (p : PReg) (a : SReg) : slotOp (.wheelSpawn p a) = wheelSpawnOp p a := rfl
@[simp] theorem slotOp_wheelSpawnCore (p : PReg) (a : SReg) : slotOp (.wheelSpawnCore p a) = wheelSpawnCoreOp p a := rfl
@[simp] theorem slotOp_semSig (p : PReg) (a : SReg) (n : BitVec 16) : slotOp (.semSig p a n) = semSigOp p a n := rfl
@[simp] theorem slotOp_semWait (p : PReg) (a : SReg) (n : BitVec 16) : slotOp (.semWait p a n) = semWaitOp p a n := rfl
@[simp] theorem slotOp_semTest (p : PReg) (d : SReg) (a : SReg) : slotOp (.semTest p d a) = semTestOp p d a := rfl
@[simp] theorem slotOp_tret (p : PReg) : slotOp (.tret p) = tretOp p := rfl
@[simp] theorem slotOp_xlatInvRange (p : PReg) (ni : Fin 64) : slotOp (.xlatInvRange p ni) = xlatInvRangeOp p ni := rfl
@[simp] theorem slotOp_xlatInvPage (p : PReg) (a : SReg) : slotOp (.xlatInvPage p a) = xlatInvPageOp p a := rfl
@[simp] theorem slotOp_xlatInvVat (p : PReg) : slotOp (.xlatInvVat p) = xlatInvVatOp p := rfl
@[simp] theorem slotOp_ssave (p : PReg) (a : SReg) : slotOp (.ssave p a) = ssaveOp p a := rfl
@[simp] theorem slotOp_srest (p : PReg) (a : SReg) : slotOp (.srest p a) = srestOp p a := rfl
@[simp] theorem slotOp_ldb (p : PReg) (d : SReg) (a : SReg) (off : BitVec 14) : slotOp (.ldb p d a off) = ldbOp p d a off := rfl
@[simp] theorem slotOp_ldbu (p : PReg) (d : SReg) (a : SReg) (off : BitVec 14) : slotOp (.ldbu p d a off) = ldbuOp p d a off := rfl
@[simp] theorem slotOp_ldh (p : PReg) (d : SReg) (a : SReg) (off : BitVec 14) : slotOp (.ldh p d a off) = ldhOp p d a off := rfl
@[simp] theorem slotOp_ldhu (p : PReg) (d : SReg) (a : SReg) (off : BitVec 14) : slotOp (.ldhu p d a off) = ldhuOp p d a off := rfl
@[simp] theorem slotOp_ldw (p : PReg) (d : SReg) (a : SReg) (off : BitVec 14) : slotOp (.ldw p d a off) = ldwOp p d a off := rfl
@[simp] theorem slotOp_ldwu (p : PReg) (d : SReg) (a : SReg) (off : BitVec 14) : slotOp (.ldwu p d a off) = ldwuOp p d a off := rfl
@[simp] theorem slotOp_ldd (p : PReg) (w8 : Bool) (d : SReg) (a : SReg) (off : BitVec 14) : slotOp (.ldd p w8 d a off) = lddOp p w8 d a off := rfl
@[simp] theorem slotOp_stb (p : PReg) (d : SReg) (a : SReg) (off : BitVec 14) : slotOp (.stb p d a off) = stbOp p d a off := rfl
@[simp] theorem slotOp_sth (p : PReg) (d : SReg) (a : SReg) (off : BitVec 14) : slotOp (.sth p d a off) = sthOp p d a off := rfl
@[simp] theorem slotOp_stw (p : PReg) (d : SReg) (a : SReg) (off : BitVec 14) : slotOp (.stw p d a off) = stwOp p d a off := rfl
@[simp] theorem slotOp_std (p : PReg) (w8 : Bool) (d : SReg) (a : SReg) (off : BitVec 14) : slotOp (.std p w8 d a off) = stdOp p w8 d a off := rfl
@[simp] theorem slotOp_ldv (p : PReg) (w : VWidth) (at_ : Atomicity) (d : OReg) (a : SReg) (off : BitVec 14) : slotOp (.ldv p w at_ d a off) = ldvOp p w at_ d a off := rfl
@[simp] theorem slotOp_stv (p : PReg) (w : VWidth) (at_ : Atomicity) (d : OReg) (a : SReg) (off : BitVec 14) : slotOp (.stv p w at_ d a off) = stvOp p w at_ d a off := rfl
@[simp] theorem slotOp_ldp (p : PReg) (w : VWidth) (at_ : Atomicity) (pane : PaneNo) (row : Fin 64) (a : SReg) (off : BitVec 14) : slotOp (.ldp p w at_ pane row a off) = ldpOp p w at_ pane row a off := rfl
@[simp] theorem slotOp_stp (p : PReg) (w : VWidth) (at_ : Atomicity) (pane : PaneNo) (row : Fin 64) (a : SReg) (off : BitVec 14) : slotOp (.stp p w at_ pane row a off) = stpOp p w at_ pane row a off := rfl
@[simp] theorem slotOp_ldmx (p : PReg) (el8 : Bool) (w : VWidth) (d : OReg) (a : SReg) (off : BitVec 14) : slotOp (.ldmx p el8 w d a off) = ldmxOp p el8 w d a off := rfl
@[simp] theorem slotOp_stmx (p : PReg) (el8 : Bool) (w : VWidth) (d : OReg) (a : SReg) (off : BitVec 14) : slotOp (.stmx p el8 w d a off) = stmxOp p el8 w d a off := rfl
@[simp] theorem slotOp_pref (p : PReg) (a : SReg) (off : BitVec 14) : slotOp (.pref p a off) = prefOp p a off := rfl
@[simp] theorem slotOp_clInv (p : PReg) (a : SReg) (off : BitVec 14) : slotOp (.clInv p a off) = clInvOp p a off := rfl
@[simp] theorem slotOp_clZero (p : PReg) (a : SReg) (off : BitVec 14) : slotOp (.clZero p a off) = clZeroOp p a off := rfl
@[simp] theorem slotOp_mark : slotOp .mark = markOp := rfl
@[simp] theorem slotOp_fence (p : PReg) (sc : Scope) (o : MemOrd) : slotOp (.fence p sc o) = fenceOp p sc o := rfl
@[simp] theorem slotOp_amoAdd (p : PReg) (sc : Scope) (o : MemOrd) (w8 : Bool) (d : SReg) (a : SReg) (b : SReg) : slotOp (.amoAdd p sc o w8 d a b) = amoAddOp p sc o w8 d a b := rfl
@[simp] theorem slotOp_amoSwap (p : PReg) (sc : Scope) (o : MemOrd) (w8 : Bool) (d : SReg) (a : SReg) (b : SReg) : slotOp (.amoSwap p sc o w8 d a b) = amoSwapOp p sc o w8 d a b := rfl
@[simp] theorem slotOp_amoCas (p : PReg) (sc : Scope) (o : MemOrd) (failAcq : Bool) (w8 : Bool) (d : SReg) (a : SReg) (b : SReg) : slotOp (.amoCas p sc o failAcq w8 d a b) = amoCasOp p sc o failAcq w8 d a b := rfl
@[simp] theorem slotOp_amoAnd (p : PReg) (sc : Scope) (o : MemOrd) (w8 : Bool) (d : SReg) (a : SReg) (b : SReg) : slotOp (.amoAnd p sc o w8 d a b) = amoAndOp p sc o w8 d a b := rfl
@[simp] theorem slotOp_amoOr (p : PReg) (sc : Scope) (o : MemOrd) (w8 : Bool) (d : SReg) (a : SReg) (b : SReg) : slotOp (.amoOr p sc o w8 d a b) = amoOrOp p sc o w8 d a b := rfl
@[simp] theorem slotOp_amoXor (p : PReg) (sc : Scope) (o : MemOrd) (w8 : Bool) (d : SReg) (a : SReg) (b : SReg) : slotOp (.amoXor p sc o w8 d a b) = amoXorOp p sc o w8 d a b := rfl
@[simp] theorem slotOp_amoMax (p : PReg) (sc : Scope) (o : MemOrd) (w8 : Bool) (d : SReg) (a : SReg) (b : SReg) : slotOp (.amoMax p sc o w8 d a b) = amoMaxOp p sc o w8 d a b := rfl
@[simp] theorem slotOp_amoMin (p : PReg) (sc : Scope) (o : MemOrd) (w8 : Bool) (d : SReg) (a : SReg) (b : SReg) : slotOp (.amoMin p sc o w8 d a b) = amoMinOp p sc o w8 d a b := rfl
@[simp] theorem slotOp_fld (p : PReg) (w8 : Bool) (d : SReg) (a : SReg) (off : BitVec 14) : slotOp (.fld p w8 d a off) = fldOp p w8 d a off := rfl
@[simp] theorem slotOp_fst (p : PReg) (w8 : Bool) (d : SReg) (a : SReg) (off : BitVec 14) : slotOp (.fst p w8 d a off) = fstOp p w8 d a off := rfl
@[simp] theorem slotOp_ffenceFlag (p : PReg) (w8 : Bool) (d : SReg) (a : SReg) (off : BitVec 14) : slotOp (.ffenceFlag p w8 d a off) = ffenceFlagOp p w8 d a off := rfl
@[simp] theorem slotOp_famoAdd (p : PReg) (o : MemOrd) (w8 : Bool) (d : SReg) (a : SReg) (b : SReg) : slotOp (.famoAdd p o w8 d a b) = famoAddOp p o w8 d a b := rfl
@[simp] theorem slotOp_famoSwap (p : PReg) (o : MemOrd) (w8 : Bool) (d : SReg) (a : SReg) (b : SReg) : slotOp (.famoSwap p o w8 d a b) = famoSwapOp p o w8 d a b := rfl
@[simp] theorem slotOp_famoCas (p : PReg) (o : MemOrd) (failAcq : Bool) (w8 : Bool) (d : SReg) (a : SReg) (b : SReg) : slotOp (.famoCas p o failAcq w8 d a b) = famoCasOp p o failAcq w8 d a b := rfl
@[simp] theorem slotOp_famoAnd (p : PReg) (o : MemOrd) (w8 : Bool) (d : SReg) (a : SReg) (b : SReg) : slotOp (.famoAnd p o w8 d a b) = famoAndOp p o w8 d a b := rfl
@[simp] theorem slotOp_famoOr (p : PReg) (o : MemOrd) (w8 : Bool) (d : SReg) (a : SReg) (b : SReg) : slotOp (.famoOr p o w8 d a b) = famoOrOp p o w8 d a b := rfl
@[simp] theorem slotOp_pressLease (p : PReg) : slotOp (.pressLease p) = pressLeaseOp p := rfl
@[simp] theorem slotOp_pressFree (p : PReg) : slotOp (.pressFree p) = pressFreeOp p := rfl
@[simp] theorem slotOp_pressClaim (p : PReg) (bank : Bool) : slotOp (.pressClaim p bank) = pressClaimOp p bank := rfl
@[simp] theorem slotOp_pressRelease (p : PReg) (bank : Bool) : slotOp (.pressRelease p bank) = pressReleaseOp p bank := rfl
@[simp] theorem slotOp_pressStatNorth (p : PReg) (c : EcHdr) (b : SReg) (snap : Bool) : slotOp (.pressStatNorth p c b snap) = pressStatNorthOp p c b snap := rfl
@[simp] theorem slotOp_pressStatWest (p : PReg) (c : EcHdr) (b : SReg) (snap : Bool) : slotOp (.pressStatWest p c b snap) = pressStatWestOp p c b snap := rfl
@[simp] theorem slotOp_pressRun (p : PReg) (c : EcHdr) (b : SReg) (bank : Bool) (sparse : Bool) (snap : Bool) : slotOp (.pressRun p c b bank sparse snap) = pressRunOp p c b bank sparse snap := rfl
@[simp] theorem slotOp_pressDrain (p : PReg) (c : EcHdr) (b : SReg) (bank : Bool) (acc : Bool) : slotOp (.pressDrain p c b bank acc) = pressDrainOp p c b bank acc := rfl
@[simp] theorem slotOp_pressZero (p : PReg) (c : EcHdr) (bank : Bool) : slotOp (.pressZero p c bank) = pressZeroOp p c bank := rfl
@[simp] theorem slotOp_copy (p : PReg) (c : EcHdr) (snap : Bool) : slotOp (.copy p c snap) = copyOp p c snap := rfl
@[simp] theorem slotOp_copyHoop (p : PReg) (c : EcHdr) (hoop : Fin 64) (snap : Bool) : slotOp (.copyHoop p c hoop snap) = copyHoopOp p c hoop snap := rfl
@[simp] theorem slotOp_copyBb (p : PReg) (c : EcHdr) (bb : Fin 64) (snap : Bool) : slotOp (.copyBb p c bb snap) = copyBbOp p c bb snap := rfl
@[simp] theorem slotOp_coll (p : PReg) (c : EcHdr) : slotOp (.coll p c) = collOp p c := rfl
@[simp] theorem slotOp_caveUpd (p : PReg) (c : EcHdr) (b : SReg) : slotOp (.caveUpd p c b) = caveUpdOp p c b := rfl
@[simp] theorem slotOp_embWait (p : PReg) (d : SReg) (a : SReg) : slotOp (.embWait p d a) = embWaitOp p d a := rfl
@[simp] theorem slotOp_embWaitTrap (p : PReg) (d : SReg) (a : SReg) : slotOp (.embWaitTrap p d a) = embWaitTrapOp p d a := rfl
@[simp] theorem slotOp_embTest (p : PReg) (d : SReg) (a : SReg) : slotOp (.embTest p d a) = embTestOp p d a := rfl
@[simp] theorem slotOp_embCancel (p : PReg) (d : SReg) (a : SReg) : slotOp (.embCancel p d a) = embCancelOp p d a := rfl
@[simp] theorem slotOp_embDetach (p : PReg) (d : SReg) (a : SReg) : slotOp (.embDetach p d a) = embDetachOp p d a := rfl
@[simp] theorem slotOp_embAdopt (p : PReg) (d : SReg) (name : BitVec 16) : slotOp (.embAdopt p d name) = embAdoptOp p d name := rfl
@[simp] theorem slotOp_embPrio (p : PReg) (d : SReg) (a : SReg) (n : Fin 4) : slotOp (.embPrio p d a n) = embPrioOp p d a n := rfl
@[simp] theorem slotOp_embInfo (p : PReg) (d : SReg) (a : SReg) : slotOp (.embInfo p d a) = embInfoOp p d a := rfl
@[simp] theorem slotOp_embAfter (p : PReg) (d : SReg) (a : SReg) : slotOp (.embAfter p d a) = embAfterOp p d a := rfl
@[simp] theorem slotOp_hoopInit (p : PReg) (hoop : Fin 64) (a : SReg) (b : SReg) : slotOp (.hoopInit p hoop a b) = hoopInitOp p hoop a b := rfl
@[simp] theorem slotOp_hoopAwait (p : PReg) (d : SReg) (hoop : Fin 64) : slotOp (.hoopAwait p d hoop) = hoopAwaitOp p d hoop := rfl
@[simp] theorem slotOp_hoopRel (p : PReg) (hoop : Fin 64) : slotOp (.hoopRel p hoop) = hoopRelOp p hoop := rfl
@[simp] theorem slotOp_hoopQuery (p : PReg) (d : SReg) (hoop : Fin 64) : slotOp (.hoopQuery p d hoop) = hoopQueryOp p d hoop := rfl
@[simp] theorem slotOp_bbExpect (p : PReg) (d : SReg) (bb : Fin 64) (a : SReg) : slotOp (.bbExpect p d bb a) = bbExpectOp p d bb a := rfl
@[simp] theorem slotOp_bbArrive (p : PReg) (bb : Fin 64) (a : SReg) : slotOp (.bbArrive p bb a) = bbArriveOp p bb a := rfl
@[simp] theorem slotOp_bbWait (p : PReg) (bb : Fin 64) (a : SReg) : slotOp (.bbWait p bb a) = bbWaitOp p bb a := rfl
@[simp] theorem slotOp_bbQuery (p : PReg) (d : SReg) (bb : Fin 64) : slotOp (.bbQuery p d bb) = bbQueryOp p d bb := rfl
@[simp] theorem slotOp_moldGet (p : PReg) (d : SReg) (a : SReg) : slotOp (.moldGet p d a) = moldGetOp p d a := rfl
@[simp] theorem slotOp_moldPass (p : PReg) (a : SReg) : slotOp (.moldPass p a) = moldPassOp p a := rfl
@[simp] theorem slotOp_moldFree (p : PReg) (a : SReg) : slotOp (.moldFree p a) = moldFreeOp p a := rfl

/-- Every instruction that stands in a slot is run as `slotOp` shows it to issue. -/
theorem exec_eq_runOp (i : Instr) (s : State) (h : i.encSlot.isSome = true) : exec i s = runOp (slotOp i) s := by
  cases i <;> first | exact Bool.noConfusion (show false = true from h) | rfl

end Sys2Proof.Machine
end

