-- ==== Sys2Proof/Laws/Table.lean ====
section
/-! SUPPORT. What tables and memory lists do: a read after a write, and that every write keeps the canonical form. -/

namespace Sys2Proof.Machine

@[simp] theorem tget_tset_same {α : Type} [Inhabited α] (t : Tbl α) (k : Nat) (v : α) : tget (tset t k v) k = v := by
  induction t with
  | nil => simp [tset, tget]
  | cons x t ih =>
    obtain ⟨j, w⟩ := x
    unfold tset
    by_cases h1 : k < j
    · simp [h1, tget]
    · by_cases h2 : k = j
      · simp [h2, tget]
      · have h3 : j ≠ k := fun h => h2 h.symm
        simp [h1, h2, tget, h3, ih]

theorem tget_tset_ne {α : Type} [Inhabited α] (t : Tbl α) {k j : Nat} (v : α) (h : j ≠ k) :
    tget (tset t k v) j = tget t j := by
  have hk : k ≠ j := fun e => h e.symm
  induction t with
  | nil => simp [tset, tget, hk]
  | cons x t ih =>
    obtain ⟨i, w⟩ := x
    unfold tset
    by_cases h1 : k < i
    · simp [h1, tget, hk]
    · by_cases h2 : k = i
      · subst h2; simp [tget, hk]
      · by_cases h3 : i = j
        · subst h3; simp [h1, h2, tget]
        · simp [h1, h2, tget, h3, ih]

/-- A read after a write, in one equation. -/
theorem tget_tset {α : Type} [Inhabited α] (t : Tbl α) (k j : Nat) (v : α) :
    tget (tset t k v) j = if j = k then v else tget t j := by
  by_cases h : j = k
  · simp [h]
  · simp [h, tget_tset_ne t v h]

@[simp] theorem tget_nil {α : Type} [Inhabited α] (k : Nat) : tget ([] : Tbl α) k = default := rfl

/- Memory -/

theorem cellGet_filter_ne (m : List Host.Cell) {k j : Nat} (h : j ≠ k) :
    cellGet (m.filter fun c => c.1 != k) j = cellGet m j := by
  induction m with
  | nil => rfl
  | cons x t ih =>
    obtain ⟨a, b⟩ := x
    by_cases ha : a = k
    · have hj : a ≠ j := fun e => h (e.symm.trans ha)
      simp [ha] at *
      simp [cellGet, ih, hj]
    · have hb : (a != k) = true := by simpa using ha
      rw [List.filter_cons]
      simp only [hb, if_true, cellGet, ih]

theorem cellGet_filter_same (m : List Host.Cell) (k : Nat) :
    cellGet (m.filter fun c => c.1 != k) k = 0 := by
  induction m with
  | nil => rfl
  | cons x t ih =>
    obtain ⟨a, b⟩ := x
    by_cases ha : a = k
    · simp [ha, ih]
    · simp [cellGet, ha, ih]

theorem cellGet_insert (m : List Host.Cell) (k j : Nat) (v : Byte) (hm : ∀ c ∈ m, c.1 ≠ k) :
    cellGet (cellInsert m k v) j = if j = k then v else cellGet m j := by
  induction m with
  | nil =>
    by_cases h : j = k
    · simp [cellInsert, cellGet, h]
    · have hk : k ≠ j := fun e => h e.symm
      simp [cellInsert, cellGet, h, hk]
  | cons x t ih =>
    obtain ⟨a, b⟩ := x
    have ht : ∀ c ∈ t, c.1 ≠ k := fun c hc => hm c (List.mem_cons_of_mem _ hc)
    have ha : a ≠ k := hm (a, b) List.mem_cons_self
    unfold cellInsert
    by_cases h1 : k < a
    · by_cases h : j = k
      · simp [h1, cellGet, h]
      · have hk : k ≠ j := fun e => h e.symm
        simp [h1, cellGet, h, hk]
    · simp only [h1, if_false, cellGet, ih ht]
      by_cases haj : a = j
      · have hj : j ≠ k := fun e => ha (haj.trans e)
        simp [haj, hj]
      · simp [haj]

/-- A byte read after one byte is written. -/
theorem cellGet_cellSet (m : List Host.Cell) (k j : Nat) (v : Byte) :
    cellGet (cellSet m k v) j = if j = k then v else cellGet m j := by
  unfold cellSet
  by_cases hv : v = 0
  · by_cases h : j = k
    · simp [hv, h, cellGet_filter_same]
    · simp [hv, h, cellGet_filter_ne m h]
  · have hm : ∀ c ∈ m.filter (fun c => c.1 != k), c.1 ≠ k := by
      intro c hc
      simpa using (List.mem_filter.mp hc).2
    simp only [hv, if_false]
    rw [cellGet_insert _ _ _ _ hm]
    by_cases h : j = k
    · simp [h]
    · simp [h, cellGet_filter_ne m h]

/-- The canonical form as a fact about every entry and every pair of entries in order. -/
theorem memory_wf_iff (m : List Host.Cell) :
    Memory.wf m = true ↔ (∀ c ∈ m, c.2 ≠ 0) ∧ m.Pairwise fun a b => a.1 < b.1 := by
  induction m with
  | nil => simp [Memory.wf]
  | cons x t ih =>
    obtain ⟨a, b⟩ := x
    cases t with
    | nil => simp [Memory.wf]
    | cons y t =>
      obtain ⟨a', b'⟩ := y
      have hrw : Memory.wf ((a, b) :: (a', b') :: t) = (b != 0 && decide (a < a') && Memory.wf ((a', b') :: t)) := rfl
      rw [hrw]
      simp only [Bool.and_eq_true, bne_iff_ne, decide_eq_true_eq, ih]
      constructor
      · rintro ⟨⟨h1, h2⟩, h3, h4⟩
        refine ⟨?_, ?_⟩
        · intro c hc
          rcases List.mem_cons.mp hc with rfl | hc
          · exact h1
          · exact h3 c hc
        · rw [List.pairwise_cons]
          refine ⟨?_, h4⟩
          intro c hc
          rcases List.mem_cons.mp hc with rfl | hc
          · exact h2
          · exact Nat.lt_trans h2 ((List.pairwise_cons.mp h4).1 c hc)
      · rintro ⟨h1, h2⟩
        have h2' := List.pairwise_cons.mp h2
        exact ⟨⟨h1 (a, b) List.mem_cons_self, h2'.1 (a', b') List.mem_cons_self⟩,
          fun c hc => h1 c (List.mem_cons_of_mem _ hc), h2'.2⟩

theorem memory_wf_filter (m : List Host.Cell) (p : Host.Cell → Bool) (h : Memory.wf m = true) :
    Memory.wf (m.filter p) = true := by
  rw [memory_wf_iff] at *
  exact ⟨fun c hc => h.1 c (List.mem_filter.mp hc).1, h.2.filter p⟩

theorem mem_cellInsert (m : List Host.Cell) (k : Nat) (v : Byte) (c : Host.Cell) :
    c ∈ cellInsert m k v ↔ c = (k, v) ∨ c ∈ m := by
  induction m with
  | nil => simp [cellInsert]
  | cons x t ih =>
    obtain ⟨a, b⟩ := x
    unfold cellInsert
    by_cases h : k < a
    · simp [h]
    · simp only [h, if_false, List.mem_cons, ih]
      exact or_left_comm

theorem memory_wf_insert (m : List Host.Cell) (k : Nat) (v : Byte) (hv : v ≠ 0) (hk : ∀ c ∈ m, c.1 ≠ k)
    (h : Memory.wf m = true) : Memory.wf (cellInsert m k v) = true := by
  rw [memory_wf_iff] at *
  refine ⟨?_, ?_⟩
  · intro c hc
    rcases (mem_cellInsert m k v c).mp hc with rfl | hc
    · exact hv
    · exact h.1 c hc
  · have h2 := h.2
    clear h
    induction m with
    | nil => simp [cellInsert]
    | cons x t ih =>
      obtain ⟨a, b⟩ := x
      have hp := List.pairwise_cons.mp h2
      have ht : ∀ c ∈ t, c.1 ≠ k := fun c hc => hk c (List.mem_cons_of_mem _ hc)
      have ha : a ≠ k := hk (a, b) List.mem_cons_self
      unfold cellInsert
      by_cases hka : k < a
      · simp only [hka, if_true]
        refine List.pairwise_cons.mpr ⟨?_, h2⟩
        intro c hc
        rcases List.mem_cons.mp hc with rfl | hc
        · exact hka
        · exact Nat.lt_trans hka (hp.1 c hc)
      · simp only [hka, if_false]
        refine List.pairwise_cons.mpr ⟨?_, ih ht hp.2⟩
        intro c hc
        rcases (mem_cellInsert t k v c).mp hc with rfl | hc
        · show a < k
          omega
        · exact hp.1 c hc

/-- Writing a byte keeps the canonical form. -/
theorem memory_wf_cellSet (m : List Host.Cell) (k : Nat) (v : Byte) (h : Memory.wf m = true) :
    Memory.wf (cellSet m k v) = true := by
  unfold cellSet
  have hf := memory_wf_filter m (fun c => c.1 != k) h
  by_cases hv : v = 0
  · simpa [hv] using hf
  · simp only [hv, if_false]
    refine memory_wf_insert _ k v hv ?_ hf
    intro c hc
    simpa using (List.mem_filter.mp hc).2

end Sys2Proof.Machine
end

