-- ==== Sys2Proof/Laws/State.lean ====
section
/-! SUPPORT. One lemma for each field of the state under each update of a table, and reads of one table under the
updates of all. -/

namespace Sys2Proof.Machine

section
variable (s : State) (k j : Nat)

@[simp] theorem State.setCtx_sched (c : Ctx) : (s.setCtx k c).sched = s.sched := rfl
@[simp] theorem State.setCtx_free (c : Ctx) : (s.setCtx k c).free = s.free := rfl
@[simp] theorem State.setCtx_cur (c : Ctx) : (s.setCtx k c).cur = s.cur := rfl
@[simp] theorem State.setCtx_issue (c : Ctx) : (s.setCtx k c).issue = s.issue := rfl
@[simp] theorem State.setCtx_now (c : Ctx) : (s.setCtx k c).now = s.now := rfl
@[simp] theorem State.setCtx_mem (c : Ctx) : (s.setCtx k c).mem = s.mem := rfl
@[simp] theorem State.setCtx_poison (c : Ctx) : (s.setCtx k c).poison = s.poison := rfl
@[simp] theorem State.setCtx_cores (c : Ctx) : (s.setCtx k c).cores = s.cores := rfl
@[simp] theorem State.setCtx_quads (c : Ctx) : (s.setCtx k c).quads = s.quads := rfl
@[simp] theorem State.setCtx_dies (c : Ctx) : (s.setCtx k c).dies = s.dies := rfl
@[simp] theorem State.setCtx_vats (c : Ctx) : (s.setCtx k c).vats = s.vats := rfl
@[simp] theorem State.setCtx_mods (c : Ctx) : (s.setCtx k c).mods = s.mods := rfl
@[simp] theorem State.setCtx_fars (c : Ctx) : (s.setCtx k c).fars = s.fars := rfl
@[simp] theorem State.setCtx_uid (c : Ctx) : (s.setCtx k c).uid = s.uid := rfl
@[simp] theorem State.setCtx_colls (c : Ctx) : (s.setCtx k c).colls = s.colls := rfl
@[simp] theorem State.setCtx_parity (c : Ctx) : (s.setCtx k c).parity = s.parity := rfl
@[simp] theorem State.setCtx_lag (c : Ctx) : (s.setCtx k c).lag = s.lag := rfl
@[simp] theorem State.setCtx_core (c : Ctx) : (s.setCtx k c).core j = s.core j := rfl
@[simp] theorem State.setCtx_quad (c : Ctx) : (s.setCtx k c).quad j = s.quad j := rfl
@[simp] theorem State.setCtx_die (c : Ctx) : (s.setCtx k c).die j = s.die j := rfl
@[simp] theorem State.setCtx_vat (c : Ctx) : (s.setCtx k c).vat j = s.vat j := rfl
@[simp] theorem State.setCtx_modu (c : Ctx) : (s.setCtx k c).modu j = s.modu j := rfl
@[simp] theorem State.setCtx_ctx (c : Ctx) : (s.setCtx k c).ctx j = if j = k then c else s.ctx j := tget_tset _ _ _ _
@[simp] theorem State.updCtx_sched (f : Ctx → Ctx) : (s.updCtx k f).sched = s.sched := rfl
@[simp] theorem State.updCtx_free (f : Ctx → Ctx) : (s.updCtx k f).free = s.free := rfl
@[simp] theorem State.updCtx_cur (f : Ctx → Ctx) : (s.updCtx k f).cur = s.cur := rfl
@[simp] theorem State.updCtx_issue (f : Ctx → Ctx) : (s.updCtx k f).issue = s.issue := rfl
@[simp] theorem State.updCtx_now (f : Ctx → Ctx) : (s.updCtx k f).now = s.now := rfl
@[simp] theorem State.updCtx_mem (f : Ctx → Ctx) : (s.updCtx k f).mem = s.mem := rfl
@[simp] theorem State.updCtx_poison (f : Ctx → Ctx) : (s.updCtx k f).poison = s.poison := rfl
@[simp] theorem State.updCtx_cores (f : Ctx → Ctx) : (s.updCtx k f).cores = s.cores := rfl
@[simp] theorem State.updCtx_quads (f : Ctx → Ctx) : (s.updCtx k f).quads = s.quads := rfl
@[simp] theorem State.updCtx_dies (f : Ctx → Ctx) : (s.updCtx k f).dies = s.dies := rfl
@[simp] theorem State.updCtx_vats (f : Ctx → Ctx) : (s.updCtx k f).vats = s.vats := rfl
@[simp] theorem State.updCtx_mods (f : Ctx → Ctx) : (s.updCtx k f).mods = s.mods := rfl
@[simp] theorem State.updCtx_fars (f : Ctx → Ctx) : (s.updCtx k f).fars = s.fars := rfl
@[simp] theorem State.updCtx_uid (f : Ctx → Ctx) : (s.updCtx k f).uid = s.uid := rfl
@[simp] theorem State.updCtx_colls (f : Ctx → Ctx) : (s.updCtx k f).colls = s.colls := rfl
@[simp] theorem State.updCtx_parity (f : Ctx → Ctx) : (s.updCtx k f).parity = s.parity := rfl
@[simp] theorem State.updCtx_lag (f : Ctx → Ctx) : (s.updCtx k f).lag = s.lag := rfl
@[simp] theorem State.updCtx_core (f : Ctx → Ctx) : (s.updCtx k f).core j = s.core j := rfl
@[simp] theorem State.updCtx_quad (f : Ctx → Ctx) : (s.updCtx k f).quad j = s.quad j := rfl
@[simp] theorem State.updCtx_die (f : Ctx → Ctx) : (s.updCtx k f).die j = s.die j := rfl
@[simp] theorem State.updCtx_vat (f : Ctx → Ctx) : (s.updCtx k f).vat j = s.vat j := rfl
@[simp] theorem State.updCtx_modu (f : Ctx → Ctx) : (s.updCtx k f).modu j = s.modu j := rfl
@[simp] theorem State.updCtx_ctx (f : Ctx → Ctx) : (s.updCtx k f).ctx j = if j = k then f (s.ctx k) else s.ctx j := tget_tset _ _ _ _

@[simp] theorem State.setCore_sched (x : Core) : (s.setCore k x).sched = s.sched := rfl
@[simp] theorem State.setCore_free (x : Core) : (s.setCore k x).free = s.free := rfl
@[simp] theorem State.setCore_cur (x : Core) : (s.setCore k x).cur = s.cur := rfl
@[simp] theorem State.setCore_issue (x : Core) : (s.setCore k x).issue = s.issue := rfl
@[simp] theorem State.setCore_now (x : Core) : (s.setCore k x).now = s.now := rfl
@[simp] theorem State.setCore_mem (x : Core) : (s.setCore k x).mem = s.mem := rfl
@[simp] theorem State.setCore_poison (x : Core) : (s.setCore k x).poison = s.poison := rfl
@[simp] theorem State.setCore_ctxs (x : Core) : (s.setCore k x).ctxs = s.ctxs := rfl
@[simp] theorem State.setCore_quads (x : Core) : (s.setCore k x).quads = s.quads := rfl
@[simp] theorem State.setCore_dies (x : Core) : (s.setCore k x).dies = s.dies := rfl
@[simp] theorem State.setCore_vats (x : Core) : (s.setCore k x).vats = s.vats := rfl
@[simp] theorem State.setCore_mods (x : Core) : (s.setCore k x).mods = s.mods := rfl
@[simp] theorem State.setCore_fars (x : Core) : (s.setCore k x).fars = s.fars := rfl
@[simp] theorem State.setCore_uid (x : Core) : (s.setCore k x).uid = s.uid := rfl
@[simp] theorem State.setCore_colls (x : Core) : (s.setCore k x).colls = s.colls := rfl
@[simp] theorem State.setCore_parity (x : Core) : (s.setCore k x).parity = s.parity := rfl
@[simp] theorem State.setCore_lag (x : Core) : (s.setCore k x).lag = s.lag := rfl
@[simp] theorem State.setCore_ctx (x : Core) : (s.setCore k x).ctx j = s.ctx j := rfl
@[simp] theorem State.setCore_quad (x : Core) : (s.setCore k x).quad j = s.quad j := rfl
@[simp] theorem State.setCore_die (x : Core) : (s.setCore k x).die j = s.die j := rfl
@[simp] theorem State.setCore_vat (x : Core) : (s.setCore k x).vat j = s.vat j := rfl
@[simp] theorem State.setCore_modu (x : Core) : (s.setCore k x).modu j = s.modu j := rfl
@[simp] theorem State.setCore_core (x : Core) : (s.setCore k x).core j = if j = k then x else s.core j := tget_tset _ _ _ _
@[simp] theorem State.updCore_sched (f : Core → Core) : (s.updCore k f).sched = s.sched := rfl
@[simp] theorem State.updCore_free (f : Core → Core) : (s.updCore k f).free = s.free := rfl
@[simp] theorem State.updCore_cur (f : Core → Core) : (s.updCore k f).cur = s.cur := rfl
@[simp] theorem State.updCore_issue (f : Core → Core) : (s.updCore k f).issue = s.issue := rfl
@[simp] theorem State.updCore_now (f : Core → Core) : (s.updCore k f).now = s.now := rfl
@[simp] theorem State.updCore_mem (f : Core → Core) : (s.updCore k f).mem = s.mem := rfl
@[simp] theorem State.updCore_poison (f : Core → Core) : (s.updCore k f).poison = s.poison := rfl
@[simp] theorem State.updCore_ctxs (f : Core → Core) : (s.updCore k f).ctxs = s.ctxs := rfl
@[simp] theorem State.updCore_quads (f : Core → Core) : (s.updCore k f).quads = s.quads := rfl
@[simp] theorem State.updCore_dies (f : Core → Core) : (s.updCore k f).dies = s.dies := rfl
@[simp] theorem State.updCore_vats (f : Core → Core) : (s.updCore k f).vats = s.vats := rfl
@[simp] theorem State.updCore_mods (f : Core → Core) : (s.updCore k f).mods = s.mods := rfl
@[simp] theorem State.updCore_fars (f : Core → Core) : (s.updCore k f).fars = s.fars := rfl
@[simp] theorem State.updCore_uid (f : Core → Core) : (s.updCore k f).uid = s.uid := rfl
@[simp] theorem State.updCore_colls (f : Core → Core) : (s.updCore k f).colls = s.colls := rfl
@[simp] theorem State.updCore_parity (f : Core → Core) : (s.updCore k f).parity = s.parity := rfl
@[simp] theorem State.updCore_lag (f : Core → Core) : (s.updCore k f).lag = s.lag := rfl
@[simp] theorem State.updCore_ctx (f : Core → Core) : (s.updCore k f).ctx j = s.ctx j := rfl
@[simp] theorem State.updCore_quad (f : Core → Core) : (s.updCore k f).quad j = s.quad j := rfl
@[simp] theorem State.updCore_die (f : Core → Core) : (s.updCore k f).die j = s.die j := rfl
@[simp] theorem State.updCore_vat (f : Core → Core) : (s.updCore k f).vat j = s.vat j := rfl
@[simp] theorem State.updCore_modu (f : Core → Core) : (s.updCore k f).modu j = s.modu j := rfl
@[simp] theorem State.updCore_core (f : Core → Core) : (s.updCore k f).core j = if j = k then f (s.core k) else s.core j := tget_tset _ _ _ _

@[simp] theorem State.setQuad_sched (q : Quad) : (s.setQuad k q).sched = s.sched := rfl
@[simp] theorem State.setQuad_free (q : Quad) : (s.setQuad k q).free = s.free := rfl
@[simp] theorem State.setQuad_cur (q : Quad) : (s.setQuad k q).cur = s.cur := rfl
@[simp] theorem State.setQuad_issue (q : Quad) : (s.setQuad k q).issue = s.issue := rfl
@[simp] theorem State.setQuad_now (q : Quad) : (s.setQuad k q).now = s.now := rfl
@[simp] theorem State.setQuad_mem (q : Quad) : (s.setQuad k q).mem = s.mem := rfl
@[simp] theorem State.setQuad_poison (q : Quad) : (s.setQuad k q).poison = s.poison := rfl
@[simp] theorem State.setQuad_ctxs (q : Quad) : (s.setQuad k q).ctxs = s.ctxs := rfl
@[simp] theorem State.setQuad_cores (q : Quad) : (s.setQuad k q).cores = s.cores := rfl
@[simp] theorem State.setQuad_dies (q : Quad) : (s.setQuad k q).dies = s.dies := rfl
@[simp] theorem State.setQuad_vats (q : Quad) : (s.setQuad k q).vats = s.vats := rfl
@[simp] theorem State.setQuad_mods (q : Quad) : (s.setQuad k q).mods = s.mods := rfl
@[simp] theorem State.setQuad_fars (q : Quad) : (s.setQuad k q).fars = s.fars := rfl
@[simp] theorem State.setQuad_uid (q : Quad) : (s.setQuad k q).uid = s.uid := rfl
@[simp] theorem State.setQuad_colls (q : Quad) : (s.setQuad k q).colls = s.colls := rfl
@[simp] theorem State.setQuad_parity (q : Quad) : (s.setQuad k q).parity = s.parity := rfl
@[simp] theorem State.setQuad_lag (q : Quad) : (s.setQuad k q).lag = s.lag := rfl
@[simp] theorem State.setQuad_ctx (q : Quad) : (s.setQuad k q).ctx j = s.ctx j := rfl
@[simp] theorem State.setQuad_core (q : Quad) : (s.setQuad k q).core j = s.core j := rfl
@[simp] theorem State.setQuad_die (q : Quad) : (s.setQuad k q).die j = s.die j := rfl
@[simp] theorem State.setQuad_vat (q : Quad) : (s.setQuad k q).vat j = s.vat j := rfl
@[simp] theorem State.setQuad_modu (q : Quad) : (s.setQuad k q).modu j = s.modu j := rfl
@[simp] theorem State.setQuad_quad (q : Quad) : (s.setQuad k q).quad j = if j = k then q else s.quad j := tget_tset _ _ _ _
@[simp] theorem State.updQuad_sched (f : Quad → Quad) : (s.updQuad k f).sched = s.sched := rfl
@[simp] theorem State.updQuad_free (f : Quad → Quad) : (s.updQuad k f).free = s.free := rfl
@[simp] theorem State.updQuad_cur (f : Quad → Quad) : (s.updQuad k f).cur = s.cur := rfl
@[simp] theorem State.updQuad_issue (f : Quad → Quad) : (s.updQuad k f).issue = s.issue := rfl
@[simp] theorem State.updQuad_now (f : Quad → Quad) : (s.updQuad k f).now = s.now := rfl
@[simp] theorem State.updQuad_mem (f : Quad → Quad) : (s.updQuad k f).mem = s.mem := rfl
@[simp] theorem State.updQuad_poison (f : Quad → Quad) : (s.updQuad k f).poison = s.poison := rfl
@[simp] theorem State.updQuad_ctxs (f : Quad → Quad) : (s.updQuad k f).ctxs = s.ctxs := rfl
@[simp] theorem State.updQuad_cores (f : Quad → Quad) : (s.updQuad k f).cores = s.cores := rfl
@[simp] theorem State.updQuad_dies (f : Quad → Quad) : (s.updQuad k f).dies = s.dies := rfl
@[simp] theorem State.updQuad_vats (f : Quad → Quad) : (s.updQuad k f).vats = s.vats := rfl
@[simp] theorem State.updQuad_mods (f : Quad → Quad) : (s.updQuad k f).mods = s.mods := rfl
@[simp] theorem State.updQuad_fars (f : Quad → Quad) : (s.updQuad k f).fars = s.fars := rfl
@[simp] theorem State.updQuad_uid (f : Quad → Quad) : (s.updQuad k f).uid = s.uid := rfl
@[simp] theorem State.updQuad_colls (f : Quad → Quad) : (s.updQuad k f).colls = s.colls := rfl
@[simp] theorem State.updQuad_parity (f : Quad → Quad) : (s.updQuad k f).parity = s.parity := rfl
@[simp] theorem State.updQuad_lag (f : Quad → Quad) : (s.updQuad k f).lag = s.lag := rfl
@[simp] theorem State.updQuad_ctx (f : Quad → Quad) : (s.updQuad k f).ctx j = s.ctx j := rfl
@[simp] theorem State.updQuad_core (f : Quad → Quad) : (s.updQuad k f).core j = s.core j := rfl
@[simp] theorem State.updQuad_die (f : Quad → Quad) : (s.updQuad k f).die j = s.die j := rfl
@[simp] theorem State.updQuad_vat (f : Quad → Quad) : (s.updQuad k f).vat j = s.vat j := rfl
@[simp] theorem State.updQuad_modu (f : Quad → Quad) : (s.updQuad k f).modu j = s.modu j := rfl
@[simp] theorem State.updQuad_quad (f : Quad → Quad) : (s.updQuad k f).quad j = if j = k then f (s.quad k) else s.quad j := tget_tset _ _ _ _

@[simp] theorem State.setDie_sched (d : Die) : (s.setDie k d).sched = s.sched := rfl
@[simp] theorem State.setDie_free (d : Die) : (s.setDie k d).free = s.free := rfl
@[simp] theorem State.setDie_cur (d : Die) : (s.setDie k d).cur = s.cur := rfl
@[simp] theorem State.setDie_issue (d : Die) : (s.setDie k d).issue = s.issue := rfl
@[simp] theorem State.setDie_now (d : Die) : (s.setDie k d).now = s.now := rfl
@[simp] theorem State.setDie_mem (d : Die) : (s.setDie k d).mem = s.mem := rfl
@[simp] theorem State.setDie_poison (d : Die) : (s.setDie k d).poison = s.poison := rfl
@[simp] theorem State.setDie_ctxs (d : Die) : (s.setDie k d).ctxs = s.ctxs := rfl
@[simp] theorem State.setDie_cores (d : Die) : (s.setDie k d).cores = s.cores := rfl
@[simp] theorem State.setDie_quads (d : Die) : (s.setDie k d).quads = s.quads := rfl
@[simp] theorem State.setDie_vats (d : Die) : (s.setDie k d).vats = s.vats := rfl
@[simp] theorem State.setDie_mods (d : Die) : (s.setDie k d).mods = s.mods := rfl
@[simp] theorem State.setDie_fars (d : Die) : (s.setDie k d).fars = s.fars := rfl
@[simp] theorem State.setDie_uid (d : Die) : (s.setDie k d).uid = s.uid := rfl
@[simp] theorem State.setDie_colls (d : Die) : (s.setDie k d).colls = s.colls := rfl
@[simp] theorem State.setDie_parity (d : Die) : (s.setDie k d).parity = s.parity := rfl
@[simp] theorem State.setDie_lag (d : Die) : (s.setDie k d).lag = s.lag := rfl
@[simp] theorem State.setDie_ctx (d : Die) : (s.setDie k d).ctx j = s.ctx j := rfl
@[simp] theorem State.setDie_core (d : Die) : (s.setDie k d).core j = s.core j := rfl
@[simp] theorem State.setDie_quad (d : Die) : (s.setDie k d).quad j = s.quad j := rfl
@[simp] theorem State.setDie_vat (d : Die) : (s.setDie k d).vat j = s.vat j := rfl
@[simp] theorem State.setDie_modu (d : Die) : (s.setDie k d).modu j = s.modu j := rfl
@[simp] theorem State.setDie_die (d : Die) : (s.setDie k d).die j = if j = k then d else s.die j := tget_tset _ _ _ _
@[simp] theorem State.updDie_sched (f : Die → Die) : (s.updDie k f).sched = s.sched := rfl
@[simp] theorem State.updDie_free (f : Die → Die) : (s.updDie k f).free = s.free := rfl
@[simp] theorem State.updDie_cur (f : Die → Die) : (s.updDie k f).cur = s.cur := rfl
@[simp] theorem State.updDie_issue (f : Die → Die) : (s.updDie k f).issue = s.issue := rfl
@[simp] theorem State.updDie_now (f : Die → Die) : (s.updDie k f).now = s.now := rfl
@[simp] theorem State.updDie_mem (f : Die → Die) : (s.updDie k f).mem = s.mem := rfl
@[simp] theorem State.updDie_poison (f : Die → Die) : (s.updDie k f).poison = s.poison := rfl
@[simp] theorem State.updDie_ctxs (f : Die → Die) : (s.updDie k f).ctxs = s.ctxs := rfl
@[simp] theorem State.updDie_cores (f : Die → Die) : (s.updDie k f).cores = s.cores := rfl
@[simp] theorem State.updDie_quads (f : Die → Die) : (s.updDie k f).quads = s.quads := rfl
@[simp] theorem State.updDie_vats (f : Die → Die) : (s.updDie k f).vats = s.vats := rfl
@[simp] theorem State.updDie_mods (f : Die → Die) : (s.updDie k f).mods = s.mods := rfl
@[simp] theorem State.updDie_fars (f : Die → Die) : (s.updDie k f).fars = s.fars := rfl
@[simp] theorem State.updDie_uid (f : Die → Die) : (s.updDie k f).uid = s.uid := rfl
@[simp] theorem State.updDie_colls (f : Die → Die) : (s.updDie k f).colls = s.colls := rfl
@[simp] theorem State.updDie_parity (f : Die → Die) : (s.updDie k f).parity = s.parity := rfl
@[simp] theorem State.updDie_lag (f : Die → Die) : (s.updDie k f).lag = s.lag := rfl
@[simp] theorem State.updDie_ctx (f : Die → Die) : (s.updDie k f).ctx j = s.ctx j := rfl
@[simp] theorem State.updDie_core (f : Die → Die) : (s.updDie k f).core j = s.core j := rfl
@[simp] theorem State.updDie_quad (f : Die → Die) : (s.updDie k f).quad j = s.quad j := rfl
@[simp] theorem State.updDie_vat (f : Die → Die) : (s.updDie k f).vat j = s.vat j := rfl
@[simp] theorem State.updDie_modu (f : Die → Die) : (s.updDie k f).modu j = s.modu j := rfl
@[simp] theorem State.updDie_die (f : Die → Die) : (s.updDie k f).die j = if j = k then f (s.die k) else s.die j := tget_tset _ _ _ _

@[simp] theorem State.setVat_sched (v : Vat) : (s.setVat k v).sched = s.sched := rfl
@[simp] theorem State.setVat_free (v : Vat) : (s.setVat k v).free = s.free := rfl
@[simp] theorem State.setVat_cur (v : Vat) : (s.setVat k v).cur = s.cur := rfl
@[simp] theorem State.setVat_issue (v : Vat) : (s.setVat k v).issue = s.issue := rfl
@[simp] theorem State.setVat_now (v : Vat) : (s.setVat k v).now = s.now := rfl
@[simp] theorem State.setVat_mem (v : Vat) : (s.setVat k v).mem = s.mem := rfl
@[simp] theorem State.setVat_poison (v : Vat) : (s.setVat k v).poison = s.poison := rfl
@[simp] theorem State.setVat_ctxs (v : Vat) : (s.setVat k v).ctxs = s.ctxs := rfl
@[simp] theorem State.setVat_cores (v : Vat) : (s.setVat k v).cores = s.cores := rfl
@[simp] theorem State.setVat_quads (v : Vat) : (s.setVat k v).quads = s.quads := rfl
@[simp] theorem State.setVat_dies (v : Vat) : (s.setVat k v).dies = s.dies := rfl
@[simp] theorem State.setVat_mods (v : Vat) : (s.setVat k v).mods = s.mods := rfl
@[simp] theorem State.setVat_fars (v : Vat) : (s.setVat k v).fars = s.fars := rfl
@[simp] theorem State.setVat_uid (v : Vat) : (s.setVat k v).uid = s.uid := rfl
@[simp] theorem State.setVat_colls (v : Vat) : (s.setVat k v).colls = s.colls := rfl
@[simp] theorem State.setVat_parity (v : Vat) : (s.setVat k v).parity = s.parity := rfl
@[simp] theorem State.setVat_lag (v : Vat) : (s.setVat k v).lag = s.lag := rfl
@[simp] theorem State.setVat_ctx (v : Vat) : (s.setVat k v).ctx j = s.ctx j := rfl
@[simp] theorem State.setVat_core (v : Vat) : (s.setVat k v).core j = s.core j := rfl
@[simp] theorem State.setVat_quad (v : Vat) : (s.setVat k v).quad j = s.quad j := rfl
@[simp] theorem State.setVat_die (v : Vat) : (s.setVat k v).die j = s.die j := rfl
@[simp] theorem State.setVat_modu (v : Vat) : (s.setVat k v).modu j = s.modu j := rfl
@[simp] theorem State.setVat_vat (v : Vat) : (s.setVat k v).vat j = if j = k then v else s.vat j := tget_tset _ _ _ _
@[simp] theorem State.updVat_sched (f : Vat → Vat) : (s.updVat k f).sched = s.sched := rfl
@[simp] theorem State.updVat_free (f : Vat → Vat) : (s.updVat k f).free = s.free := rfl
@[simp] theorem State.updVat_cur (f : Vat → Vat) : (s.updVat k f).cur = s.cur := rfl
@[simp] theorem State.updVat_issue (f : Vat → Vat) : (s.updVat k f).issue = s.issue := rfl
@[simp] theorem State.updVat_now (f : Vat → Vat) : (s.updVat k f).now = s.now := rfl
@[simp] theorem State.updVat_mem (f : Vat → Vat) : (s.updVat k f).mem = s.mem := rfl
@[simp] theorem State.updVat_poison (f : Vat → Vat) : (s.updVat k f).poison = s.poison := rfl
@[simp] theorem State.updVat_ctxs (f : Vat → Vat) : (s.updVat k f).ctxs = s.ctxs := rfl
@[simp] theorem State.updVat_cores (f : Vat → Vat) : (s.updVat k f).cores = s.cores := rfl
@[simp] theorem State.updVat_quads (f : Vat → Vat) : (s.updVat k f).quads = s.quads := rfl
@[simp] theorem State.updVat_dies (f : Vat → Vat) : (s.updVat k f).dies = s.dies := rfl
@[simp] theorem State.updVat_mods (f : Vat → Vat) : (s.updVat k f).mods = s.mods := rfl
@[simp] theorem State.updVat_fars (f : Vat → Vat) : (s.updVat k f).fars = s.fars := rfl
@[simp] theorem State.updVat_uid (f : Vat → Vat) : (s.updVat k f).uid = s.uid := rfl
@[simp] theorem State.updVat_colls (f : Vat → Vat) : (s.updVat k f).colls = s.colls := rfl
@[simp] theorem State.updVat_parity (f : Vat → Vat) : (s.updVat k f).parity = s.parity := rfl
@[simp] theorem State.updVat_lag (f : Vat → Vat) : (s.updVat k f).lag = s.lag := rfl
@[simp] theorem State.updVat_ctx (f : Vat → Vat) : (s.updVat k f).ctx j = s.ctx j := rfl
@[simp] theorem State.updVat_core (f : Vat → Vat) : (s.updVat k f).core j = s.core j := rfl
@[simp] theorem State.updVat_quad (f : Vat → Vat) : (s.updVat k f).quad j = s.quad j := rfl
@[simp] theorem State.updVat_die (f : Vat → Vat) : (s.updVat k f).die j = s.die j := rfl
@[simp] theorem State.updVat_modu (f : Vat → Vat) : (s.updVat k f).modu j = s.modu j := rfl
@[simp] theorem State.updVat_vat (f : Vat → Vat) : (s.updVat k f).vat j = if j = k then f (s.vat k) else s.vat j := tget_tset _ _ _ _

@[simp] theorem State.setMod_sched (m : Modu) : (s.setMod k m).sched = s.sched := rfl
@[simp] theorem State.setMod_free (m : Modu) : (s.setMod k m).free = s.free := rfl
@[simp] theorem State.setMod_cur (m : Modu) : (s.setMod k m).cur = s.cur := rfl
@[simp] theorem State.setMod_issue (m : Modu) : (s.setMod k m).issue = s.issue := rfl
@[simp] theorem State.setMod_now (m : Modu) : (s.setMod k m).now = s.now := rfl
@[simp] theorem State.setMod_mem (m : Modu) : (s.setMod k m).mem = s.mem := rfl
@[simp] theorem State.setMod_poison (m : Modu) : (s.setMod k m).poison = s.poison := rfl
@[simp] theorem State.setMod_ctxs (m : Modu) : (s.setMod k m).ctxs = s.ctxs := rfl
@[simp] theorem State.setMod_cores (m : Modu) : (s.setMod k m).cores = s.cores := rfl
@[simp] theorem State.setMod_quads (m : Modu) : (s.setMod k m).quads = s.quads := rfl
@[simp] theorem State.setMod_dies (m : Modu) : (s.setMod k m).dies = s.dies := rfl
@[simp] theorem State.setMod_vats (m : Modu) : (s.setMod k m).vats = s.vats := rfl
@[simp] theorem State.setMod_fars (m : Modu) : (s.setMod k m).fars = s.fars := rfl
@[simp] theorem State.setMod_uid (m : Modu) : (s.setMod k m).uid = s.uid := rfl
@[simp] theorem State.setMod_colls (m : Modu) : (s.setMod k m).colls = s.colls := rfl
@[simp] theorem State.setMod_parity (m : Modu) : (s.setMod k m).parity = s.parity := rfl
@[simp] theorem State.setMod_lag (m : Modu) : (s.setMod k m).lag = s.lag := rfl
@[simp] theorem State.setMod_ctx (m : Modu) : (s.setMod k m).ctx j = s.ctx j := rfl
@[simp] theorem State.setMod_core (m : Modu) : (s.setMod k m).core j = s.core j := rfl
@[simp] theorem State.setMod_quad (m : Modu) : (s.setMod k m).quad j = s.quad j := rfl
@[simp] theorem State.setMod_die (m : Modu) : (s.setMod k m).die j = s.die j := rfl
@[simp] theorem State.setMod_vat (m : Modu) : (s.setMod k m).vat j = s.vat j := rfl
@[simp] theorem State.setMod_modu (m : Modu) : (s.setMod k m).modu j = if j = k then m else s.modu j := tget_tset _ _ _ _
@[simp] theorem State.updMod_sched (f : Modu → Modu) : (s.updMod k f).sched = s.sched := rfl
@[simp] theorem State.updMod_free (f : Modu → Modu) : (s.updMod k f).free = s.free := rfl
@[simp] theorem State.updMod_cur (f : Modu → Modu) : (s.updMod k f).cur = s.cur := rfl
@[simp] theorem State.updMod_issue (f : Modu → Modu) : (s.updMod k f).issue = s.issue := rfl
@[simp] theorem State.updMod_now (f : Modu → Modu) : (s.updMod k f).now = s.now := rfl
@[simp] theorem State.updMod_mem (f : Modu → Modu) : (s.updMod k f).mem = s.mem := rfl
@[simp] theorem State.updMod_poison (f : Modu → Modu) : (s.updMod k f).poison = s.poison := rfl
@[simp] theorem State.updMod_ctxs (f : Modu → Modu) : (s.updMod k f).ctxs = s.ctxs := rfl
@[simp] theorem State.updMod_cores (f : Modu → Modu) : (s.updMod k f).cores = s.cores := rfl
@[simp] theorem State.updMod_quads (f : Modu → Modu) : (s.updMod k f).quads = s.quads := rfl
@[simp] theorem State.updMod_dies (f : Modu → Modu) : (s.updMod k f).dies = s.dies := rfl
@[simp] theorem State.updMod_vats (f : Modu → Modu) : (s.updMod k f).vats = s.vats := rfl
@[simp] theorem State.updMod_fars (f : Modu → Modu) : (s.updMod k f).fars = s.fars := rfl
@[simp] theorem State.updMod_uid (f : Modu → Modu) : (s.updMod k f).uid = s.uid := rfl
@[simp] theorem State.updMod_colls (f : Modu → Modu) : (s.updMod k f).colls = s.colls := rfl
@[simp] theorem State.updMod_parity (f : Modu → Modu) : (s.updMod k f).parity = s.parity := rfl
@[simp] theorem State.updMod_lag (f : Modu → Modu) : (s.updMod k f).lag = s.lag := rfl
@[simp] theorem State.updMod_ctx (f : Modu → Modu) : (s.updMod k f).ctx j = s.ctx j := rfl
@[simp] theorem State.updMod_core (f : Modu → Modu) : (s.updMod k f).core j = s.core j := rfl
@[simp] theorem State.updMod_quad (f : Modu → Modu) : (s.updMod k f).quad j = s.quad j := rfl
@[simp] theorem State.updMod_die (f : Modu → Modu) : (s.updMod k f).die j = s.die j := rfl
@[simp] theorem State.updMod_vat (f : Modu → Modu) : (s.updMod k f).vat j = s.vat j := rfl
@[simp] theorem State.updMod_modu (f : Modu → Modu) : (s.updMod k f).modu j = if j = k then f (s.modu k) else s.modu j := tget_tset _ _ _ _

end

/- The running context. -/
theorem State.updCur_eq (s : State) (f : Ctx → Ctx) : s.updCur f = s.updCtx s.cur f := rfl
@[simp] theorem State.updCur_cc (s : State) (f : Ctx → Ctx) : (s.updCur f).cc = f s.cc := by
  simp [State.cc, State.updCur]
@[simp] theorem State.updCur_ctx (s : State) (f : Ctx → Ctx) (j : Nat) :
    (s.updCur f).ctx j = if j = s.cur then f s.cc else s.ctx j := by
  simp [State.cc, State.updCur]
@[simp] theorem State.updCur_sched (s : State) (f : Ctx → Ctx) : (s.updCur f).sched = s.sched := rfl
@[simp] theorem State.updCur_free (s : State) (f : Ctx → Ctx) : (s.updCur f).free = s.free := rfl
@[simp] theorem State.updCur_cur (s : State) (f : Ctx → Ctx) : (s.updCur f).cur = s.cur := rfl
@[simp] theorem State.updCur_issue (s : State) (f : Ctx → Ctx) : (s.updCur f).issue = s.issue := rfl
@[simp] theorem State.updCur_now (s : State) (f : Ctx → Ctx) : (s.updCur f).now = s.now := rfl
@[simp] theorem State.updCur_mem (s : State) (f : Ctx → Ctx) : (s.updCur f).mem = s.mem := rfl
@[simp] theorem State.updCur_poison (s : State) (f : Ctx → Ctx) : (s.updCur f).poison = s.poison := rfl
@[simp] theorem State.updCur_cores (s : State) (f : Ctx → Ctx) : (s.updCur f).cores = s.cores := rfl
@[simp] theorem State.updCur_quads (s : State) (f : Ctx → Ctx) : (s.updCur f).quads = s.quads := rfl
@[simp] theorem State.updCur_dies (s : State) (f : Ctx → Ctx) : (s.updCur f).dies = s.dies := rfl
@[simp] theorem State.updCur_vats (s : State) (f : Ctx → Ctx) : (s.updCur f).vats = s.vats := rfl
@[simp] theorem State.updCur_mods (s : State) (f : Ctx → Ctx) : (s.updCur f).mods = s.mods := rfl
@[simp] theorem State.updCur_fars (s : State) (f : Ctx → Ctx) : (s.updCur f).fars = s.fars := rfl
@[simp] theorem State.updCur_uid (s : State) (f : Ctx → Ctx) : (s.updCur f).uid = s.uid := rfl
@[simp] theorem State.updCur_colls (s : State) (f : Ctx → Ctx) : (s.updCur f).colls = s.colls := rfl
@[simp] theorem State.updCur_parity (s : State) (f : Ctx → Ctx) : (s.updCur f).parity = s.parity := rfl
@[simp] theorem State.updCur_lag (s : State) (f : Ctx → Ctx) : (s.updCur f).lag = s.lag := rfl
@[simp] theorem State.updCur_core (s : State) (f : Ctx → Ctx) (j : Nat) : (s.updCur f).core j = s.core j := rfl
@[simp] theorem State.updCur_quad (s : State) (f : Ctx → Ctx) (j : Nat) : (s.updCur f).quad j = s.quad j := rfl
@[simp] theorem State.updCur_die (s : State) (f : Ctx → Ctx) (j : Nat) : (s.updCur f).die j = s.die j := rfl
@[simp] theorem State.updCur_vat (s : State) (f : Ctx → Ctx) (j : Nat) : (s.updCur f).vat j = s.vat j := rfl
@[simp] theorem State.updCur_modu (s : State) (f : Ctx → Ctx) (j : Nat) : (s.updCur f).modu j = s.modu j := rfl
@[simp] theorem State.setCore_cc (s : State) (k : Nat) (x : Core) : (s.setCore k x).cc = s.cc := rfl
@[simp] theorem State.updCore_cc (s : State) (k : Nat) (f : Core → Core) : (s.updCore k f).cc = s.cc := rfl
@[simp] theorem State.setQuad_cc (s : State) (k : Nat) (q : Quad) : (s.setQuad k q).cc = s.cc := rfl
@[simp] theorem State.updQuad_cc (s : State) (k : Nat) (f : Quad → Quad) : (s.updQuad k f).cc = s.cc := rfl
@[simp] theorem State.setDie_cc (s : State) (k : Nat) (d : Die) : (s.setDie k d).cc = s.cc := rfl
@[simp] theorem State.updDie_cc (s : State) (k : Nat) (f : Die → Die) : (s.updDie k f).cc = s.cc := rfl
@[simp] theorem State.setVat_cc (s : State) (k : Nat) (v : Vat) : (s.setVat k v).cc = s.cc := rfl
@[simp] theorem State.updVat_cc (s : State) (k : Nat) (f : Vat → Vat) : (s.updVat k f).cc = s.cc := rfl
@[simp] theorem State.setMod_cc (s : State) (k : Nat) (m : Modu) : (s.setMod k m).cc = s.cc := rfl
@[simp] theorem State.updMod_cc (s : State) (k : Nat) (f : Modu → Modu) : (s.updMod k f).cc = s.cc := rfl

end Sys2Proof.Machine
end

