-- ==== Sys2Proof/Laws/Ops.lean ====
section
/-! SUPPORT. What the shared operations do: bytes of memory, landing and delivering results, traps, and the run of one
slot. -/

namespace Sys2Proof.Machine

/- Sets of numbers -/

theorem mem_nsAdd (l : List Nat) (k j : Nat) : j ∈ nsAdd l k ↔ j = k ∨ j ∈ l := by
  induction l with
  | nil => simp [nsAdd]
  | cons x t ih =>
    unfold nsAdd
    by_cases h1 : k < x
    · simp [h1]
    · by_cases h2 : k = x
      · subst h2
        simp only [Nat.lt_irrefl, if_false, if_true, List.mem_cons]
        exact ⟨Or.inr, fun h => h.elim Or.inl id⟩
      · simp only [h1, h2, if_false, List.mem_cons, ih]
        exact or_left_comm

/- Bytes -/

theorem State.byte_congr {s t : State} (hm : t.mem = s.mem) (hq : t.quads = s.quads) (loc : Nat) :
    t.byte loc = s.byte loc := by
  simp [State.byte, State.quad, hm, hq]

@[simp] theorem State.withMem_quad (s : State) (m : List Host.Cell) (k : Nat) :
    ({ s with mem := m } : State).quad k = s.quad k := rfl

/-- A byte read after one byte is written. -/
theorem State.byte_setByte (s : State) (l j : Nat) (b : Byte) :
    (s.setByte l b).byte j = if j = l then b else s.byte j := by
  unfold State.setByte State.byte
  by_cases hs : isSpad l = true
  · by_cases hj : isSpad j = true
    · by_cases hq : spadCore j / 4 = spadCore l / 4
      · by_cases h : j = l
        · subst h; simp [hs, mem_nsAdd, cellGet_cellSet]
        · simp [hs, hj, hq, h, mem_nsAdd, cellGet_cellSet]
      · have h : j ≠ l := fun e => hq (by rw [e])
        simp [hs, hj, hq, h, cellGet_cellSet]
    · have h : j ≠ l := fun e => hj (by rw [e]; exact hs)
      simp [hs, hj, h, cellGet_cellSet]
  · by_cases hj : isSpad j = true
    · have h : j ≠ l := fun e => hs (by rw [← e]; exact hj)
      simp [hs, hj, h, cellGet_cellSet]
    · simp [hs, hj, cellGet_cellSet]

@[simp] theorem State.setByte_poison (s : State) (l : Nat) (b : Byte) : (s.setByte l b).poison = s.poison := by
  unfold State.setByte; split <;> rfl
@[simp] theorem State.setByte_ctxs (s : State) (l : Nat) (b : Byte) : (s.setByte l b).ctxs = s.ctxs := by
  unfold State.setByte; split <;> rfl
@[simp] theorem State.setByte_cores (s : State) (l : Nat) (b : Byte) : (s.setByte l b).cores = s.cores := by
  unfold State.setByte; split <;> rfl
@[simp] theorem State.setByte_mem (s : State) (l : Nat) (b : Byte) : (s.setByte l b).mem = cellSet s.mem l b := by
  unfold State.setByte; split <;> rfl

/-- A location that is not among those written reads as before. -/
theorem State.byte_setBytes_other (ws : List (Nat × Byte)) (s : State) (j : Nat) (h : ∀ w ∈ ws, w.1 ≠ j) :
    (s.setBytes ws).byte j = s.byte j := by
  unfold State.setBytes
  induction ws generalizing s with
  | nil => rfl
  | cons w t ih =>
    have hw : j ≠ w.1 := fun e => h w List.mem_cons_self e.symm
    simp only [List.foldl_cons]
    rw [ih _ fun x hx => h x (List.mem_cons_of_mem _ hx), State.byte_setByte]
    simp [hw]

@[simp] theorem State.setByte_wf (s : State) (l : Nat) (b : Byte) (h : Memory.wf s.mem = true) :
    Memory.wf (s.setByte l b).mem = true := by
  rw [State.setByte_mem]; exact memory_wf_cellSet _ _ _ h

/-- Writing any list of bytes keeps memory's canonical form. -/
theorem State.setBytes_wf (ws : List (Nat × Byte)) (s : State) (h : Memory.wf s.mem = true) :
    Memory.wf (s.setBytes ws).mem = true := by
  unfold State.setBytes
  induction ws generalizing s with
  | nil => exact h
  | cons w t ih => exact ih _ (State.setByte_wf s w.1 w.2 h)

@[simp] theorem State.setBad_mem (s : State) (u : Nat) : (s.setBad u).mem = s.mem := rfl
@[simp] theorem State.clearBad_mem (s : State) (u : Nat) : (s.clearBad u).mem = s.mem := rfl
@[simp] theorem State.healWhole_mem (s : State) (l : List Nat) : (s.healWhole l).mem = s.mem := rfl
@[simp] theorem State.healWhole_byte (s : State) (l : List Nat) (j : Nat) : (s.healWhole l).byte j = s.byte j := rfl

/- Landing: nothing but the running context's landing buffer changes -/

@[simp] theorem State.land_mem (s : State) (slot L : Nat) (e : Landing) : (s.land slot L e).mem = s.mem := rfl
@[simp] theorem State.land_quads (s : State) (slot L : Nat) (e : Landing) : (s.land slot L e).quads = s.quads := rfl
@[simp] theorem State.land_cores (s : State) (slot L : Nat) (e : Landing) : (s.land slot L e).cores = s.cores := rfl
@[simp] theorem State.land_dies (s : State) (slot L : Nat) (e : Landing) : (s.land slot L e).dies = s.dies := rfl
@[simp] theorem State.land_vats (s : State) (slot L : Nat) (e : Landing) : (s.land slot L e).vats = s.vats := rfl
@[simp] theorem State.land_poison (s : State) (slot L : Nat) (e : Landing) : (s.land slot L e).poison = s.poison := rfl
@[simp] theorem State.land_cur (s : State) (slot L : Nat) (e : Landing) : (s.land slot L e).cur = s.cur := rfl
@[simp] theorem State.land_issue (s : State) (slot L : Nat) (e : Landing) : (s.land slot L e).issue = s.issue := rfl
@[simp] theorem State.land_now (s : State) (slot L : Nat) (e : Landing) : (s.land slot L e).now = s.now := rfl

/-- The level of a context with its level state replaced. -/
@[simp] theorem Ctx.setLv_lv (c : Ctx) (l : LevelSt) : (c.setLv l).lv = l := by
  unfold Ctx.setLv Ctx.lv
  by_cases h : c.level = 0 <;> simp [h]
@[simp] theorem Ctx.setLv_level (c : Ctx) (l : LevelSt) : (c.setLv l).level = c.level := by
  unfold Ctx.setLv; split <;> rfl
@[simp] theorem Ctx.setLv_s (c : Ctx) (l : LevelSt) : (c.setLv l).s = c.s := by unfold Ctx.setLv; split <;> rfl
@[simp] theorem Ctx.setLv_p (c : Ctx) (l : LevelSt) : (c.setLv l).p = c.p := by unfold Ctx.setLv; split <;> rfl
@[simp] theorem Ctx.setLv_k (c : Ctx) (l : LevelSt) : (c.setLv l).k = c.k := by unfold Ctx.setLv; split <;> rfl
@[simp] theorem Ctx.setLv_o (c : Ctx) (l : LevelSt) : (c.setLv l).o = c.o := by unfold Ctx.setLv; split <;> rfl
@[simp] theorem Ctx.setLv_fmt (c : Ctx) (l : LevelSt) : (c.setLv l).fmt = c.fmt := by unfold Ctx.setLv; split <;> rfl
@[simp] theorem Ctx.setLv_key (c : Ctx) (l : LevelSt) : (c.setLv l).key = c.key := by unfold Ctx.setLv; split <;> rfl
@[simp] theorem Ctx.setLv_status (c : Ctx) (l : LevelSt) : (c.setLv l).status = c.status := by
  unfold Ctx.setLv; split <;> rfl
@[simp] theorem Ctx.setLv_pc (c : Ctx) (l : LevelSt) : (c.setLv l).pc = c.pc := by unfold Ctx.setLv; split <;> rfl

/- Registers -/

/-- A scalar register read after one is written: register 0 stays 0 (03 R56). -/
theorem Ctx.sr_putS (c : Ctx) (n j : Nat) (v : Word) :
    (c.putS n v).sr j = if j = 0 then 0 else if j = n then v else c.sr j := by
  unfold Ctx.putS Ctx.sr
  by_cases hj : j = 0
  · simp [hj]
  · by_cases hn : n = 0
    · have h : j ≠ n := fun e => hj (e.trans hn)
      simp [hj, hn]
    · simp [hj, hn, tget_tset]

/-- A predicate read after one is written: predicate 0 stays true (03 R56). -/
theorem Ctx.pr_putP (c : Ctx) (n j : Nat) (v : Bool) :
    (c.putP n v).pr j = if j = 0 then true else if j = n then v else c.pr j := by
  unfold Ctx.putP Ctx.pr
  by_cases hj : j = 0
  · simp [hj]
  · by_cases hn : n = 0
    · simp [hj, hn]
    · by_cases h : j = n <;> simp [hj, hn, h, tget_tset]

/-- A lane mask read after one is written: mask 0 stays all ones (03 R56). -/
theorem Ctx.kr_putK (c : Ctx) (n j : Nat) (v : Mask) :
    (c.putK n v).kr j = if j = 0 then BitVec.allOnes 128 else if j = n then v else c.kr j := by
  unfold Ctx.putK Ctx.kr
  by_cases hj : j = 0
  · simp [hj]
  · by_cases hn : n = 0
    · simp [hj, hn]
    · simp [hj, hn, tget_tset]

/- The run of one slot -/

/-- A slot whose bundle has passed its checks has its effect where its predicate is true (02 R37). -/
theorem runOp_open (o : SlotOp) (s : State) (h : s.issue.active = true) :
    runOp o s = .next (if o.active s then o.eff s else s) := by
  simp [runOp, h]

/-- The same for a slot that stands alone in a bundle that neither traps nor waits. -/
theorem runOp_cleared (o : SlotOp) (s : State)
    (h : s.issue.active = true ∨ (s.bundleTrap [o] = none ∧ s.bundleWaits [o] = false)) :
    runOp o s = .next (if o.active s then o.eff s else s) := by
  rcases h with h | ⟨h1, h2⟩
  · exact runOp_open o s h
  · unfold runOp
    by_cases ha : s.issue.active = true
    · simp [ha]
    · simp [ha, h1, h2]

/-- A slot alone in its bundle that traps takes its trap and nothing else (17 R356). -/
theorem runOp_trap (o : SlotOp) (s : State) (x : SlotOp × Trap) (ha : s.issue.active = false)
    (h : s.bundleTrap [o] = some x) : runOp o s = .next (s.raise x.1 x.2) := by
  simp [runOp, ha, h]

/-- A slot never stops the machine. -/
theorem runOp_next (o : SlotOp) (s : State) : ∃ t, runOp o s = .next t := by
  unfold runOp
  split
  · exact ⟨_, rfl⟩
  · split
    · exact ⟨_, rfl⟩
    · split <;> exact ⟨_, rfl⟩

/-- The trap of a bundle of one slot, in the order of 02 Table 2.5. -/
theorem bundleTrap_one (o : SlotOp) (s : State) :
    s.bundleTrap [o] =
      if o.rangeBad s then some (o, ⟨cRANGE, o.slot, 0⟩)
      else match o.priv s.cc.level with
        | some v => some (o, ⟨cPRIV, o.slot, v⟩)
        | none => (o.execTrap s).map fun t => (o, t) := by
  unfold State.bundleTrap firstTrap firstTrap
  by_cases h : o.rangeBad s = true
  · simp [h]
  · simp only [h, if_false, Bool.false_eq_true]
    cases hp : o.priv s.cc.level with
    | some v => simp
    | none =>
      cases o.execTrap s <;> simp

end Sys2Proof.Machine
end

