-- ==== Sys2Proof/Tests/Slice0.lean ====
section
/-! SUPPORT. The model's own tests: ill-formed terms that WellFormed refuses, words of the specification's encodings that decode
to their instructions, small results that the specification states, and for each statement with hypotheses states and
operands that meet them. -/

set_option Elab.async false

namespace Sys2Proof.Tests

open Sys2Proof Sys2Proof.Machine Sys2Proof.Claims

/- Well-formedness: one ill-formed term for each check -/

/-- A slot V0 header of the full width under k0. -/
def hdr : VHdr := { v1 := false, width := .w1024, mask := 0 }
def imm0 : Opnd := .imm 0
def o2 : Opnd := .opr 2
def o3 : Opnd := .opr 3
def row0 : Opnd := .main .row 0 0
def col0 : Opnd := .main .col 0 0

theorem test_wf_types : (Instr.vadd hdr .ui8 o2 o2 o2).wf = false ∧ (Instr.vfma hdr .i32 o2 o2 o2).wf = false ∧
    (Instr.vadds hdr .f32 o2 o2 o2).wf = false ∧ (Instr.vabs hdr .ui8 o2 o2).wf = false ∧ (Instr.vshl hdr .f32 o2 o2 o2).wf = false ∧
    (Instr.vmov hdr .bf16 o2 o2).wf = false ∧ (Instr.vredsum hdr .i16 o2 o2).wf = false ∧
    (Instr.vexp2 hdr .i32 o2 o2).wf = false := by decide
theorem test_wf_operands : (Instr.vmin hdr .f32 imm0 o2 o2).wf = false ∧ (Instr.vmin hdr .f32 o2 imm0 o2).wf = false ∧
    (Instr.vmin hdr .f32 (.lat true) o2 o2).wf = false ∧ (Instr.vcmpeq hdr .f32 1 imm0 o2).wf = false ∧
    (Instr.vperm hdr o2 o2 imm0).wf = false ∧ (Instr.vredmax hdr .f32 imm0 o2).wf = false ∧
    (Instr.vredmask hdr o2 o3 o2).wf = false ∧ (Instr.vredmask hdr o2 col0 o2).wf = false ∧
    (Instr.vredmask hdr o2 row0 imm0).wf = false ∧ (Instr.vrand hdr imm0 o2 o2).wf = false := by decide
theorem test_wf_lanes : (Instr.vrot hdr .i32 o2 o2 32).wf = false ∧ (Instr.vrot hdr .i32 o2 o2 31).wf = true ∧
    (Instr.vbfly hdr .f32 o2 o2 1).wf = false ∧ (Instr.vbcast hdr .i8 o2 o2 128).wf = false := by decide
theorem test_wf_convert : (Instr.vcvt hdr o2 o2 ⟨5, 0, 1⟩).wf = false ∧ (Instr.vcvt hdr o2 o2 ⟨0, 9, 1⟩).wf = false ∧
    (Instr.vcvt hdr o2 o2 ⟨0, 0, 8⟩).wf = false ∧ (Instr.vcvt hdr o2 o3 ⟨4, 0, 1⟩).wf = false ∧
    (Instr.vcvt hdr o2 o2 ⟨4, 1, 0⟩).wf = false ∧ (Instr.vcvt hdr o2 col0 ⟨0, 3, 0⟩).wf = false ∧
    (Instr.vcvt hdr col0 o2 ⟨0, 0, 3⟩).wf = false ∧ (Instr.vcvt hdr o2 o2 ⟨4, 0, 1⟩).wf = true := by decide
theorem test_wf_mx : (Instr.vmxq hdr 2 o2 ⟨0, 3, 3⟩).wf = false ∧ (Instr.vmxq hdr 2 o2 ⟨0, 0, 0⟩).wf = false ∧
    (Instr.vmxq { hdr with mask := 1 } 2 o2 ⟨0, 0, 3⟩).wf = false ∧ (Instr.vmxq { hdr with width := .w256 } 2 o2 ⟨0, 0, 3⟩).wf = false ∧
    (Instr.vmxdq hdr o2 2 ⟨4, 3, 0⟩).wf = false ∧ (Instr.vmxdq hdr o2 2 ⟨0, 3, 3⟩).wf = false ∧
    (Instr.vmxdq hdr imm0 2 ⟨0, 3, 0⟩).wf = false ∧ (Instr.vmxq hdr 2 o2 ⟨0, 0, 3⟩).wf = true := by decide
theorem test_wf_fields : (Instr.bfx 0 1 2 60 4).wf = false ∧ (Instr.bfx 0 1 2 60 3).wf = true ∧ (Instr.bfi 0 1 2 3 63 1).wf = false ∧
    (Instr.semSig 0 1 0).wf = false ∧ (Instr.semWait 0 1 0).wf = false ∧
    (Instr.amoCas 0 .die .relaxed true true 1 2 3).wf = false ∧ (Instr.famoCas 0 .release true true 1 2 3).wf = false ∧
    (Instr.copyHoop 0 ⟨0, 0, 1, 2⟩ 0 false).wf = false := by decide

/- Decoding: words written out from the encodings of the specification -/

/-- A word stands alone in a literal bundle, in its slot, with the escape word lowest. -/
def lit (slot w : Nat) : Nat := 0xF000 + w * 2 ^ slotBase slot * 2 ^ 16

/-- 07 §7.8, sum4: entries E0 to E6. -/
theorem test_decode_scalar : decodeTableWord 400 (lit 3 0x004000003006) = some (.loopi 0 4 6) ∧
    decodeTableWord 400 (lit 4 0x000000841020) = some (.addi 0 2 2 1) ∧
    decodeTableWord 400 (lit 4 0x000001061801) = some (.add 0 3 3 2) ∧
    decodeTableWord 400 (lit 4 0x000002860833) = some (.cmpiGe 0 1 3 5) ∧
    decodeTableWord 400 (lit 3 0x000000001101) = some (.br 1 2) ∧
    decodeTableWord 400 (lit 3 0x000000000021) = some (.wheelEnd 0) := by decide +kernel
/-- 07 R161, R160, R154, 17 R363, 16 R338. -/
theorem test_decode_control : decodeTableWord 400 (lit 3 0x00091A000020) = some (.brk 0 0x1234) ∧
    decodeTableWord 400 (lit 3 0x010000000018) = some (.bar 0 .quad) ∧
    decodeTableWord 400 (lit 3 0x07FFF80FF808) = some (.waitc 0 255 1 255 255) ∧
    decodeTableWord 400 (lit 3 0x0000000A0032) = some (.ssave 0 5) ∧
    decodeTableWord 400 (lit 3 0x0000008E0022) = some (.wheelSpawnCore 0 7) := by decide +kernel
/-- 08 R187, R189, 09 Example 9.1. -/
theorem test_decode_vector : decodeTableWord 400 (lit 0 0x00002000500040D8) =
      some (.vexp2 { v1 := false, width := .w256, mask := 0 } .f32 (.opr 2) (.opr 1)) ∧
    decodeTableWord 400 (lit 1 0xC000200110013004) =
      some (.vrand { v1 := true, width := .w1024, mask := 0 } (.opr 9) (.opr 4) (.imm 0)) ∧
    decodeTableWord 400 (lit 0 0xC001805000001006) = some (.panePark false 5 3) := by decide +kernel
/-- 10 Examples 10.1 to 10.3, R218. -/
theorem test_decode_memory : decodeTableWord 400 (lit 6 0x000000083003) = some (.stw 0 6 4 0) ∧
    decodeTableWord 400 (lit 5 0x00000008100A) = some (.ldmx 0 false .w256 2 4 0) ∧
    decodeTableWord 400 (lit 5 0x01EA0388301A) = some (.amoCas 0 .die .acqRel true true 6 4 7) ∧
    decodeTableWord 400 (lit 5 0xFE + 0xFE * 2 ^ slotBase 6 * 2 ^ 16) = some .mark := by decide +kernel
/-- 12 R257, R265, 13 R283, R298, R303, 18 R396, R406. -/
theorem test_decode_engine : decodeTableWord 400 (lit 2 0x803) = some (.pressClaim 0 true) ∧
    decodeTableWord 400 (lit 2 0x0A2189106C000009) = some (.pressRun 0 ⟨0x0A21, 2, 9, 4⟩ 6 true true false) ∧
    decodeTableWord 400 (lit 2 0x01006A2400200510) = some (.copyBb 5 ⟨0x0100, 1, 42, 9⟩ 0 false) ∧
    decodeTableWord 400 (lit 2 0x00000000E0103038) = some (.bbExpect 0 6 7 8) ∧
    decodeTableWord 400 (lit 2 0x00000000000E3040) = some (.moldGet 0 6 7) ∧
    decodeTableWord 400 (lit 2 0x0C018C1400000018) = some (.coll 0 ⟨0x0C01, 2, 12, 5⟩) ∧
    decodeTableWord 400 (lit 2 0x0A110A1060000019) = some (.caveUpd 0 ⟨0x0A11, 0, 10, 4⟩ 6) := by decide +kernel
/-- Reserved encodings: C opcode 0x00 with a field set, a nonzero reserved bit of press.claim (12 R257), sel 1 of break
(07 R161), cmp with a reserved condition (07 R142). -/
theorem test_decode_refuses : decodeTableWord 400 (lit 3 0x0000000000FF) = none ∧
    decodeTableWord 400 (lit 2 0x1803) = none ∧ decodeTableWord 400 (lit 3 0x008000000020) = none ∧
    decodeTableWord 400 0xF001 = none := by decide +kernel

/- Small results -/

/-- The machine after reset with a bundle open, in which one instruction runs. -/
def opened : State := { issue := { active := true } }
/-- A context whose registers are set. -/
def withS (l : List (Nat × Nat)) (s : State) : State := s.setCtx 0 { s.ctx 0 with s := l.map fun x => (x.1, BitVec.ofNat 64 x.2) }
/-- A context whose operand registers are set. -/
def withO (l : List (Nat × Nat)) (s : State) : State := s.setCtx 0 { s.ctx 0 with o := l.map fun x => (x.1, BitVec.ofNat 1024 x.2) }
/-- Whether a next state is answered and meets a test. -/
def leads (i : Instr) (s : State) (p : State → Bool) : Bool := match exec i s with | .next t => p t | _ => false
/-- The results waiting in the landing buffer, as numbers, and the bundles they still wait. -/
def landed (s : State) : List (Nat × Nat) := s.cc.lv.land.map fun e => (e.value.toNat, e.rem)

/-- 07 Table 7.1: sums wrap; mulh is signed; a shift by 64 gives 0. -/
theorem test_add_wraps : leads (.add 0 3 1 2) (withS [(1, 2 ^ 64 - 1), (2, 2)] opened) (fun t => landed t == [(1, 0)]) = true := by
  decide +kernel
theorem test_mulh_signed : leads (.mulh 0 3 1 2) (withS [(1, 2 ^ 64 - 1), (2, 2)] opened)
    (fun t => landed t == [(2 ^ 64 - 1, 2)]) = true := by decide +kernel
theorem test_shl_past_width : leads (.shl 0 3 1 2) (withS [(1, 1), (2, 64)] opened) (fun t => landed t == [(0, 0)]) = true := by
  decide +kernel
/-- 07 Table 7.2: lcat appends 25 bits without a sign. -/
theorem test_lcat : leads (.lcat 0 3 1 0x1FFFFFF) (withS [(1, 1)] opened)
    (fun t => landed t == [(2 ^ 25 + 0x1FFFFFF, 0)]) = true := by decide +kernel
/-- 07 R141: lt is signed and ltu is not. -/
theorem test_cmp_signed : leads (.cmp 0 .lt 1 1 2) (withS [(1, 2 ^ 64 - 1), (2, 1)] opened) (fun t => landed t == [(1, 0)]) = true ∧
    leads (.cmp 0 .ltu 1 1 2) (withS [(1, 2 ^ 64 - 1), (2, 1)] opened) (fun t => landed t == [(0, 0)]) = true := by decide +kernel
/-- 07 R144: a bit field is sign-extended by bfx and not by bfxu. -/
theorem test_bfx_sign : leads (.bfx 0 3 1 4 3) (withS [(1, 0xF0)] opened) (fun t => landed t == [(2 ^ 64 - 1, 0)]) = true ∧
    leads (.bfxu 0 3 1 4 3) (withS [(1, 0xF0)] opened) (fun t => landed t == [(15, 0)]) = true := by decide +kernel
/-- 03 Table 3.1: s0 reads 0 and takes no result; p0 reads true. -/
theorem test_s0 : leads (.addi 0 0 0 5) opened (fun t => (t.cc.push { dest := .sreg 0, value := 5 }).sr 0 == 0 && t.cc.pr 0) = true := by
  decide +kernel

/-- 09 Example 9.1: vexp2 of 3.0, 128.0, -150.0, 0.5 and a NaN, with their flags. -/
theorem test_vexp2 : (sfu1 .exp2 fmtF32 (fmtF32.dec 0x40400000)).1 = 0x41000000 ∧
    sfu1 .exp2 fmtF32 (fmtF32.dec 0x43000000) = (0x7F800000, fOVF ||| fINX) ∧
    sfu1 .exp2 fmtF32 (fmtF32.dec 0xC3160000) = (0, fUNF ||| fINX) ∧
    (sfu1 .exp2 fmtF32 (fmtF32.dec 0x3F000000)).1 = 0x3FB504F3 ∧
    (sfu1 .exp2 fmtF32 (fmtF32.dec 0x7FA00000)).1 = 0x7FC00000 := by decide +kernel
/-- 08 Example 8.3: 13.0, 5.0, 0.7 and -3.0 quantised to E2M1: the bytes 0x47, 0xB1 with the scale 0x80, and INX. -/
theorem test_vmxq : (let r := mxQuantise (fpOf 3) (([0x41500000, 0x40A00000, 0x3F333333, 0xC0400000] ++ List.replicate 28 0).map
      fun x => (fmtF32.dec x, Mode.rne))
    (r.1, packElems 4 r.2.1, r.2.2 &&& (fINX ||| fOVF))) = (0x80, 0xB147, fINX) := by decide +kernel
/-- 08 Example 8.2: elements 0 and 1 of a masked rescaling reduction over three of four rows. -/
theorem test_vredmask : (rmElem [0x3F800000, 0x40200000, 0x3E800000] 4).1 = 0x40A00000 ∧
    rmElem [0x3F800000, 0x3F800000, 0] 4 = (0x402AAAAB, fINX) := by decide +kernel
/-- 08 Table 8.3, 04 R85: integer saturation to each type's range, with SATI where it changes the value. -/
theorem test_integer_saturation : saturated .i8 (100 + 100) = (127, fSATI) ∧ saturated .ui8 (-1) = (0, fSATI) ∧
    saturated .i16 (-32768) = (0x8000, 0) := by decide +kernel

/-- 10 Table 10.6: the signed maximum of 4-byte words; a failed compare writes nothing. -/
theorem test_amo : amoNew .max 4 0xFFFFFFFF 5 0 = some 5 ∧ amoNew .cas 4 5 6 7 = none ∧ amoNew .add 4 0xFFFFFFFF 2 0 = some 1 := by
  decide +kernel
/-- 11 Example 11.2: a token of a free slot is STALE. -/
theorem test_stale_token : leads (.embTest 0 3 1) (withS [(1, 0x80)] opened)
    (fun t => landed t == [(0x80 * 2 ^ 32 + 0x10, 0)]) = true := by decide +kernel
/-- 13 R298: an expectation of 0 with no arrivals completes at once: the phase turns, and d has the phase that was. -/
theorem test_bb_expect_zero : leads (.bbExpect 0 6 7 8) opened (fun t => landed t == [(0, 0)] && ((t.quad 0).bb 7).cur.phase &&
    !((t.quad 0).bb 7).cur.armed) = true := by decide +kernel
/-- 13 Table 13.8: a wheel whose vat has no granules gets 0xFFFF. -/
theorem test_mold_get_none : leads (.moldGet 0 6 7) (withS [(7, 1)] opened) (fun t => landed t == [(0xFFFF, 0)]) = true := by
  decide +kernel
/-- 12 R254: a lease is opened and waits for its grant. -/
theorem test_press_lease : leads (.pressLease 0) opened
    (fun t => ((t.quad 0).leases.map fun l => (l.ctx, l.cur.num, l.cur.isGranted)) == [(0, 1, false)]) = true := by decide +kernel

/-- A wheel of a vat on context 0 at level 0 with a handler at 0x100, between bundles. -/
def wheeled : State := { (State.reset.setCtx 0 {
    wheel := some { vat := 1, idx := 0, start := 0 }, phase := .running, tvec := 0x100, pc := 0x40 }) with
  vats := [(1, { phase := .running, desc := { wheels := 1, code := 2 ^ 32, codeLen := 64, entry := 2 ^ 32 } })] }
/-- 17 R356, 07 R161: break at pc 0x40. -/
theorem test_break : leads (.brk 0 0x1234) wheeled (fun t => t.cc.cause == 0x30B && t.cc.epc == 0x40 && t.cc.tval == 0x1234 &&
    t.cc.level == 1 && t.cc.pc == 0x100) = true := by decide +kernel
/-- 10 R201, 17 Table 17.1: a word load whose last bytes lie past the own scratchpad is XLATE_MISS at the first byte after it. -/
theorem test_load_past_end : leads (.ldw 0 3 1 0) (withS [(1, 2 ^ 20 - 2)] wheeled)
    (fun t => t.cc.cause == 0x507 && t.cc.tval == 2 ^ 20) = true := by decide +kernel
/-- 17 R362: tret at level 1 returns to EPC; at level 0 it is PRIVILEGED with its opcode as TVAL. -/
theorem test_tret : leads (.tret 0) (wheeled.updCur fun c => { c with level := 1, epc := 0x80 })
      (fun t => t.cc.level == 0 && t.cc.pc == 0x80) = true ∧
    leads (.tret 0) wheeled (fun t => t.cc.cause == 0x305 && t.cc.tval == 0x30) = true := by decide +kernel
/-- 07 R151: the end of a loop body with passes left goes back to its start, with one pass fewer. -/
theorem test_loop_end : (let s := wheeled.updCur fun c => c.setLv { c.lv with loops := [⟨0x20, 0x42, 2⟩] }
    let t := { s with issue := { active := true, len := 2 } }.closeBundle
    (t.cc.pc, t.cc.lv.loops)) = (0x20, [⟨0x20, 0x42, 1⟩]) := by decide +kernel
/-- 02 R28, R29, R42: the first step from the state with an instruction placed runs it, and the pc moves past the literal. -/
theorem test_step_runs : (match step (State.reset.withFetchWord 400 (lit 4 0x000000841020)) with
    | .next t => t.cc.pc.toNat == 2 ^ 32 + 50 && landed t == [(1, 0)] | _ => false) = true := by decide +kernel
/-- 20 R428: an alarm before SECPOL is written halts the module. -/
theorem test_alarm_halts : leads (.tamperMesh 0) State.reset (fun t => (t.modu 0).halted && (t.modu 0).alarm == 2 ^ 56 + 1) = true := by
  decide +kernel
/-- 21 R437: MODCFG is written once. -/
theorem test_modcfg_once : leads (.modcfgWrite 0 17) State.reset (fun t => (t.modu 0).modcfg == 2 ^ 63 + 17 &&
    leads (.modcfgWrite 0 18) t (fun u => (u.modu 0).modcfg == 2 ^ 63 + 17)) = true := by decide +kernel

/- Witnesses: states and operands that meet the hypotheses of the statements -/

/-- Every instruction under p0 takes effect in an open bundle. -/
theorem witness_issues (i : Instr) : Issues 0 i opened := ⟨rfl, .inl rfl⟩
theorem witness_issuesV (i : Instr) : IssuesV i opened := .inl rfl
/-- An instruction alone in its bundle takes effect in a context that runs a wheel. -/
theorem witness_issues_alone : Issues 0 (.add 0 3 1 2) wheeled ∧ Issues 0 (.br 0 2) wheeled ∧ IssuesV (.vadd hdr .i32 o2 o2 o2) wheeled ∧
    Issues 0 (.stb 0 3 1 0) wheeled ∧ Issues 0 (.bbExpect 0 6 7 8) wheeled :=
  ⟨⟨rfl, .inr (by decide +kernel)⟩, ⟨rfl, .inr (by decide +kernel)⟩, .inr (by decide +kernel), ⟨rfl, .inr (by decide +kernel)⟩,
    ⟨rfl, .inr (by decide +kernel)⟩⟩

/-- The open bundle of a wheel of vat 1, with registers set. -/
def running (l : List (Nat × Nat)) : State := withS l { wheeled with issue := { active := true } }
theorem witness_running (l : List (Nat × Nat)) (i : Instr) : Issues 0 i (running l) := ⟨rfl, .inl rfl⟩

theorem witness_ScalarAluResults : (Issues 0 (.clz 0 3 1) (running [(1, 2 ^ 63)]) ∧
      (∀ i < 0, (sv (running [(1, 2 ^ 63)]) 1).getLsbD (63 - i) = false) ∧ (sv (running [(1, 2 ^ 63)]) 1).getLsbD (63 - 0) = true) ∧
    (Issues 0 (.clz 0 3 1) (running []) ∧ (∀ i < 64, (sv (running []) 1).getLsbD (63 - i) = false)) :=
  ⟨⟨witness_running _ _, by decide +kernel⟩, witness_running _ _, by decide +kernel⟩
theorem witness_CompareResults : Issues 0 (.cmp 0 .lt 1 1 2) (running [(1, 2 ^ 64 - 1), (2, 1)]) ∧
    (true = true ↔ Holds .lt (sv (running [(1, 2 ^ 64 - 1), (2, 1)]) 1) (sv (running [(1, 2 ^ 64 - 1), (2, 1)]) 2)) ∧
    Issues 0 (.cmpiEq 0 1 1 0) (running []) ∧ (true = true ↔ Holds .eq (sv (running []) 1) (sext 0)) :=
  ⟨witness_running _ _, ⟨fun _ => by simp only [Holds]; decide +kernel, fun _ => rfl⟩, witness_running _ _,
    ⟨fun _ => by simp only [Holds]; decide +kernel, fun _ => rfl⟩⟩
theorem witness_PredicateFieldAndMoveResults : let s := running [(1, 2 ^ 63 + 1), (2, 3)]
    (Issues 0 (.bfx 0 3 1 63 0) s ∧ (63 : Fin 64).val + (0 : Fin 64).val + 1 ≤ 64 ∧
      ∀ j < 64, (BitVec.allOnes 64).getLsbD j = (sv s 1).getLsbD (63 + min j 0)) ∧
    (Issues 0 (.bfxu 0 3 1 0 63) s ∧ ∀ j < 64, (sv s 1).getLsbD j = (decide (j ≤ 63) && (sv s 1).getLsbD (0 + j))) ∧
    (Issues 0 (.bfi 0 3 1 2 0 1) s ∧ ∀ j < 64, (BitVec.ofNat 64 (2 ^ 63 + 3)).getLsbD j =
      if 0 ≤ j ∧ j ≤ 0 + 1 then (sv s 2).getLsbD (j - 0) else (sv s 1).getLsbD j) ∧
    (Issues 0 (.kput 0 1 62) s ∧ (62 : Fin 64).val % 2 = 0) ∧ Issues 0 (.kget 0 0 7) s ∧ (0 : Fin 64).val % 2 = 0 :=
  ⟨⟨witness_running _ _, by decide +kernel⟩, ⟨witness_running _ _, by decide +kernel⟩, ⟨witness_running _ _, by decide +kernel⟩,
    ⟨witness_running _ _, rfl⟩, witness_running _ _, rfl⟩
theorem witness_BranchAndLoopResults : Issues 0 (.br 0 2) (running []) ∧ Issues 0 (.callr 0 3 1) (running [(1, 0x42)]) ∧
    Issues 0 (.loop 0 1 4) (running [(1, 0)]) :=
  ⟨witness_running _ _, witness_running _ _, witness_running _ _⟩
/-- A bundle of two bytes at 0x40, at its end, with a loop stack. -/
def ending (ls : List Loop) : State := { (wheeled.updCur fun c => c.setLv { c.lv with loops := ls }) with issue := { active := true } }
theorem witness_NextAddressFollowsLoops :
    ((ending [⟨0, 0x42, 1⟩, ⟨0x20, 0x60, 2⟩]).issue.ret = false ∧
      ((ending [⟨0, 0x42, 1⟩, ⟨0x20, 0x60, 2⟩]).ctx 0).lv.loops = [] ++ ⟨0, 0x42, 1⟩ :: [⟨0x20, 0x60, 2⟩]) ∧
    (∀ e ∈ ((ending [⟨0, 0x42, 1⟩]).ctx 0).lv.loops, e.stop ≠ 0x60) ∧ ((ending []).ctx 0).lv.loops = [] ∧
    (let c := (ending [⟨0x20, 0x42, 1⟩]).ctx 0
     c.lv.loops = [] ++ [⟨0x20, 0x42, 1⟩] ∧ (0x20 : Word).toNat ≤ c.pc.toNat ∧ c.pc.toNat < (0x42 : Word).toNat ∧
      c.pc + BitVec.ofNat 64 (ending [⟨0x20, 0x42, 1⟩]).issue.len = 0x42) := by decide +kernel
theorem witness_ControlRegisterResults : Issues 0 (.csrs 0 0 1 3) (running [(1, 1)]) ∧ Issues 0 (.csrw 0 0x100 1) (running [(1, 1)]) ∧
    ({ wheeled with cur := 4 * 127 + 3 } : State).cur = 4 * 127 + 3 ∧ 3 < 4 ∧ 127 = 4 * 31 + 3 :=
  ⟨witness_running _ _, witness_running _ _, rfl, by decide, rfl⟩
theorem witness_WaitBarrierAndEndResults : Issues 0 (.waitc 0 0 1 255 255) (running []) ∧ Issues 0 (.bar 0 .quad) (running []) ∧
    Issues 0 (.wheelEnd 0) (running []) ∧
    (let s := wheeled.updCur fun c => { c with outs := [{ id := 0, cls := 1 }] }
     s.issue.active = false ∧ s.cc.pr 0 = true ∧ s.cc.marks = [] ∧ (0 : BitVec 8).toNat ≠ 255 ∧ (0 : BitVec 8).toNat < s.cc.cnt 1) :=
  ⟨witness_running _ _, witness_running _ _, witness_running _ _, by decide +kernel⟩
theorem witness_SpawnAndSemaphoreResults : Issues 0 (.wheelSpawn 0 7) (running [(7, 5)]) ∧ Issues 0 (.semWait 0 1 2) (running []) ∧
    Issues 0 (.semTest 0 3 1) (running []) ∧ Issues 0 (.wheelSpawnCore 0 7) (running []) :=
  ⟨witness_running _ _, witness_running _ _, witness_running _ _, witness_running _ _⟩
/-- At level 1, where the system instructions are allowed. -/
def handling : State := wheeled.updCur fun c => { c with level := 1, epc := 0x80 }
theorem witness_SystemResults : Issues 0 (.tret 0) handling ∧ Issues 0 (.xlatInvVat 0) handling ∧ Issues 0 (.xlatInvPage 0 1) handling :=
  ⟨⟨rfl, .inr (by decide +kernel)⟩, ⟨rfl, .inr (by decide +kernel)⟩, ⟨rfl, .inr (by decide +kernel)⟩⟩
theorem witness_LoadStoreResults : Issues 0 (.ldw 0 3 1 0) (running [(1, 2 ^ 20 - 4)]) ∧
    (running [(1, 2 ^ 20 - 4)]).access 0 (address (running [(1, 2 ^ 20 - 4)]) 1 0 4) 4 true false =
      .ok ((List.range 4).map fun j => spadLoc 0 (2 ^ 20 - 4 + j)) false ∧
    (running []).access 0 (address (running []) 1 0 32) 128 false true = .ok ((List.range 128).map (spadLoc 0)) false ∧
    (6 : Fin 16).val % 2 = 0 :=
  ⟨witness_running _ _, by decide +kernel⟩
theorem witness_OrderingAndAtomicResults : IssuesV .mark (running []) ∧ Issues 0 (.fence 0 .pod .acqRel) (running []) ∧
    Issues 0 (.amoCas 0 .die .acqRel true true 6 4 7) (running [(4, 8)]) ∧
    (running [(4, 8)]).access 0 8 8 true true = .ok ((List.range 8).map fun j => spadLoc 0 (8 + j)) false :=
  ⟨.inl rfl, witness_running _ _, witness_running _ _, by decide +kernel⟩
theorem witness_FarInstructionResults : Issues 0 (.fld 0 true 3 1 0) (running [(1, 2 ^ 63)]) ∧
    Issues 0 (.famoCas 0 .acquire true false 6 4 7) (running [(4, 2 ^ 63)]) := ⟨witness_running _ _, witness_running _ _⟩
theorem witness_OwnScratchpadAccess : 0 < 4 ∧ 2 ^ 20 - 4 < 2 ^ 20 ∧ 2 ^ 20 - 4 + 4 ≤ 2 ^ 20 ∧ State.reset.coreAbsent (coreOf 0) = false ∧
    2 ^ 20 - 1 < 2 ^ 20 ∧ 2 ^ 20 < 2 ^ 20 - 1 + 4 := by decide +kernel
theorem witness_VectorArithmeticResults : IssuesV (.vfma hdr .f32 o2 o2 o2) opened ∧ VType.f32.isFp = true ∧
    IssuesV (.vadds hdr .i8 o2 o2 o2) opened ∧ VType.i8.isFp = false := ⟨.inl rfl, rfl, .inl rfl, rfl⟩
theorem witness_VectorCompareLogicAndExchangeResults : IssuesV (.vcmplt hdr .f32 1 o2 o2) opened ∧
    IssuesV (.vbfly hdr .i32 o2 o2 31) opened := ⟨.inl rfl, .inl rfl⟩
theorem witness_VectorReductionAndConversionResults : IssuesV (.vredsum hdr .bf16 o2 o2) opened ∧ (VType.bf16 = .bf16 ∨ VType.bf16 = .f16) ∧
    VType.i32.isFp = false ∧ IssuesV (.vmxq hdr 2 o2 ⟨0, 0, 3⟩) opened ∧ (2 : Fin 16).val % 2 = 0 :=
  ⟨.inl rfl, .inl rfl, rfl, .inl rfl, rfl⟩
theorem witness_SpecialFunctionResults : IssuesV (.vexp2 hdr .f32 o2 o2) opened := .inl rfl
theorem witness_PaneParkResults :
    (IssuesV (.panePark false 0 3) opened ∧ (tget (opened.quad (quadOf opened.cur)).parks 0).isNone = true) ∧
    (let s := opened.updQuad 0 fun q => { q with parks := (List.range 31).map fun j => (j, some {}) }
     IssuesV (.panePark false 0 3) s ∧ (tget (s.quad (quadOf s.cur)).parks 31).isNone = true ∧
      ∀ j < 31, (tget (s.quad (quadOf s.cur)).parks j).isSome = true) ∧
    (let s := (opened.updQuad 0 fun q => { q with parks := [(2, some {})] }).updCur fun c => { c with tags := [(3, 2)] }
     IssuesV (.paneUnpark false 0 3) s ∧ 2 = tget s.cc.tags (3 : Fin 32).val ∧ tget (s.quad (quadOf s.cur)).parks 2 = some {}) :=
  ⟨⟨.inl rfl, by decide +kernel⟩, ⟨.inl rfl, by decide +kernel⟩, .inl rfl, by decide +kernel⟩
/-- A quad with one lease of the running wheel. -/
def leased (l : WheelLease) : State := opened.updQuad 0 fun q => { q with leases := [l] }
theorem witness_PressLeaseAndClaimResults :
    (Issues 0 (.pressLease 0) opened ∧ Issues 0 (.pressFree 0) opened ∧ (myQuad opened).leaseOf opened.cur opened.cc.wid = none) ∧
    (let l : WheelLease := { cur := { st := .freeing true } }
     (myQuad (leased l)).leaseOf (leased l).cur (leased l).cc.wid = some l ∧ l.cur.freed = true ∧ l.next = none) ∧
    (let l : WheelLease := { cur := { st := .requested, count := 1 } }
     (myQuad (leased l)).leaseOf (leased l).cur (leased l).cc.wid = some l ∧ l.cur.freed = false ∧ l.next = none ∧ l.cur.count ≠ 0) ∧
    (let l : WheelLease := { cur := { st := .freeing true }, next := some {} }
     (myQuad (leased l)).leaseOf (leased l).cur (leased l).cc.wid = some l ∧ l.next = some {} ∧ (({} : Lease).freed = false) ∧
      ({} : Lease).count = 0) ∧
    (Issues 0 (.pressClaim 0 true) opened ∧ Issues 0 (.pressRelease 0 true) opened) ∧
    (let s := opened.updQuad 0 fun q => { q with bank1 := { holder := some (0, {}) } }
     ((myQuad s).bank true).holder = some (s.cur, s.cc.wid)) :=
  ⟨⟨witness_issues _, witness_issues _, by decide +kernel⟩, by decide +kernel, by decide +kernel, by decide +kernel,
    ⟨witness_issues _, witness_issues _⟩, by decide +kernel⟩
theorem witness_EmberCommandResults : Issues 0 (.pressRun 0 ⟨0x0A21, 2, 9, 4⟩ 6 true true false) opened ∧
    (myCore opened).freeSlot = some 0 ∧ (6 : Fin 64).val % 2 = 0 ∧ (5 : Fin 64) ≠ 0 ∧
    (let s := opened.updCore 0 fun k => { k with embers := (List.range 127).map fun j => (j, some {}) }
     Issues 0 (.coll 0 ⟨1, 0, 1, 2⟩) s ∧ (myCore s).freeSlot = some 127) :=
  ⟨witness_issues _, by decide +kernel, rfl, by decide, ⟨rfl, .inl rfl⟩, by decide +kernel⟩
/-- A core with one live ember in slot 5, of the running wheel's vat and of generation 1: its token is 0x85. -/
def embered (e : Ember) (l : List (Nat × Nat)) : State := withS l (opened.updCore 0 fun k => { k with embers := [(5, some e)] })
theorem witness_TokenResults :
    (Issues 0 (.embTest 0 3 1) opened ∧ named opened 1 = none ∧ opened.cc.reap = none) ∧
    (let e : Ember := { owner := 1 }
     named (embered e [(1, 0x85)]) 1 = some (5, e) ∧ e.owner ≠ (embered e [(1, 0x85)]).cur % 4) ∧
    (let e : Ember := { owner := 0, st := ⟨.done, .pending, 0⟩ }
     Issues 0 (.embWait 0 3 1) (embered e [(1, 0x85)]) ∧ named (embered e [(1, 0x85)]) 1 = some (5, e) ∧
      e.owner = (embered e [(1, 0x85)]).cur % 4) ∧
    (let e : Ember := { owner := 0, op := .copy 0 false false, began := true, st := ⟨.running, .running, 0⟩ }
     named (embered e [(1, 0x85)]) 1 = some (5, e) ∧ (state (embered e [(1, 0x85)]) e).final = false ∧ e.op.kind < 2) ∧
    (let e : Ember := { owner := 4, name := 7, st := ⟨.orphaned, .orphaned, 0⟩ }
     (myCore (embered e [])).findName (embered e []).cc.vatKey 7 = some (5, e) ∧ (myCore opened).findName 0 7 = none ∧
      (4 : Fin 64).val % 4 = 0) :=
  ⟨⟨witness_issues _, by decide +kernel⟩, by decide +kernel, ⟨⟨rfl, .inl rfl⟩, by decide +kernel⟩, by decide +kernel, by decide +kernel⟩
theorem witness_HoopBarrierAndMoldResults :
    (let s := running [(4, 0x8000), (5, 0x20)]
     Issues 0 (.hoopInit 0 3 4 5) s ∧ s.hoopBase (sv s 4).toNat (2 ^ ((sv s 5).toNat % 16 + 8))
      (2 ^ ((sv s 5).toNat % 16 + 8 + (sv s 5).toNat / 16 % 8)) = some (spadAddr 0 0x8000)) ∧
    (let b := ((myQuad (running [(8, 0)])).bb 7).cur
     Issues 0 (.bbExpect 0 6 7 8) (running [(8, 0)]) ∧ b.expected + 0 < 2 ^ 32 ∧ b.arrived ≤ b.expected + 0 ∧ b.arrived = b.expected + 0) ∧
    (let s := running [(8, 2 ^ 32 - 1)]
     ((myQuad s).bb 7).cur.expected + (sv s 8).toNat % 2 ^ 32 < 2 ^ 32 ∧
      ((myQuad s).bb 7).cur.arrived ≠ ((myQuad s).bb 7).cur.expected + (sv s 8).toNat % 2 ^ 32) ∧
    (let s := (running [(7, 2)]).updCore 0 fun k => { k with moldRes := [(1, [10, 11])] }
     Issues 0 (.moldGet 0 6 7) s ∧ (sv s 7).toNat ≠ 0 ∧ (myCore s).moldRun s.cc.vatKey 2 = some 10) ∧
    (let m : Mold := { first := 10, vat := 1, st := .given 1 0 }
     let s := (running []).updCore 0 fun k => { k with molds := [m] }
     (sv s 7).toNat = 0 ∧ ((myCore s).molds.filter fun x => x.vat == 1 && x.st == .given 1 0) = [m]) ∧
    (let m : Mold := { first := 0, vat := 1, st := .owned 0 { vat := 1, idx := 0, start := 0 } }
     ((running []).updCore 0 fun k => { k with molds := [m] }).ownedMold 0 = some m) :=
  ⟨⟨⟨rfl, .inl rfl⟩, by decide +kernel⟩, ⟨⟨rfl, .inl rfl⟩, by decide +kernel⟩, by decide +kernel, ⟨⟨rfl, .inl rfl⟩, by decide +kernel⟩,
    by decide +kernel, by decide +kernel⟩

theorem witness_TrapEntry : (wheeled.deliverDue wheeled.cur).cc.level = 0 ∧ (wheeled.deliverDue wheeled.cur).cc.tvec ≠ 0 := by
  decide +kernel
/-- The machine with an instruction placed as the next bundle of context 0. -/
def placed (slot w : Nat) : State := State.reset.withFetchWord 400 (lit slot w)
theorem witness_TrapWithoutHandlerEndsWheel : handling.cc.level = 1 ∧ (State.reset.deliverDue State.reset.cur).cc.tvec = 0 ∧
    (handling.vat handling.cc.vatKey).entries.length < 12 ∧
    (let s := (placed 3 0xFF).updCtx 0 fun c => { c with level := 1 }
     let u := s.atIssue 0
     s.issue.active = false ∧ s.coreLive 0 = true ∧ (s.core 0).switching = false ∧ (s.core 0).sel = 0 ∧
      u.fate = .trap [] none ⟨0x03, 3, 0xFF⟩ ∧ u.cc.level = 1) := by decide +kernel
theorem witness_BreakTraps : wheeled.issue.active = false ∧ wheeled.cc.pr 0 = true ∧ wheeled.cc.marks.contains (.p 0) = false ∧
    (wheeled.deliverDue wheeled.cur).cc.level = 0 ∧ (wheeled.deliverDue wheeled.cur).cc.tvec ≠ 0 := by decide +kernel
theorem witness_PrivilegeAndRangeTraps : wheeled.issue.active = false ∧ wheeled.cc.level = 0 ∧ 0x100 ≤ (0x1FF : BitVec 12).toNat ∧
    (0x1FF : BitVec 12).toNat < 0x200 ∧ (63 : Fin 64).val % 2 = 1 ∧ (63 : Fin 64).val % 4 ≠ 0 ∧ (15 : Fin 16).val % 2 = 1 ∧
    wheeled.cc.panecnt ≤ (0 : Fin 128).val := by decide +kernel
theorem witness_ExecutionTraps :
    (let s := withS [(1, 1)] wheeled
     s.issue.active = false ∧ s.cc.pr 0 = true ∧ s.cc.marks.contains (.p 0) = false ∧ s.cc.marks.contains (.s 1) = false ∧
      (sv s 1).getLsbD 0 = true ∧ (sv s 1).toNat % 4 ≠ 0 ∧ (sv s 1).toNat % 8 ≠ 0 ∧ (sv s 1).toNat < 2 ^ 63 ∧
      address s 1 0 8 % 8 ≠ 0 ∧ (s.vat s.cc.vatKey).desc.semCount ≤ (sv s 1).toNat ∧ (s.vat s.cc.vatKey).desc.spawnLimit = 0 ∧
      s.ownedMold ((sv s 1).toNat % 2 ^ 16) = none) ∧
    (let s := withS [(1, 2 ^ 20 - 1)] wheeled
     s.access s.cur (address s 1 0 1) 1 true false ≠ .trap 0x07 (2 ^ 20) ∧
      s.access s.cur (address s 1 0 4) 4 true false = .trap 0x07 (2 ^ 20) ∧ s.access s.cur (address s 1 0 8) 8 false true = .trap 0x07 (2 ^ 20)) ∧
    (let s := withS [(1, 2 ^ 63)] wheeled
     s.access s.cur (address s 1 0 1) 1 false true = .trap 0x07 (2 ^ 63)) ∧
    0x010 ≤ (0x0FF : BitVec 12).toNat ∧ (0x0FF : BitVec 12).toNat < 0x100 ∧ 0x200 ≤ (0x200 : BitVec 12).toNat := by decide +kernel
theorem witness_FalsePredicateHasNoEffect : (Instr.add 1 3 1 2).encSlot.isSome = true ∧ (slotOp (.add 1 3 1 2)).pred = some 1 ∧
    opened.cc.pr 1 = false ∧ opened.issue.active = true ∧
    wheeled.cc.pr 1 = false ∧ wheeled.issue.active = false ∧ wheeled.cc.marks.contains (.p 1) = false ∧
    (slotOp (.add 1 3 1 2)).rangeBad wheeled = false ∧ (slotOp (.add 1 3 1 2)).priv wheeled.cc.level = none := by decide +kernel
theorem witness_ResultTiming : 1 ≤ 3 ∧ wheeled.cc.lv.land = [] ∧ wheeled.cc.lv.fmtp = none ∧
    (let e1 : Landing := { dest := .sreg 63, value := 1, seq := 4, slot := 4 }
     let e2 : Landing := { dest := .sreg 63, value := 2, seq := 4, slot := 5 }
     let s := wheeled.updCtx 0 (·.push e1)
     (63 : Fin 64).val ≠ 0 ∧ (s.ctx 0).lv.land = [e1] ∧ (s.ctx 0).lv.fmtp = none ∧ e1.rem = 0 ∧ e2.rem = 0 ∧
      e1.seq = e2.seq ∧ e1.slot < e2.slot) := by decide +kernel
theorem witness_StepRunsOneEvent : { State.reset with issue := { State.reset.issue with active := true } }.nextEvent = none ∧ State.reset.issue.active = false ∧
    (let s := { State.reset with sched := [(0, .tamperMesh 0)] }
     s.nextEvent = some (.tamperMesh 0, State.reset) ∧ (Instr.tamperMesh 0).isEvent = true ∧ 0 ≤ s.now ∧
      leads (.tamperMesh 0) State.reset (fun t => !t.issue.active) = true) := by decide +kernel
/-- The bundle that the word of `addi s2, s2, 1` (07 §7.8, E1) forms alone. -/
def addiBundle : Nat := 0x000000841020 * 2 ^ slotBase 4
theorem witness_StepRunsTheDecodedInstruction : let s := placed 4 0x000000841020
    let u := { s with sched := [] }
    let v := u.atIssue 0
    s.nextEvent = some (.bundleIssue 0, u) ∧ u.issue.active = false ∧ u.coreLive 0 = true ∧ (u.core 0).switching = false ∧
      (u.core 0).sel = 0 ∧ u.parityHit 0 = false ∧ v.cc.phase = .running ∧ v.cc.xinv = none ∧ v.cc.farWait = [] ∧
      v.fetch v.cur = .ok addiBundle 50 ∧ decodeBundle addiBundle = .ok [(4, .addi 0 2 2 1)] ∧
      v.bundleTrap (opsOf [(4, .addi 0 2 2 1)]) = none ∧ v.bundleWaits (opsOf [(4, .addi 0 2 2 1)]) = false := by decide +kernel
theorem witness_IssueAndDeliveryEvents :
    (let s := placed 4 0x000000841020
     s.issue.active = false ∧ s.coreLive 0 = true ∧ (s.core 0).switching = false ∧ s.parityHit 0 = false ∧
      (s.atIssue 0).fate = .go 50 [(4, .addi 0 2 2 1)]) ∧
    (let s := (placed 4 0x000000841020).updCtx 0 fun c => { c with phase := .ending }
     s.coreLive 0 = true ∧ (s.atIssue 0).fate = .wait []) ∧
    (let s := (placed 4 0x000000841020).updCore 0 fun k => { k with switching := true, sel := 0 }
     (s.core 0).switching = true ∧ s.ready (4 * 0 + (0 + 4) % 4) = true ∧
      ∀ j < 4, 1 ≤ j → (s.ctx (4 * 0 + (0 + j) % 4)).phase ≠ .running) ∧
    (let e : Landing := { dest := .sreg 3, value := 7 }
     let s := wheeled.updCtx 0 (·.push e)
     (s.ctx 0).lv.land.filter (fun e => e.rem = 0) = [e]) ∧
    (let s := wheeled.updCtx 0 fun c => c.setLv { c.lv with fmtp := some ⟨1, 0⟩ }
     (s.ctx 0).lv.fmtp = some ⟨1, 0⟩ ∧ s.issue.active = false) := by decide +kernel

/-- A queued word load and a queued word store of context 0. -/
def aLoad : MOp := { kind := .load (.scalar 3 true), id := 1, ea := 8, size := 4, unit := 0, locs := [8, 9, 10, 11] }
def aStore : MOp := { kind := .store, id := 2, ea := 8, size := 4, unit := 0, locs := [8, 9, 10, 11], data := [1, 2, 3, 4] }
theorem witness_QueueEvents :
    (let s := wheeled.updCtx 0 fun c => { c with lq := [aLoad] }
     s.issue.active = false ∧ (s.ctx 0).lq = aLoad :: [] ∧ aLoad.cached = false ∧ aLoad.did = 0 ∧ aLoad.got = [] ∧ aLoad.bad = none ∧
      0 < aLoad.size ∧ (∀ j < aLoad.size, allBytes.testBit j = true ∧ s.isBad (pick aLoad.locs j) = false) ∧ (s.ctx 0).phase = .running) ∧
    (let op := { aLoad with got := [(0, 1), (1, 2), (2, 3), (3, 0xFF)] }
     let s := wheeled.updCtx 0 fun c => { c with rets := [{ op := op }] }
     (s.ctx 0).rets = [{ op := op }] ∧ op.bad = none ∧ 0 < 3 ∧ op.size ≤ 8 ∧ allBytes.testBit 0 = true ∧ allBytes.testBit 1 = true ∧
      ∀ j < op.size, (op.got.find? fun x => x.1 == j).isSome = true) ∧
    (let s := wheeled.updCtx 0 fun c => { c with sq := [aStore] }
     (s.ctx 0).sq = aStore :: [] ∧ aStore.did = 0 ∧ 0 < aStore.size ∧ aStore.locs.length = aStore.size ∧
      (∀ j < aStore.size, allBytes.testBit j = true) ∧
      ∀ j < aStore.size, ∀ i < aStore.size, j < i → pick aStore.locs i ≠ pick aStore.locs j) := by decide +kernel
theorem witness_AtomicEvents : 0 < 4 ∧ 0xFFFFFFFF < 2 ^ (8 * 4) ∧
    (let op : MOp := { kind := .amo .cas 6 5 3 true, id := 1, ea := 8, size := 4, unit := 0, locs := [8, 9, 10, 11] }
     let s := wheeled.updCtx 0 fun c => { c with lq := [op] }
     s.issue.active = false ∧ (s.ctx 0).phase = .running ∧ (s.ctx 0).lq = op :: [] ∧ (op.size = 4 ∨ op.size = 8) ∧
      s.isBad (pick op.locs 0) = false ∧ (s.setBad 0).isBad (pick op.locs 0) = true) := by decide +kernel
theorem witness_MarkAndTranslationEvents :
    (let m : MOp := { kind := .order (some .die) true (.signal 0 3 2) true, id := 4 }
     let s := wheeled.updCtx 0 fun c => { c with lq := [m], sq := [m] }
     (s.ctx 0).lq = m :: [] ∧ (s.ctx 0).sq = m :: [] ∧ (∀ r ∈ (s.ctx 0).farSent, thas s.fars r = true → (tget s.fars r).performed = true) ∧
      ((s.die 0).sem 3).cur.bad = false ∧ ((s.die 0).sem 3).cur.count + 2 < 2 ^ 32) ∧
    (let s := (wheeled.updCtx 0 fun c => { c with xinv := some .vat }).updVat 1 fun v => { v with desc := { v.desc with xlat := 0 } }
     s.issue.active = false ∧ (s.ctx 0).xinv = some .vat) ∧
    ((placed 4 0).updQuad 0 fun q => { q with hoops := [(2, ⟨{ st := [(0, .releasing)] }, {}, 0⟩)] }).issue.active = false := by
  decide +kernel

/-- n bytes of a number put in memory, low byte first. -/
def put (loc n v : Nat) (s : State) : State := s.setBytes ((leBytes n v).zipIdx.map fun (x : Byte × Nat) => (loc + x.2, x.1))
/-- Vat 1 with 64 KiB from 2^32 on, readable, writable and executable, at physical 0x100000 of die 0, which is in service. -/
def mapped : State :=
  let s := { wheeled with mods := [(0, { modcfg := 2 ^ 63 })], dies := [(0, { isolated := false, stage := 5 })] }
  let s := s.updVat 1 fun v => { v with desc := { v.desc with xlat := 0x1000, ranges := 1 } }
  put 0x1040 8 (2 ^ 32) (put 0x1048 8 (2 ^ 32 + 0xFFFF) (put 0x1050 8 0x100000 (put 0x1058 1 15 s)))
/-- A far store of the wheel on context 0 into window 0 of domain 3, whose table lies at 2^32 + 0x800. -/
def farStore (off : Nat) : FarReq := { wheel := { vat := 1, idx := 0, start := 0 }, op := .st, ea := 2 ^ 63, size := 8, domain := 3, off := off }
def farBound (off : Nat) : State :=
  put 0x100800 8 (2 ^ 32 + 0x40) (put 0x100808 8 64 (put 0x100810 1 5
    { (mapped.updDie 0 fun d => { d with doms := [(3, (1, 2 ^ 32 + 0x800))] }) with fars := [(7, farStore off)] }))
theorem witness_MarkAndTranslationEvents_walk : ((mapped.walk 1 (2 ^ 32)).map fun x => x.loc) = some 0x100000 ∧ 5 < 2 ^ 40 := by decide +kernel
theorem witness_FarEvents :
    (let s := { mapped with fars := [(7, farStore 0)] }
     thas s.fars 7 = true ∧ (farStore 0).answered = false ∧ s.dieOfPod 0 = some 0 ∧ s.routeUp 0 0 = true ∧ (s.modu 0).halted = false ∧
      thas (s.die 0).doms 3 = false) ∧
    (let s := farBound 56
     thas (s.die 0).doms 3 = true ∧ tget (s.die 0).doms 3 = (1, 2 ^ 32 + 0x800) ∧ s.window 1 (2 ^ 32 + 0x800) 0 = some (2 ^ 32 + 0x40, 64, 5) ∧
      56 + 8 ≤ 64 ∧ 64 < 57 + 8 ∧ ((s.walk 1 (2 ^ 32 + 0x40 + 56)).map fun x => x.w && x.resident) = some true ∧ (5 : Nat).testBit 2 = true ∧
      2 ^ 32 + 0x40 + 56 < 2 ^ 56) ∧
    (let w : FarWait := { op := 9, bundle := 0x30, slot := 5 }
     let r : FarReq := { farStore 0 with op := .ld, d := 3, opId := 9, answered := true }
     let s := { (mapped.updCtx 0 fun c => { c with farWait := [w] }) with fars := [(7, r)] }
     let c := s.ctx 0
     s.issue.active = false ∧ s.findWheel r.wheel = some 0 ∧ r.timedOut = false ∧ c.phase = .running ∧ s.answerUp r = true ∧ r.size = 8 ∧
      c.farWait = [w] ∧ w.op = r.opId ∧ c.lv.land = [] ∧ c.lv.fmtp = none ∧ c.level = 0 ∧ c.tvec ≠ 0 ∧
      r.acked = false ∧ r.sentAt + 16000000 ≤ ({ s with now := 16000000 } : State).now ∧ r.op ≠ .st) ∧
    (let r : FarReq := { farStore 0 with answered := true }
     let s := { mapped with fars := [(7, r)] }
     r.op = .st ∧ r.acked = false ∧ s.answerUp r = true ∧ (s.ctx 0).farRec = none) := by decide +kernel

theorem witness_RegisterInstructionFrame : (Instr.add 0 3 3 2).encSlot = some (4, 0x1061801) ∧ parks (.add 0 3 3 2) = false ∧
    IssuesV (.add 0 3 3 2) opened ∧ leads (.add 0 3 3 2) opened (fun _ => true) = true :=
  ⟨by decide +kernel, rfl, .inl rfl, by decide +kernel⟩
theorem witness_ControlInstructionFrame : (Instr.br 1 2).encSlot = some (3, 0x1101) ∧ (∀ p, Instr.br 1 2 ≠ .wheelEnd p ∧ Instr.br 1 2 ≠ .tret p) ∧
    IssuesV (.br 1 2) opened ∧ leads (.br 1 2) opened (fun _ => true) = true :=
  ⟨by decide +kernel, fun _ => ⟨Instr.noConfusion, Instr.noConfusion⟩, .inl rfl, by decide +kernel⟩
theorem witness_MemoryInstructionFrame : (Instr.stw 0 6 4 0).encSlot = some (6, 0x83003) ∧ IssuesV (.stw 0 6 4 0) opened ∧
    leads (.stw 0 6 4 0) opened (fun t => t.cc.sq.length == 1) = true := ⟨by decide +kernel, .inl rfl, by decide +kernel⟩
theorem witness_EngineInstructionFrame : (Instr.pressClaim 0 true).encSlot = some (2, 0x803) ∧ IssuesV (.pressClaim 0 true) opened ∧
    leads (.pressClaim 0 true) opened (fun _ => true) = true := ⟨by decide +kernel, .inl rfl, by decide +kernel⟩
theorem witness_DeliveryFrame : (let s := wheeled.updCtx 0 (·.push { dest := .sreg 3, value := 7 })
    s.issue.active = false ∧ leads (.resultDelivery 0) s (fun t => (t.ctx 0).sr 3 == 7) = true ∧
      (∀ e ∈ (s.ctx 0).lv.land, e.img.length ≤ 64 ∧ e.lat = none)) := by decide +kernel
theorem witness_StoreAndLoadFrame : (let s := wheeled.updCtx 0 fun c => { c with sq := [aStore], lq := [aLoad] }
    s.issue.active = false ∧ (s.ctx 0).sq = aStore :: [] ∧ aStore.size ≤ aStore.locs.length ∧
      leads (.storePerformed 0 3) s (fun t => t.byte 8 == 1 && t.byte 11 == 4 && t.byte 12 == 0) = true ∧ leads (.loadComplete 0 0 allBytes true) s (fun _ => true) = true) ∧
    (let op := { aLoad with got := [(0, 1), (1, 2), (2, 3), (3, 0xFF)] }
     let s := wheeled.updCtx 0 fun c => { c with rets := [{ op := op }] }
     (s.ctx 0).rets[1 - 1]? = some { op := op } ∧ leads (.loadComplete 0 1 allBytes true) s (fun _ => true) = true) := by decide +kernel
theorem witness_EveryStepKeepsMemoryCanonical : Memory.wf (placed 4 0x000000841020).mem = true ∧
    (match step (placed 4 0x000000841020) with | .next t => Memory.wf t.mem | _ => false) = true := by decide +kernel
theorem witness_DecodeOfEncode : (Instr.bfx 7 63 1 60 3).wf = true ∧ (encode (.bfx 7 63 1 60 3)).isSome = true ∧
    (Instr.vredmask hdr o2 (.main .row 127 63) o3).wf = true ∧ (encode (.vredmask hdr o2 (.main .row 127 63) o3)).isSome = true ∧
    Instr.mark.wf = true ∧ (encode .mark).isSome = true := by decide +kernel
theorem witness_EncodeOfDecode : (∀ w ∈ numWords 25 (lit 4 0x1061801), w < 2 ^ 16) ∧ decode (numWords 25 (lit 4 0x1061801)) = some (.add 0 3 3 2) := by
  decide +kernel

/-- A command block of n bytes from its fields: place, value. -/
def blockOf (n : Nat) (l : List (Nat × Nat)) : List Byte := leBytes n (l.foldl (fun a x => a + x.2 * 256 ^ x.1) 0)
/-- An ember of vat 0 that its engine may start. -/
def ready (op : EcOp) (cmd : List Byte) : Ember := { op := op, captured := true, cmd := cmd, lease := 1, uid := 9 }
/-- Nothing keeps ember 9 open. -/
def settled (s : State) : Bool :=
  !s.lag && !s.hasLate 9 && match s.emberAt 9 with
    | some (_, e) => !s.emberOpen e
    | none => false
/-- Quad 0 with a granted lease numbered 1 of the idle wheel on context 0, both banks claimed by it, and an ember in slot 5. -/
def pressed (e : Ember) : State := (State.reset.updCore 0 fun k => { k with embers := [(5, some e)] }).updQuad 0 fun q =>
  { q with leases := [{ cur := { st := .granted, num := 1 } }], bank0 := { holder := some (0, {}) }, bank1 := { holder := some (0, {}) } }
/-- A press.zero of one row and one column at (2, 3), and one with no rows. -/
def zeroBlk : List Byte := blockOf 64 [(6, 2), (7, 3), (8, 1), (10, 1)]
theorem witness_PressSchedulingEvents :
    (let w : WheelLease := { ctx := 5 }
     let s := State.reset.updQuad 0 fun q => { q with leases := [w] }
     let q := s.quad 0
     s.issue.active = false ∧ (s.modu 0).halted = false ∧ (∀ l ∈ q.leases, l.cur.isGranted = false) ∧ q.endedAt ≠ some s.now ∧
      s.arbiter 0 = some w ∧ q.lastcore < 4 ∧ tget q.lastctx 1 < 4) ∧
    (let s := State.reset.updQuad 0 fun q => { q with bank1 := { holder := some (0, {}), release := some 1 } }
     ((s.quad 0).bank true).holder = some (0, {}) ∧ ((s.quad 0).bank true).release = some 1 ∧ (s.core 0).live = []) ∧
    (let e := ready (.zero false) zeroBlk
     let s := pressed e
     0 / 4 = 0 ∧ (s.quad 0).run = none ∧ s.canStart 0 5 0 = true ∧ (s.core 0).ember 5 = some e ∧ (s.quad 0).leaseGranted e = true ∧
      e.stopped = false ∧ e.struck = false ∧ e.st.cur.final = false ∧ s.pressFault 0 e = none) ∧
    (let e := ready (.zero false) []
     let s := pressed e
     s.canStart 0 5 0 = true ∧ s.pressFault 0 e = some (0x04, 0)) ∧
    (let e := ready (.stat false false) (blockOf 64 [(56, 1), (58, 7), (60, 2)])
     let f := ready (.stat false false) (blockOf 64 [(56, 2), (57, 0), (58, 7)])
     let s := ((pressed e).updQuad 0 fun q => { q with run := some { core := 0, slot := 5 } }).updCore 4 fun k => { k with embers := [(6, some f)] }
     let s := s.updQuad 1 fun q => { q with run := some { core := 4, slot := 6 } }
     s.pressRun 0 = some ({ core := 0, slot := 5 }, e) ∧ Machine.fld e.cmd 56 1 = 1 ∧ s.castMembers 0 false = [0, 1] ∧
      ((List.range 32).all fun i => i == 0 || !(Machine.fld e.cmd 60 4).testBit i || (s.castMembers 0 false).contains (0 / 32 * 32 + i)) = true ∧
      (s.pressRun 1).map (·.2.vat) = some e.vat) := by decide +kernel
/-- A stationary command with its tile in the own scratchpad, 16 columns of BF16 in one row. -/
def tileBlk : List Byte := blockOf 64 [(0, 1), (1, 1), (2, 1), (9, 1), (11, 16), (16, 0x2000), (24, 64)]
def onArray (e : Ember) (u : Nat) : State :=
  (pressed { e with began := true, st := ⟨.running, .running, 0⟩ }).updQuad 0 fun q => { q with run := some { core := 0, slot := 5, unit := u } }
theorem witness_PressBoundaryEvents :
    (let s := onArray (ready (.zero true) zeroBlk) 0
     s.issue.active = false ∧ (s.modu 0).halted = false ∧
      (s.pressRun 0).map (fun x => (x.2.cancel, x.2.struck, x.2.st.cur.final, decide (x.2.op = .zero true))) = some (false, false, false, true)) ∧
    (let s := onArray (ready (.stat false false) tileBlk) 0
     ((s.pressRun 0).map fun x => (Machine.fld x.2.cmd 56 1, s.readFault x.1.core x.2.vat (x.2.tile.addrs none 0 256))) = some (0, none) ∧
      ∀ l ∈ (s.quad 0).leases, l.cur.freed = false ∧ l.cur.count ≠ 32) ∧
    (let s := onArray (ready (.run false false false) tileBlk) 3
     ((s.pressRun 0).map fun x =>
      (x.2.bitmap, s.readFault x.1.core x.2.vat (x.2.tile.addrs none (x.1.unit * blockLen x.2.tile.cmp) (blockLen x.2.tile.cmp)),
        decide (rotSize x.2.tile.rot = 0), decide (x.1.unit + 1 ≠ 256 / blockLen x.2.tile.cmp),
        ((s.quad 0).bank false).poisoned (Machine.fld x.2.cmd 13 1) x.2.tile.others 0 256)) = some (none, none, true, true, false)) := by
  decide +kernel

/-- A copy descriptor: 16 bytes from 0x2000 to 0x3000 in n chunks. -/
def copyBlk (n : Nat) : List Byte :=
  blockOf 128 ([(0, 0x2000), (8, 0x3000), (16, n), (28, 16), (64, 16), (100, 16)] ++ (List.range 5).map fun k => (18 + 2 * k, 1))
/-- A copy under way in slot 5 of core 0. -/
def copying (e : Ember) (r : CopyRun) : State :=
  (State.reset.updCore 0 fun k => { k with embers := [(5, some { e with began := true, st := ⟨.running, .running, 0⟩ })] }).updQuad 0 fun q =>
    { q with copies := [r] }
theorem witness_CopyHoopAndBarrierEvents :
    (let e := ready (.copy 0 false false) (copyBlk 2)
     let s := State.reset.updCore 0 fun k => { k with embers := [(5, some e)] }
     s.issue.active = false ∧ (s.modu 0).halted = false ∧ (s.quad 0).copies.length < 8 ∧ s.canStart 0 5 1 = true ∧
      (s.core 0).ember 5 = some e ∧ e.struck = false ∧ e.st.cur.final = false ∧ s.copyFault 0 e = none ∧ (copyDesc e.cmd).target = false ∧
      (∀ j < 4, ∀ x ∈ (s.core (4 * 0 + j)).live, startsBefore (4 * 0 + j, x.2) (0, e) = false) ∧
      s.copyFault 0 { e with cmd := [] } = some (0x04, 0)) ∧
    (let r : CopyRun := { core := 0, slot := 5, unit := 1 }
     let s := copying (ready (.copy 0 false false) (copyBlk 2)) r
     let d := copyDesc (copyBlk 2)
     ((s.copyRun 0 0 5 false).map (·.1)) = some r ∧ r.todo = none ∧ r.uncounted = [] ∧ settled s = true ∧ s.dueAt 0 5 = none ∧ s.copyChosen 0 r = true ∧
      d.target = false ∧ d.cast = false ∧ d.c = 16 ∧ r.unit + 1 = d.chunks ∧
      (∀ j < d.c, s.engByte 0 0 [] false (d.srcOf (r.unit * d.c + j)) = .ok (spadLoc 0 (0x2010 + j)) ∧ s.isBad (spadLoc 0 (0x2010 + j)) = false ∧
        s.engByte 0 0 [] true (d.dstOf (r.unit * d.c + j)) = .ok (spadLoc 0 (0x3010 + j)))) ∧
    (let b := blockOf 128 ([(0, 0x2000), (8, 0x3000), (16, 2), (64, 16), (100, 16), (102, 2)] ++ (List.range 5).map fun k => (18 + 2 * k, 1))
     let r : CopyRun := { core := 0, slot := 5, todo := some [(0x3000, 7)], after := (20, 16) }
     let s := copying (ready (.copy 0 false false) b) r
     ((s.copyRun 0 0 5 true).map (·.1)) = some r ∧ r.crcBad = false ∧ s.copyChosen 0 r = true ∧ (copyDesc b).target = false ∧
      s.engByte 0 0 [] true 0x3000 = .ok (spadLoc 0 0x3000) ∧ r.after.2 ≠ (copyDesc b).total ∧ settled s = true ∧ s.dueAt 0 5 = none) ∧
    (let h : Hoop := { st := [(3, .releasing)], rel := [(3, 0)], c := 2 }
     let s := { (State.reset.updQuad 0 fun q => { q with hoops := [(63, ⟨h, h, 0⟩)] }) with now := 1 }
     ((s.quad 0).hoop 63).cur.slotSt 3 = .releasing ∧ thas h.rel 3 = true ∧ tget h.rel 3 < s.now) ∧
    (let a : BbAcc := { id := 1, rel := some 0, n := 5 }
     let b : Bb := { armed := true, expected := 9, arrived := 4 }
     let s := { (State.reset.updQuad 0 fun q => { q with bbs := [(63, ⟨b, b, 0⟩)], bbAcc := [(63, [a])] }) with now := 1 }
     tget (s.quad 0).bbAcc 63 = a :: [] ∧ a.rel = some 0 ∧ 0 < s.now ∧ b.arrived + a.n = b.expected ∧ b.expected < 2 ^ 32) := by
  decide +kernel

/-- Vat 1 mapped, with itself as its one peer, and an ember of it in slot 5 of core 0. -/
def hired (e : Ember) : State :=
  (mapped.updVat 1 fun v => { v with peers := [{ valid := true, r := true, w := true, a := true }] }).updCore 0 fun k =>
    { k with embers := [(5, some { e with vat := 1 })], moldRes := [(1, [])] }
/-- A collective of 64 FP32 elements from 2^32 + 0x2000 to 2^32 + 0x3000: axis 0 has two dies, or none; sum, or whey. -/
def collBlk (mode ax : Nat) : List Byte :=
  blockOf 64 [(0, mode), (3, 1), (4, ax), (14, if ax = 0 then 0 else 1), (20, if mode = 2 then 100 else 0), (24, 64), (28, 1), (32, 1), (36, 1),
    (40, 2 ^ 32 + 0x2000), (48, 2 ^ 32 + 0x3000), (56, if mode = 2 then 2 ^ 32 + 0x4000 else 0)]
def gathered (r : CollRun) : State :=
  { hired { ready .coll r.cmd with began := true, st := ⟨.running, .running, 0⟩ } with colls := [r] }
theorem witness_CollectiveAndCaveEvents :
    (let e : Ember := { ready .coll (collBlk 0 0) with vat := 1 }
     let s := hired e
     s.issue.active = false ∧ s.emberAt 9 = some (.live 0 5, e) ∧ (s.core 0).ember 5 = some e ∧ s.canStart 0 5 2 = true ∧ e.struck = false ∧
      e.st.cur.final = false ∧ s.collFault 0 e = none ∧
      (let o := s.updCore 0 fun k => k.setEmber 5 { e with offered := true }
       ((groupOf e.cmd (s.memberPid 0 e.vat)).mapM fun p => (o.offerOf 0 { e with offered := true } p).map fun x => (p, x)) =
        some [(0, 0, 5, { e with offered := true })])) ∧
    (let e : Ember := { ready .coll [] with vat := 1 }
     (hired e).collFault 0 e = some (0x04, 0)) ∧
    (let r : CollRun := { uid := 9, vat := 1, cmd := collBlk 0 65, group := [(0, 9), (1, 10)] }
     let s := gathered r
     s.collRun 9 = some r ∧ (s.modu (r.core / 1024)).halted = false ∧ r.wants 0 0 = true ∧ s.memberRun r 0 = some r ∧ r.pid = 0 ∧
      s.engCheck r.core r.vat [] ((partElems r r 0).flatMap (partVas r r)) [] = none ∧ collMode r.cmd ≠ 2 ∧
      (1 ∈ r.senders 0 ∧ 1 ≠ 0 ∧ r.lost.contains 1 = false ∧ ∀ p ∈ r.pieces, p.block = 0 → p.sender ≠ 1)) ∧
    (let r : CollRun := { uid := 9, vat := 1, cmd := collBlk 2 65, group := [(0, 9), (1, 10)] }
     let s := gathered r
     collMode r.cmd = 2 ∧ s.now < r.deadline ∧ r.wants 0 0 = true ∧ 1 ∈ r.senders 0 ∧ r.deadline ≤ ({ s with now := 10 ^ 9 } : State).now) ∧
    (let r : CollRun := { uid := 9, vat := 1, cmd := collBlk 0 0, group := [(0, 9)], done := [0], valid := [0] }
     let s := gathered r
     s.sourceRead r = true ∧ r.bad = none ∧ settled s = true ∧ (s.emberAt 9).map (fun x => x.2.st.cur) = some .running) := by
  decide +kernel
/-- A byte of the mapped region lies at its own place, whatever it is read or written for. -/
theorem hired_engByte (e : Ember) (wr : Bool) (va : Nat) (h1 : 2 ^ 32 ≤ va) (h2 : va ≤ 2 ^ 32 + 0xFFFF) :
    (hired e).engByte 0 1 [] wr va = .ok (0x100000 + (va - 2 ^ 32)) := by
  have hr : (hired e).rangeEntry 1 0 = { base := 2 ^ 32, limit := 2 ^ 32 + 0xFFFF, phys := 0x100000, attr := 15 } := by
    show (hired {}).rangeEntry 1 0 = _
    decide +kernel
  have hn : ((hired e).vat 1).desc.ranges = 1 := by
    show ((hired {}).vat 1).desc.ranges = 1
    decide +kernel
  have hreg : regionOf va = some (.glob, 2 ^ 56 - 1) := by
    unfold regionOf
    rw [if_neg (by omega), if_neg (by omega), if_pos (by omega)]
  have hp : paLoc 0 (0x100000 + (va / 4096 * 4096 - 2 ^ 32)) = some (0x100000 + (va / 4096 * 4096 - 2 ^ 32)) := by
    unfold paLoc hbmBytes
    rw [if_pos (by omega)]
    have h0 : (0x100000 + (va / 4096 * 4096 - 2 ^ 32)) / 2 ^ 39 = 0 := by omega
    rw [h0, Nat.mod_eq_of_lt (by omega), Nat.mul_zero, Nat.add_zero, Nat.zero_mul, Nat.zero_add]
  have hw : (hired e).walk 1 va = some {
      vat := 1, page := va / 4096, loc := 0x100000 + (va / 4096 * 4096 - 2 ^ 32), r := true, w := true, x := true, cached := true, resident := true, range := some 0 } := by
    unfold State.walk
    rw [hn]
    have hl : (List.range 1) = [0] := rfl
    have hm : vatMod 1 = 0 := by decide
    simp only [hl, List.find?, hr, RangeEntry.valid]
    have h15 : (15 % 2 == 1) = true := rfl
    simp only [h1, h2, decide_true, Bool.and_true, h15, hr, rangeXlat, hm]
    rw [if_pos (by decide +kernel), hp]
    rfl
  unfold State.engByte State.xlat tlbFind
  rw [hreg]
  simp only [List.find?, hw]
  cases wr <;> simp <;> omega

theorem engCheck_none_of_ok (s : State) (core vat : Nat) (rds wrs : List Nat)
    (h : ∀ wr va, va ∈ rds ++ wrs → ∃ l, s.engByte core vat [] wr va = .ok l) : s.engCheck core vat [] rds wrs = none := by
  have hx : ∀ x ∈ (rds.map fun va => (va, s.engByte core vat [] false va)) ++ wrs.map fun va => (va, s.engByte core vat [] true va),
      ∃ l, x.2 = .ok l := by
    intro x hx
    rcases List.mem_append.mp hx with hx | hx <;> obtain ⟨va, hv, rfl⟩ := List.mem_map.mp hx
    · exact h false va (List.mem_append.mpr (.inl hv))
    · exact h true va (List.mem_append.mpr (.inr hv))
  unfold State.engCheck
  have h1 : ∀ p : EAcc → Bool, (∀ l, p (.ok l) = false) →
      ((rds.map fun va => (va, s.engByte core vat [] false va)) ++ wrs.map fun va => (va, s.engByte core vat [] true va)).find?
        (fun x => p x.2) = none := by
    intro p hp
    rw [List.find?_eq_none]
    intro x hm
    obtain ⟨l, hl⟩ := hx x hm
    simp [hl, hp]
  simp only [h1 EAcc.isMiss (fun _ => rfl), h1 EAcc.isPerm (fun _ => rfl), Option.map_none]

theorem nodup_of_rising : ∀ l : List Nat, ((l.zip l.tail).all fun x => decide (x.1 < x.2)) = true → l.Nodup
  | [], _ => List.nodup_nil
  | [_], _ => by simp
  | a :: b :: t, h => by
    simp only [List.tail_cons, List.zip_cons_cons, List.all_cons, Bool.and_eq_true, decide_eq_true_eq] at h
    have ih := nodup_of_rising (b :: t) h.2
    rw [List.nodup_cons]
    refine ⟨fun hm => ?_, ih⟩
    have hlt : ∀ l : List Nat, ∀ b, ((((b :: l).zip l).all fun x => decide (x.1 < x.2)) = true) → ∀ x ∈ b :: l, b ≤ x := by
      intro l
      induction l with
      | nil => intro b _ x hx; simp at hx; omega
      | cons c u ih =>
        intro b hb x hx
        simp only [List.zip_cons_cons, List.all_cons, Bool.and_eq_true, decide_eq_true_eq] at hb
        rcases List.mem_cons.mp hx with rfl | hx
        · omega
        · have := ih c hb.2 x hx
          omega
    have := hlt t b h.2 a hm
    omega

/-- A cave update of one element, under way. -/
def caving : Ember :=
  { ready .cave (blockOf 128 [(0, 2 ^ 32), (8, 2 ^ 32 + 0x2000), (16, 2 ^ 32 + 0x4000), (24, 2 ^ 32 + 0x8000), (32, 1), (48, 0x21), (49, 0x21)])
    with vat := 1, began := true, st := ⟨.running, .running, 0⟩ }
def inMapped (l : List Nat) : Bool := l.all fun va => decide (2 ^ 32 ≤ va) && decide (va ≤ 2 ^ 32 + 0xFFFF)
theorem inMapped_ok (e : Ember) (wr : Bool) (l : List Nat) (h : inMapped l = true) (va : Nat) (hv : va ∈ l) :
    (hired e).engByte 0 1 [] wr va = .ok (0x100000 + (va - 2 ^ 32)) := by
  have := List.all_eq_true.mp h va hv
  simp only [Bool.and_eq_true, decide_eq_true_eq] at this
  exact hired_engByte e wr va this.1 this.2
theorem caving_reach : inMapped ((caveCmd caving.cmd).reach 0).1 = true ∧ inMapped ((caveCmd caving.cmd).reach 0).2 = true := by
  decide +kernel
theorem caving_writes : inMapped (((hired caving).caveGroup 0 caving (caveCmd caving.cmd) 0).1.map (·.1)) = true := by
  decide +kernel
theorem caving_rising : let l := ((hired caving).caveGroup 0 caving (caveCmd caving.cmd) 0).1.map fun w => 0x100000 + (w.1 - 2 ^ 32)
    ((l.zip l.tail).all fun x => decide (x.1 < x.2)) = true := by decide +kernel
theorem witness_CollectiveAndCaveEvents_cave :
    (let e : Ember := { ready .cave (caving.cmd.take 64) with vat := 1 }
     let s := hired e
     s.issue.active = false ∧ s.emberAt 9 = some (.live 0 5, e) ∧ (s.core 0).ember 5 = some e ∧ e.op = .cave ∧ e.allDone = false ∧
      (s.modu (e.ctx / 4096)).halted = false ∧ e.began = false ∧ s.canStart 0 5 3 = true ∧ s.caveFault 0 e = none) ∧
    (let e := caving
     let s := hired e
     s.emberAt 9 = some (.live 0 5, e) ∧ (s.core 0).ember 5 = some e ∧ e.began = true ∧ coreOf e.ctx = 0 ∧ e.prog = 0 ∧ e.vat = 1 ∧
      e.work = none ∧ s.lockedLines = [] ∧ settled s = true) ∧
    (let e := { caving with work := some { isRead := true, todo := [(2 ^ 32, 1), (2 ^ 32 + 1, 2), (2 ^ 32 + 2, 3), (2 ^ 32 + 3, 4), (2 ^ 32 + 4, 5)] } }
     let s := hired e
     s.emberAt 9 = some (.live 0 5, e) ∧ e.began = true ∧
      leads (.caveUpdateStep 9 (1, none)) s (fun t => t.byte 0x100000 == 1 && t.byte 0x100003 == 4 && t.byte 0x100004 == 0) = true) ∧
    (let e := caving
     let s := hired e
     let c := caveCmd e.cmd
     let g := s.caveGroup 0 e c 0
     let dst := fun va => 0x100000 + (va - 2 ^ 32)
     s.engCheck 0 1 [] (c.reach 0).1 (c.reach 0).2 = none ∧ s.engPoison 0 1 [] (c.reach 0).1 = none ∧
      (∀ w ∈ g.1, s.engByte 0 1 [] true w.1 = .ok (dst w.1)) ∧ (g.1.map fun w => dst w.1).Nodup) := by
  refine ⟨by decide +kernel, by decide +kernel, by decide +kernel, ?_, ?_, ?_, nodup_of_rising _ caving_rising⟩
  · refine engCheck_none_of_ok _ _ _ _ _ fun wr va hv => ?_
    rcases List.mem_append.mp hv with hv | hv
    · exact ⟨_, inMapped_ok caving wr _ caving_reach.1 va hv⟩
    · exact ⟨_, inMapped_ok caving wr _ caving_reach.2 va hv⟩
  · refine List.find?_eq_none.mpr fun va _ => ?_
    have hp : (hired caving).poison = [] := by decide +kernel
    simp [State.isBad, hp]
  · exact fun w hw => inMapped_ok caving true _ caving_writes w.1 (List.mem_map.mpr ⟨w, hw, rfl⟩)

/-- A descriptor of a vat of n wheels whose code lies at 2^32 in the mapped region. -/
def descBlk (n : Nat) : List Byte :=
  blockOf 256 [(0, 2 ^ 32), (8, 64), (16, 2 ^ 32 + 0x400), (24, 2 ^ 32), (33, 1), (36, n), (41, 255), (96, 0x1000), (104, 1)]
/-- Die 0 in service, with ring 0 of 16 entries at 0x10000, its head and tail words at 0x20000 and 0x20040; the host is there. -/
def serving : State :=
  { mapped with
    vats := []
    ctxs := []
    mods := [(0, { modcfg := 2 ^ 63, hostport := some false, ports0 := true })]
    dies := [(0, { isolated := false, stage := 5, qbase := [(0, 0x10000)], qcfg := [(0, 0x104)], qhead := [(0, 0x20000)], qtail := [(0, 0x20040)] })] }
/-- A vat in the machine, of n wheels, first of queue 0 of die 0. -/
def hosting (n : Nat) (f : Vat → Vat) : State :=
  let v : Vat := { desc := descOf (descBlk n), phase := .ready, next := n }
  { (serving.updDie 0 fun d => { d with queues := [(0, [1])] }) with vats := [(1, f v)], ctxs := [] }
theorem witness_FlueQueueAndPlacementEvents_ring :
    (let s := put 0x30000 256 (leNat (descBlk 1)) (put 0x10000 8 0x30000 serving)
     let d := s.die 0
     let i := tget d.qnext 0
     s.issue.active = false ∧ (s.modu 0).halted = false ∧ s.dieHealthy 0 = true ∧ (tget d.qcfg 0).getLsbD 8 = true ∧
      s.ringLocs 0 0 i = some (0x10000, 0x20000) ∧ s.rd (0x10000 + 8) 4 = i % 2 ^ 32 ∧
      (let pa := s.rd 0x10000 8
       let u := (s.setBytes ((leBytes 8 (i + 1)).zipIdx.map fun (x : Byte × Nat) => (0x20000 + x.2, x.1))).updDie 0 fun d =>
        { d with qnext := tset d.qnext 0 (i + 1) }
       let key := (u.nextVatId 0).1
       paLoc 0 pa = some 0x30000 ∧ pa % 64 = 0 ∧ (s.die 0).isolated = false ∧ paRunOk pa (pa + 255) = true ∧
        (∀ j < 8, s.isBad (0x30000 + 32 * j) = false) ∧
        (let b := u.bytesAt ((List.range 256).map (· + 0x30000))
         let w := (u.updDie 0 fun d => { d with enq := (u.nextVatId 0).2 }).setVat key { descPa := pa, die := 0, queue := 0, desc := descOf b }
         w.refusal key b = none))) := by decide +kernel
theorem witness_FlueQueueAndPlacementEvents_ready :
    (let x : VDep := { sem := 3, valid := true, consume := true, threshold := 2 }
     let s := hosting 1 fun v => { v with phase := .queued, desc := { v.desc with deps := [x] } }
     let s := s.updDie 0 fun d => { d with sems := [(3, ⟨{ count := 5 }, { count := 5 }, 0⟩)] }
     let t := s.updDie 0 fun d => { d with sems := [(3, ⟨{ bad := true }, { bad := true }, 0⟩)] }
     s.issue.active = false ∧ (s.modu 0).halted = false ∧ thas s.vats 1 = true ∧ (s.vat 1).phase = .queued ∧ (s.vat 1).cancelled = false ∧
      ((s.die 0).sem 3).cur.bad = false ∧ x.threshold ≤ ((s.die 0).sem 3).cur.count ∧ (s.vat 1).desc.deps.filter (·.valid) = [x] ∧
      (s.vat 1).desc.deps.find? (fun x => x.valid && ((t.die 0).sem x.sem).cur.bad) = some x) := by decide +kernel
theorem witness_FlueQueueAndPlacementEvents_place :
    (let s := hosting 2 id
     s.issue.active = false ∧ (s.modu 0).halted = false ∧ thas s.vats 1 = true ∧ (s.vat 1).cancelled = false ∧ (s.vat 1).phase ≠ .queued ∧
      (s.vat 1).desc.gang = 255 ∧ s.spans 1 = false ∧ s.flueChoice 0 = some 1 ∧ (s.placeOne 1 0 0 0 0 [] [0]).isSome = true) ∧
    (let s := (hosting 2 fun v => { v with desc := { v.desc with dieMask := 3 } }).updDie 1 fun d => { d with isolated := false, stage := 5 }
     s.spans 1 = true ∧ 1 ∈ s.vatDies 1 ∧ s.dieHealthy 1 = true ∧ s.orderOk 1 = true ∧ (s.vat 1).lostLeader = false ∧
      (s.vat 1).granted + 2 ≤ (s.vat 1).desc.wheels ∧ (s.vat 1).grants = [] ∧ (s.search 1 2 (dieCtxs 1)).isSome = true) := by decide +kernel
/-- Quad 0 of die 0 the only one in service, all its contexts held by vat 1, and vat 2 ready. -/
def crowded : State :=
  let v : Vat := { desc := descOf (descBlk 16), phase := .running, next := 16, started := 16, granted := 16 }
  { (serving.updDie 0 fun d => { d with queues := [(0, [2])] }) with
    vats := [(1, v), (2, { desc := descOf (descBlk 1), phase := .ready, next := 1 })]
    ctxs := (List.range 16).map fun cx => (cx, { wheel := some { vat := 1, idx := cx, start := cx }, phase := .running })
    cores := (List.range 4).map fun k => (k, { moldRes := [(1, [])] })
    quads := (0, { dictRange := [(1, (0, 0))], parkRes := [(1, 0)], fixedRes := [(1, 0)] }) :: (List.range 31).map fun q => (q + 1, { isolated := true }) }
theorem witness_FlueQueueAndPlacementEvents_preload :
    (let s := crowded
     let q := s.quad 0
     s.issue.active = false ∧ (s.modu 0).halted = false ∧ s.vatsOn 0 = [1] ∧ thas s.vats 2 = true ∧ (s.vat 2).cancelled = false ∧
      (s.vat 2).phase = .ready ∧ q.preload = none ∧ q.isolated = false ∧ q.draining = false ∧ s.dieHealthy (0 / 32) = true ∧ s.orderOk 2 = true ∧ 0 / 32 ∈ s.vatDies 2 ∧
      s.newOnQuad 2 0 = true ∧
      (∀ j < 4, s.newOnCore 2 (4 * 0 + j) = true ∧ (s.vat 2).desc.moldGran ≤
        ((List.range 256).filter fun g => decide ((s.vat 2).desc.fixed ≤ g) && !s.granTaken (4 * 0 + j) g).length) ∧
      s.placeable 2 = false ∧ firstFrom 4097 0 (fun b => q.dictFree b (s.vat 2).desc.dictSize) = some 0) ∧
    (let s := { (crowded.updQuad 0 fun q => { q with preload := some (2, 0, 1) }) with ctxs := [] }
     (s.quad 0).preload = some (2, 0, 1) ∧ 1 ∉ s.vatsOn 0) := by decide +kernel
theorem witness_CompletionAndEnergyEvents :
    (let s := hosting 1 fun v => { v with phase := .running, started := 1 }
     let t := hosting 1 fun v => { v with phase := .running, started := 1, rerun := true }
     s.issue.active = false ∧ (s.modu 0).halted = false ∧ thas s.vats 1 = true ∧ (s.vat 1).phase = .running ∧ (s.vat 1).cancelled = false ∧
      s.vatDone 1 = true ∧ (s.vat 1).rerun = false ∧ t.vatDone 1 = true ∧ (t.vat 1).rerun = true) ∧
    (let s := hosting 1 fun v => { v with energy := 5000, desc := { v.desc with budget := 5 } }
     (s.vat 1).desc.budget ≠ 0 ∧ (s.vat 1).energy ≤ 5000 ∧ 10 < (s.vat 1).energy ∧ (s.vat 1).demotions = 0 ∧
      ((hosting 1 id).vat 1).desc.budget = 0) ∧
    (let s := { (crowded.updVat 1 fun v => { v with cls := 2, startAt := some 0 }) with now := 160000 }
     let worse := fun w => (s.vat 2).cls < (s.vat w).cls ∧ (s.vat w).phase = .running ∧ (∃ k ∈ s.vatCores w, k ∉ (s.vat w).halting) ∧
      ∃ d ∈ s.vatDies w, d ∈ s.vatDies 2
     s.issue.active = false ∧ (s.modu 0).halted = false ∧ (s.vat 2).phase = .ready ∧ (s.vat 2).cancelled = false ∧
      (s.vat 2).readyAt + 160000 ≤ s.now ∧ s.placeable 2 = false ∧ worse 1 ∧ ¬ worse 2 ∧ (s.vat 1).halting = [] ∧ (s.vat 2).halting = [] ∧ tkeys s.vats = [1, 2] ∧
      ∀ k ∈ s.vatCores 1, thas (s.core k).moldRes 1 = true) ∧
    (∀ j < 4, (State.reset.ctx (4 * 7 + j)).wheel = none) := by decide +kernel
theorem witness_WheelAndPreemptionEvents :
    (let s := { (hosting 1 fun v => { v with phase := .running, started := 1 }) with ctxs := [(0, { wheel := some { vat := 1 }, phase := .ending })] }
     s.issue.active = false ∧ (s.modu (modOf 0)).halted = false ∧ (s.ctx 0).wheel = some { vat := 1 } ∧ s.wheelOver 0 = true) ∧
    (let s := { (hosting 1 fun v => { v with phase := .running, started := 1, halting := [0] }) with
        ctxs := [(0, { wheel := some { vat := 1 }, phase := .running })] }
     (s.modu (modOf 0)).halted = false ∧ s.halting 1 (coreOf 0) = true ∧ (s.ctx 0).phase = .running ∧ (s.vat 1).cancelled = false) ∧
    (let s := { (hosting 1 fun v => { v with phase := .running, started := 1, halting := [0] }) with
        ctxs := [(0, { wheel := some { vat := 1 }, phase := .halted })] }
     (s.modu (vatMod 1)).halted = false ∧ thas s.vats 1 = true ∧ s.maySave 1 0 = true ∧ 0 ∈ s.ctxsOf 1 0) ∧
    (let k : CoreSave := { core := 0, ctxs := [(0, { wheel := some { vat := 1 }, phase := .halted, pc := 0x80 })], hasQuad := true }
     let s := hosting 1 fun v => { v with phase := .running, started := 1, saves := [k] }
     let set := (s.vat 1).resumeSet k
     (s.vat 1).saves.find? (fun k => k.core == 0) = some k ∧ s.groupFits 1 (4 / 4) k = true ∧ s.flueChoice (s.vat 1).die = some 1 ∧
      set = [k] ∧ (set.map (·.core % 4)).Nodup ∧ (s.vat 1).gangOf 0 = none ∧
      ∀ x ∈ set, (x.ctxs.map (·.1)).Nodup ∧ ∀ y ∈ x.ctxs, y.1 < 4 ∧ y.2.farWait = [] ∧ y.2.phase = .halted) := by decide +kernel
/-- Two cores of different quads saved, of one gang: the first resumes and its wheel stays halted. -/
theorem witness_WheelAndPreemptionEvents_gang :
    (let c := fun i : Nat => ({ wheel := some { vat := 1, idx := i, start := i }, phase := .halted } : Ctx)
     let k0 : CoreSave := { core := 0, ctxs := [(0, c 0)], hasQuad := true }
     let k1 : CoreSave := { core := 4, ctxs := [(0, c 1)], hasQuad := true }
     let s := hosting 2 fun v => { v with phase := .running, started := 2, saves := [k0, k1], desc := { v.desc with gang := 1 } }
     let set := (s.vat 1).resumeSet k0
     s.groupFits 1 0 k0 = true ∧ s.flueChoice (s.vat 1).die = some 1 ∧ set = [k0] ∧ k1 ∈ (s.vat 1).saves ∧ k1 ∉ set ∧
      (s.vat 1).gangOf 0 = (s.vat 1).gangOf 1 ∧ ((s.vat 1).gangOf 0).isSome = true ∧
      leads (.vatResume 1 0 0) s (fun t => (t.ctx 0).phase == .halted && (t.ctx 0).wheel == some { vat := 1, idx := 0, start := 0 }) = true) := by
  decide +kernel
theorem witness_HostMessages :
    (let s := serving
     let d := s.die 0
     s.takes 0 0 false = true ∧ s.dieServes 0 = true ∧ (paLoc 0 0x30000).isSome = true ∧ d.queueOn 0 = true ∧
      paLoc 0 (tget d.qtail 0).toNat = some 0x20040 ∧ paLoc 0 (tget d.qhead 0).toNat = some 0x20000 ∧
      s.ringLocs 0 0 (s.rd 0x20040 8) = some (0x10000, 0x20000) ∧ s.rd 0x20040 8 - s.rd 0x20000 8 < 2 ^ ((tget d.qcfg 0).toNat % 32) ∧
      (0x20040 + 8 ≤ 0x10000 ∨ 0x10000 + 12 ≤ 0x20040)) ∧
    (let s := hosting 1 fun v => { v with phase := .running }
     s.takes 0 0 false = true ∧ thas s.vats (vatKeyOf 0 1) = true ∧ (s.vat (vatKeyOf 0 1)).cancelled = false ∧
      (s.vat (vatKeyOf 0 1)).phase = .running ∧ s.dieServes 0 = true ∧ thas (s.die 0).doms 5 = false ∧ (s.die 0).doms.length < 64 ∧
      ((s.walk (vatKeyOf 0 1) (2 ^ 32 + 0x1000)).map (·.resident)) = some true ∧ s.dmaLoc 0 0x30000 4 = some 0x30000) ∧
    (let s := (hosting 1 id).updDie 0 fun d => { d with doms := [(5, (1, 2 ^ 32))], resvat := 1 }
     thas (s.die 0).doms 5 = true ∧ s.issue.active = false ∧ thas s.vats (s.resVat 0) = true) ∧
    (let s := { serving with poison := [0x30000 / 32] }
     s.dmaLoc 0 0x2FFFF 4 = some 0x2FFFF ∧ s.isBad (0x2FFFF + 1) = true ∧ ∀ j < 1, s.isBad (0x2FFFF + j) = false) := by decide +kernel
theorem witness_ManagementMessages :
    (let s := serving
     s.takes 0 0 true = true ∧ s.takes 0 0 false = true ∧ mgmtOk 0x210 = true ∧ (4000000 : Word).toNat = 4000000 ∧ (1 : Word).toNat % 64 ≠ 0 ∧
      (s.die 0).hcmd.busy = false ∧ s.hcmdRefused 0 9 7 = false ∧ (9 + 7 * 256 : Word).toNat = 9 + 7 * 256 ∧
      ((s.updDie 0 fun d => { d with hcmd := { busy := true } }).die 0).hcmd.busy = true) ∧
    (State.reset.modu 0).secpol.getLsbD 63 = false ∧ (2 : Word).toNat % 2 ^ 63 < 3 ∧ (State.reset.modu 0).modcfg.getLsbD 63 = false ∧
    (511 : Word).toNat % 2 ^ 63 < 512 ∧ (serving.modu 0).modcfg.getLsbD 63 = true ∧
    (let s := { (serving.updMod 0 fun m => { m with ports0 := false, ports4 := true, downAt := some 0 }) with now := 1600000 }
     let m := s.modu 0
     s.issue.active = false ∧ m.halted = false ∧ m.hostport = some false ∧ m.ports4 = true ∧ m.downAt = some 0 ∧ 0 + 1600000 ≤ s.now) := by
  decide +kernel
/-- Die 0 in service with a management command under way. -/
def commanded (op target : Nat) : State := serving.updDie 0 fun d => { d with hcmd := { busy := true, op := op, target := target } }
theorem witness_RepairEvents :
    (commanded 1 5).issue.active = false ∧ ((commanded 1 5).quad 5).isolated = false ∧ (commanded 1 5).hcmdIs 0 1 5 = true ∧
    ((commanded 1 5).quad 5).draining = false ∧
    (let s := (commanded 1 5).updQuad 5 fun q => { q with draining := true }
     (s.quad 5).draining = true ∧ (s.quad 5).isolated = false ∧ s.quadBusy 5 = false) ∧
    (commanded 2 5).hcmdIs 0 2 5 = true ∧ (commanded 3 9).hcmdIs 0 3 9 = true ∧ ((commanded 3 9).core 9).retired = false ∧
    ((commanded 3 9).core 9).draining = false ∧
    (let s := (commanded 3 9).updCore 9 fun k => { k with draining := true }
     (s.core 9).draining = true ∧ s.coresBusy [9] = false) ∧
    ((commanded 4 0).die 0).isolated = false ∧ (commanded 4 0).hcmdIs 0 4 0 = true ∧ ((commanded 4 0).die 0).draining = false ∧
    (let s := (commanded 4 0).updDie 0 fun d => { d with draining := true }
     (s.die 0).draining = true ∧ ∀ q < 32, s.quadBusy (32 * 0 + q) = false) ∧
    (commanded 5 0).hcmdIs 0 5 0 = true ∧ (commanded 6 3).hcmdIs 0 6 3 = true ∧ 0 / 8 * 8 + 3 ≠ 0 ∧ (commanded 7 2).hcmdIs 0 7 2 = true ∧
    (let s := commanded 6 3
     (({ s with dies := tset s.dies 0 { s.die 0 with links := [(3, { recal := true })] } } : State).link 0 3).recal = true) ∧
    (((commanded 7 2).updDie 0 fun d => { d with hbmRecal := some 2 }).die 0).hbmRecal.isSome = true ∧
    (commanded 8 3).hcmdIs 0 8 3 = true ∧ (commanded 9 3).hcmdIs 0 9 3 = true ∧ (commanded 0x10 0).hcmdIs 0 0x10 0 = true ∧
    (commanded 0x10 0).loadImage 0 = none ∧ (commanded 0x11 0).hcmdIs 0 0x11 0 = true ∧
    (((commanded 0x11 0).updDie 0 fun d => { d with fwRun := some (1, 7) }).die 0).fwRun = some (1, 7) := by decide +kernel
theorem witness_ErrorEvents :
    (let s := serving
     let lim := tget (s.die 0).fclim 1
     let kept := fun s : State => (tget (s.die 0).counters (2 ^ 16 * 1 + 7)).filter (fun t => decide (s.now ≤ t + windowCycles 1 lim.2)) ++ [s.now]
     let t := s.updDie 0 fun d => { d with counters := [(2 ^ 16 * 1 + 7, [0])] }
     s.issue.active = false ∧ (s.die 0).events.length < 1024 ∧ (s.die 0).ce < 2 ^ 64 - 1 ∧ (kept s).length < lim.1 ∧
      lim.1 ≤ (kept t).length ∧ 0 < tget (t.die 0).hbmSpare (7 / 2 ^ 13)) ∧
    (let e := ready (.zero false) []
     ((pressed e).core 0).ember 5 = some e ∧ e.began = false ∧ e.struck = false ∧ e.st.cur.final = false) ∧
    (State.reset.die (ueDie (.unit 5))).ce < 2 ^ 64 - 1 ∧ State.reset.colls = [] ∧ 1 ∉ [0] := by decide +kernel
theorem witness_AlarmResetAndBringupEvents :
    (State.reset.modu 0).secpol.getLsbD 63 = false ∧ ((State.reset.modu 0).alarm.getLsbD 0 = false) ∧
    (let d := State.reset.die 0
     State.reset.issue.active = false ∧ (State.reset.modu (0 / 8)).halted = false ∧ d.heldTest = false ∧ d.stage = 1) ∧
    (let s := State.reset.updDie 0 fun d => { d with stage := 2 }
     (s.die 0).heldTest = false ∧ (s.die 0).stage = 2) ∧
    (let s := State.reset.updDie 0 fun d => { d with stage := 3 }
     (s.die 0).stage = 3 ∧ (s.die 0).heldHbm = false ∧ s.cycle 0 ≤ 128000000 ∧ 128000000 < ({ s with now := 128000001 } : State).cycle 0) ∧
    (let s := { State.reset with now := 160000001 }
     let m := s.modu 0
     m.hostport = none ∧ 160000000 < s.now - m.resetAt ∧ m.ports0 = false ∧ m.ports4 = false ∧
      ({ State.reset with now := 160000000 } : State).now - m.resetAt ≤ 160000000) := by decide +kernel

/-- A context with the operands of an ember command: block address ba in s4. -/
def blocked (ba : Nat) : State := withS [(4, ba)] wheeled
theorem witness_ExecutionTraps_ember :
    (let c : EcHdr := { name := 7, prio := 0, d := 9, a := 4 }
     ∀ ba ∈ [8, 2 ^ 20 - 64, 2 ^ 40, 64], let s := blocked ba
      s.issue.active = false ∧ s.cc.pr 0 = true ∧ s.cc.marks = [] ∧ (sv s c.a).toNat = ba) ∧
    8 % 64 ≠ 0 ∧ inOneSpad (2 ^ 20 - 64) 128 = false ∧ inOneSpad (2 ^ 40) 64 = false ∧ inOneSpad 64 64 = true ∧ (6 : Fin 64).val % 2 = 0 ∧
    (let s := (blocked 64).updCore 0 fun k => { k with embers := [(5, some { vat := 1, name := 7 })] }
     ∃ x ∈ (s.core (coreOf s.cur)).live, x.2.vat = s.cc.vatKey ∧ x.2.name = 7) ∧
    (let s := blocked 64
     (s.core (coreOf s.cur)).live = [] ∧ (s.quad (quadOf s.cur)).leaseTakes s.cur s.cc.wid = false) := by decide +kernel
theorem witness_ExecutionTraps_record : let r : PoisonRec := { cls := 1, addr := 0x40, after := 3 }
    let x : PoisonRec := { cls := 1, addr := 0x80, after := 0 }
    let s := wheeled.updCur fun c => c.setLv { c.lv with poison := [x, r] }
    let ts := [255, 2, 255, 255]
    s.issue.active = false ∧ s.cc.pr 0 = true ∧ s.cc.marks = [] ∧ s.cc.lv.poison = [x] ++ r :: [] ∧ (∀ k < 4, ts[k]? = some 255 ∨ s.cc.cnt k ≤ 2) ∧
      ts[x.cls]? = some 2 ∧ ¬2 ≤ x.after ∧ ts[r.cls]? = some 2 ∧ 2 ≤ r.after := by decide +kernel
theorem witness_ExecutionTraps_loops :
    (let stop := wheeled.cc.pc + 2 * BitVec.signExtend 64 (0 : BitVec 25)
     stop.toNat ≤ (wheeled.cc.pc + BitVec.ofNat 64 wheeled.issue.len).toNat) ∧
    (let s := wheeled.updCur fun c => c.setLv { c.lv with loops := List.replicate 4 ⟨0x20, 0x80, 2⟩ }
     4 ≤ s.cc.lv.loops.length ∧ ∃ e ∈ s.cc.lv.loops, e.stop = s.cc.pc + 2 * BitVec.signExtend 64 (0x20 : BitVec 25)) ∧
    (let s := wheeled.updCur fun c => c.setLv { c.lv with loops := [⟨0x20, 0x40 + BitVec.ofNat 64 wheeled.issue.len, 2⟩] }
     s.cc.lv.loops.getLast? = some ⟨0x20, 0x40 + BitVec.ofNat 64 wheeled.issue.len, 2⟩ ∧ (0x20 : Word).toNat ≤ s.cc.pc.toNat) ∧
    (let s := withS [(1, 2 ^ 9 + 8 * 25 + 5)] wheeled
     sv s 1 >>> 9 ≠ 0 ∧ 25 ≤ (sv s 1).toNat / 8 % 32 ∧ 5 ≤ (sv s 1).toNat % 8 ∧ sv s 1 >>> 5 ≠ 0 ∧ s.cc.marks = []) ∧
    (let s := withS [(1, 1)] handling
     s.cc.level = 1 ∧ (sv s 1).getLsbD 0 = true ∧ s.issue.active = false ∧ s.cc.pr 0 = true) := by decide +kernel

theorem witness_StepRunsOneEvent_turns :
    (let s := { State.reset with sched := [(0, .tamperMesh 0)] }
     s.nextEvent = some (.tamperMesh 0, State.reset) ∧ State.reset.inTurn (.tamperMesh 0) = true) ∧
    (let s := { State.reset with sched := [(0, .add 0 3 1 2)] }
     s.nextEvent = some (.add 0 3 1 2, State.reset) ∧ (Instr.add 0 3 1 2).isEvent = false) ∧
    (let u := (placed 4 0x000000841020).updQuad 0 fun q => { q with bbAcc := [(7, [{ id := 1, core := 0, n := 8, rel := some 0 }])] }
     u.inTurn (.bbArriveApply 0 7) = true ∧ u.inTurn (.bundleIssue 0) = true) ∧
    (let u := { placed 3 0xFF with sched := [] }
     let s := { u with sched := [(0, .contextHalt 0)] }
     s.nextEvent = some (.contextHalt 0, u) ∧ u.inTurn (.contextHalt 0) = false) := by decide +kernel
theorem witness_StepRunsTheDecodedInstruction_open : let v := (placed 4 0x000000841020).atIssue 0
    let w := { v with issue := { v.issue with len := 50 } }
    (placed 4 0x000000841020).inTurn (.bundleIssue 0) = true ∧ w.bundleTrap (opsOf [(4, .addi 0 2 2 1)]) = none ∧
      w.bundleWaits (opsOf [(4, .addi 0 2 2 1)]) = false := by decide +kernel
theorem witness_IssueAndDeliveryEvents_traps :
    ((placed 3 0xFF).atIssue 0).fate = .trap [] none ⟨0x03, 3, 0xFF⟩ ∧
    ((placed 3 0x00091A000020).atIssue 0).fate = .trap [(3, .brk 0 0x1234)] (some 3) ⟨0x0B, 3, 0x1234⟩ := by decide +kernel
/-- Context 0 runs and is blocked at a far instruction; the next in order after it is ready. -/
theorem witness_IssueAndDeliveryEvents_select :
    (let s := (placed 4 0x000000841020).updCore 0 fun k => { k with switching := true, sel := 3 }
     let c := s.ctx 0
     let s := (s.setCtx 1 c).updCtx 0 fun c => { c with farWait := [{}] }
     let order := [1, 2, 3, 4].map fun i => 4 * 0 + ((s.core 0).sel + i) % 4
     s.issue.active = false ∧ s.coreLive 0 = true ∧ order = [0] ++ 1 :: [2, 3] ∧ s.ready 0 = false ∧ (s.ctx 0).phase = .running ∧
      (passedOver s [0]).ready 1 = true) ∧
    (let s := (placed 4 0x000000841020).updCore 0 fun k => { k with switching := true, sel := 3 }
     let s := s.updCtx 0 fun c => { c with farWait := [{}] }
     ∀ n < 4, (passedOver s ([0, 1, 2, 3].take n)).ready n = false) := by decide +kernel

theorem witness_QueueEvents_units : wheeled.stopped (modOf 0) = false ∧ (∀ j < 4, wheeled.hbmBusy (pick aLoad.locs j) = false) ∧
    (∀ a ∈ [aLoad], ({ aStore with id := 3 } : MOp).id ≠ a.id + 1) ∧
    (∀ j < 4, ([(0, 1), (1, 2), (2, 3), (3, 0xFF)].find? fun x : Nat × Byte => x.1 == j).map (·.1) = some j) ∧
    (let loc := 0x100000
     let line := List.replicate 64 (5 : Byte)
     let op := { aStore with locs := (List.range 4).map (loc + ·) }
     let s := (wheeled.updCtx 0 fun c => { c with sq := [op] }).updCore 0 fun k => { k with l1 := [(lineOf loc, line)] }
     isSpad loc = false ∧ (s.core (coreOf 0)).hasLine loc = true ∧ (tget (s.core (coreOf 0)).l1 (lineOf loc)).length = 64 ∧
      leads (.storePerformed 0 allBytes) s (fun t => t.l1Byte 0 (loc + 3) == 4) = true) ∧
    (let s := { wheeled with poison := [0, 1] }
     0 ∈ s.poison ∧ 32 * 0 + 0 ∉ aStore.locs ∧ 0 ∈ s.poison ∧ ∀ i < 32, 32 * 0 + i ∈ List.range 32) := by decide +kernel

theorem witness_AtomicEvents_units :
    (let op : MOp := { kind := .amo .cas 6 5 3 true, id := 1, ea := 8, size := 4, unit := 0, locs := [8, 9, 10, 11] }
     let s := wheeled.updCtx 0 fun c => { c with lq := [op] }
     s.stopped (modOf 0) = false ∧ op.bad = none ∧ op.fails = false ∧ s.hbmWaits op.locs = false ∧ (s.ctx 0).rets = [] ∧ 0 < 3 ∧ 3 < 64 ∧
      isSpad (pick op.locs 0) = false) ∧
    (let op : MOp := { kind := .amo .add (2 ^ 31) 0 3 false, id := 1, ea := 8, size := 4, unit := 0, locs := [8, 9, 10, 11] }
     let s := (wheeled.updCtx 0 fun c => { c with lq := [op] }).updCore 0 fun k => { k with l1 := [(0, List.replicate 64 0)] }
     let s := s.setBytes [(11, 0x80)]
     leads (.atomicPerformed 0) s (fun t => t.byte 11 == 0 && (t.core 0).l1.isEmpty &&
       leads (.loadComplete 0 1 3 false) t fun u => (u.ctx 0).sr 3 == 0xFFFFFFFF80000000) = true) := by decide +kernel
theorem witness_MarkAndTranslationEvents_places :
    (let m : MOp := { kind := .order none true .none true, id := 4 }
     let s := wheeled.updCtx 0 fun c => { c with lq := [m], sq := [m], farSent := [7] }
     let s := { s with fars := [(7, { op := .st })] }
     s.stopped (modOf 0) = false ∧ 7 ∈ (s.ctx 0).farSent ∧ thas s.fars 7 = true ∧ (tget s.fars 7).performed = false) ∧
    (let s := (running []).updQuad 0 fun q => { q with bbAcc := [(7, [{ id := 1, core := 0, n := 8 }])], hoops := [(2, ⟨{ st := [(0, .releasing)] }, {}, 0⟩)] }
     ((s.quad 0).hoop 2).cur.slotSt 0 = .releasing ∧ tget (s.quad 0).bbAcc 7 = [{ id := 1, core := 0, n := 8 }]) ∧
    (let e : Ember := { uid := 9, vat := 1, ba := 0x40, op := .coll }
     let m : MOp := { kind := .order none false (.fork 0 5 9) false, id := 4 }
     let s := (wheeled.updCore 0 fun k => { k with embers := [(5, some e)] }).updCtx 0 fun c => { c with lq := [m], sq := [m] }
     s.stopped (modOf 0) = false ∧ (s.core 0).ember 5 = some e ∧ (∀ j < e.op.blockSize, s.isBad (spadAddr 0 (e.ba + j)) = false) ∧
      leads (.markPerformed 0) s (fun t => ((t.core 0).ember 5).any (·.captured)) = true) ∧
    mapped.splitPage 1 (2 ^ 32 / 4096) = false ∧ mapped.walkHeld 1 (2 ^ 32) = false ∧
    (let y : Xlat := { vat := 1, page := 2 ^ 20, range := some 3 }
     let s := (mapped.updCtx 0 fun c => { c with xinv := some (.range 3) }).updCore 0 fun k => { k with tlb := [y, { y with vat := 2 }] }
     s.stopped (modOf 0) = false ∧ (s.ctx 0).xinv = some (.range 3) ∧ y ∈ (s.core 0).tlb ∧ y.vat = (s.ctx 0).vatKey ∧
      leads (.xlatInvComplete 0) s (fun t => (t.core 0).tlb == [{ y with vat := 2 }]) = true) ∧
    (let e := mapped.rangeEntry 1 0
     e.attr % 2 = 1 ∧ e.base < (2 ^ 20 + 1) * 4096 ∧ 2 ^ 20 * 4096 ≤ e.limit) := by decide +kernel
/-- A request of another kind to the same window, whose rights are given. -/
def farOp (op : FarOp) (rights : Nat) : State :=
  put 0x100810 1 rights { farBound 8 with fars := [(7, { farStore 8 with op := op, size := 4, b := 5, expected := 0 })] }
theorem witness_FarEvents_kinds :
    (∀ op ∈ [FarOp.ld, .st, .flag, .amo .cas], let s := farOp op 15
      let r := tget s.fars 7
      r.op = op ∧ thas s.fars 7 = true ∧ r.answered = false ∧ s.dieOfPod r.die = some 0 ∧ s.routeUp (dieOf r.ctx) 0 = true ∧
      s.stopped (0 / 8) = false ∧ s.farHeld r 0 = false ∧ r.fails = false ∧ s.window 1 (2 ^ 32 + 0x800) r.win = some (2 ^ 32 + 0x40, 64, 15) ∧
      ((s.walk 1 (2 ^ 32 + 0x48)).map fun x => x.r && x.w && x.resident) = some true ∧ (∀ i < 4, s.isBad (0x100048 + i) = false)) ∧
    (let s := farOp .ld 5
     s.window 1 (2 ^ 32 + 0x800) 0 = some (2 ^ 32 + 0x40, 64, 5) ∧ (5 : Nat).testBit 1 = false ∧ s.window 1 (2 ^ 32 + 0x800) 1 = none) ∧
    (∃ i < 4, ({ farOp .ld 15 with poison := [0x100048 / 32] } : State).isBad (0x100048 + i) = true) ∧
    mapped.walk 1 (2 ^ 40) = none ∧
    leads (.farRequestReceive 7) (farOp .flag 15) (fun t => t.byte 0x100048 == 5 && t.byte 0x10004C == 0) = true := by decide +kernel
theorem witness_FarEvents_flag :
    (let w : FarWait := { op := 9, bundle := 0x30, slot := 6 }
     let r : FarReq := { farStore 0 with op := .flag, opId := 9, answered := true, poison := true }
     let s := { (mapped.updCtx 0 fun c => { c with farWait := [w] }) with fars := [(7, r)] }
     s.stopped (modOf r.ctx) = false ∧ thas s.fars 7 = true ∧ s.findWheel r.wheel = some 0 ∧ s.answerUp r = true ∧ w.slot = 6 ∧
      leads (.farResponse 7) s (fun t => (t.ctx 0).cause == 0x609) = true) := by decide +kernel

theorem witness_StoreAndLoadFrame_alone : ∀ a ∈ [aLoad], ({ aStore with id := 3 } : MOp).id ≠ a.id + 1 := by decide
theorem witness_DecodeOfEncode_slots : (Instr.bfx 7 63 1 60 3).ctorIdx < (Instr.bundleIssue 0).ctorIdx ∧ Instr.mark.ctorIdx < (Instr.bundleIssue 0).ctorIdx ∧
    (Instr.bundleIssue 0).ctorIdx ≤ (Instr.planePortDown 0 1).ctorIdx := by decide +kernel

/-- Returning loads to each kind of destination, with the places of their bytes. -/
theorem witness_QueueEvents_returns : let got : List (Nat × Byte) := [(0, 1), (1, 2), (33, 0xFF)]
    let back (dst : LDest) (got : List (Nat × Byte)) (bad : Option Nat) : State := wheeled.updCtx 0 fun c => { c with
      rets := [{ op := { kind := .load dst, id := 1, size := 128, got := got, bad := bad } }] }
    let gives (dst : LDest) (got : List (Nat × Byte)) (p : State → Bool) : Bool := leads (.loadComplete 0 1 allBytes false) (back dst got none) p
    (∀ dst ∈ [LDest.oreg 2, .row 1 3, .mx 2 33], (got.map fun x => placeOf dst x.1).Nodup ∧ (match dst with | .scalar _ _ => false | _ => true) = true ∧
      (∀ x ∈ got, (placeOf dst x.1).2 < regBytes (placeOf dst x.1).1) ∧
      gives dst got (fun t => got.all fun x => regByte t 0 (placeOf dst x.1).1 (placeOf dst x.1).2 == x.2.toNat) = true) ∧
    placeOf (.mx 2 33) 32 = (.o 3, 0) ∧ placeOf (.mx 2 33) 33 = (.o 2, 32) ∧ placeOf .srest 511 = (.s 63, 7) ∧ placeOf .srest 639 = (.k 7, 15) ∧
    gives .srest [(511, 9), (639, 7), (640, 0xFF)] (fun t => regByte t 0 (.s 63) 7 == 9 && regByte t 0 (.k 7) 15 == 7 && (t.ctx 0).pr 7) = true ∧
    leads (.loadComplete 0 1 allBytes false) (back (.oreg 2) got (some 0x40)) (fun t => (t.ctx 0).l0.poison.map (·.addr) == [0x40]) = true := by
  decide +kernel
/-- A load that meets a poisoned unit, one that hits in the L1 and one that misses there. -/
theorem witness_QueueEvents_bad :
    (let s := ({ wheeled with poison := [0] }).updCtx 0 fun c => { c with lq := [aLoad] }
     (∃ j < aLoad.size, (aLoad.readsByte j && s.isBad (pick aLoad.locs j)) = true) ∧
      leads (.loadComplete 0 0 allBytes false) s (fun t => (t.ctx 0).rets.map (fun r => (r.op.bad, r.op.got)) == [(some 0, [])]) = true) ∧
    (let op := { aLoad with cached := true, locs := (List.range 4).map (0x100000 + ·) }
     let s (l1 : Tbl (List Byte)) := (wheeled.updCtx 0 fun c => { c with lq := [op] }).updCore 0 fun k => { k with l1 := l1 }
     let filled := s [(lineOf 0x100000, List.replicate 64 5)]
     (∀ j < op.size, allBytes.testBit j = true ∧ isSpad (pick op.locs j) = false ∧ (s []).isBad (pick op.locs j) = false ∧
       filled.hbmBusy (pick op.locs j) = false ∧ lineOf (pick op.locs j) = lineOf 0x100000 ∧ (filled.core 0).hasLine (pick op.locs j) = true) ∧
      ((s []).core 0).l1.length < l1Lines ∧ op.readsByte 0 = true ∧
      leads (.loadComplete 0 0 allBytes true) filled (fun t => (t.ctx 0).rets.map (fun r => r.op.got) == [[(0, 5), (1, 5), (2, 5), (3, 5)]]) = true ∧
      leads (.loadComplete 0 0 allBytes false) (s []) (fun t => thas (t.core 0).l1 (lineOf 0x100000)) = true) := by decide +kernel

theorem witness_PressSchedulingEvents_still :
    (let e := ready (.zero false) zeroBlk
     (pressed e).recal = false ∧ e.stopped = false) ∧
    (let f := ready (.stat false false) (blockOf 64 [(56, 2), (57, 0), (58, 7)])
     let s := (pressed f).updQuad 0 fun q => { q with run := some { core := 0, slot := 5 } }
     (s.pressRun 0).map (fun x => (x.1.sending, x.2.fresh s.now)) = some (false, false)) := by decide +kernel
/-- A drain of one row and two columns in FP32 to the own scratchpad or to pane 0, with a mask of none. -/
def drainOf (panes : Bool) : Ember :=
  ready (.drain true false) (blockOf 64 [(0, panes.toNat), (1, 0), (6, 2), (7, 3), (8, 1), (10, 2), (12, 8), (16, if panes then 0 else 0x4000)])
/-- The vat of the command has no translation table. -/
def draining (panes : Bool) : State :=
  { ((onArray (drainOf panes) 0).updQuad 0 fun q => { q with bank1 := { q.bank1 with acc := [(256 * 2 + 3, 0x3F800000), (256 * 2 + 4, 0x40000000)] } }) with
    vats := [(0, { desc := { xlat := 2 ^ 43, ranges := 0 } })]
    ctxs := [(0, { wheel := some {}, panecnt := 1 })] }
theorem witness_PressBoundaryEvents_still :
    (∀ e ∈ [ready (.zero true) zeroBlk, ready (.stat false false) tileBlk, ready (.run false false false) tileBlk, drainOf false, drainOf true],
      let s := onArray e 0
      s.recal = false ∧ settled s = true ∧ s.lockedLines = [] ∧
      (s.pressRun 0).map (fun x => (s.pressStill x.1 x.2, x.2.cancel, x.2.struck, x.2.st.cur.final)) = some (false, false, false, false)) ∧
    (let s := onArray (ready (.run false false false) tileBlk) 3
     (s.pressRun 0).map (fun x =>
      let bl := blockLen x.2.tile.cmp
      let rot := rotSize x.2.tile.rot
      let need := if rot < bl then (x.1.unit * bl, bl) else (x.1.unit * bl / rot * rot, rot)
      s.readFault x.1.core x.2.vat (x.2.tile.addrs none need.1 need.2)) = some none) := by decide +kernel
theorem witness_PressBoundaryEvents_drain (p : Bool) : let s := draining p
    (s.pressRun 0).any (fun x => decide (x.2.op = .drain true false) && x.2.drainBlk.panes == p && !x.2.drainBlk.mx && !s.paneBad x.2 x.2.drainBlk
      && (s.engCheck 0 x.2.vat [] [] (x.2.drainBlk.writes (s.maskOf 0 x.2.drainBlk) 0 1)).isNone && !((s.quad 0).bank true).poisoned 2 1 3 2
      && decide (x.2.drainBlk.ncols * x.2.drainBlk.bits ≤ 1024)) = true := by
  cases p <;> decide +kernel
/-- What the drain of draining writes. -/
def drainedBytes : List (Nat × Byte) :=
  Drained (drainOf false) false (2 ^ 256 - 1) 0 [0x3F800000, 0x40000000] (fun a => (draining false).byte (spadLoc 0 a)) fun a => (draining false).byte (spadLoc 0 a)
theorem witness_PressBoundaryEvents_bytes : drainedBytes.length = 8 ∧
    (drainedBytes.all fun w => decide ((draining false).engByte 0 0 [] true w.1 = .ok (spadLoc 0 w.1))) = true ∧
    (drainedBytes.map fun w => spadLoc 0 w.1).Nodup ∧
    leads (.pressBoundary (0, .whole)) (draining false) (fun t => t.byte (spadLoc 0 0x4003) == 0x3F && t.byte (spadLoc 0 0x4007) == 0x40) = true := by
  decide +kernel
/-- A vat without a table has no translation, whatever memory holds. -/
theorem witness_PressBoundaryEvents_xlat (v : State) (h : v.vats = (draining false).vats) (va : Nat) :
    v.xlat [] 0 va = (draining false).xlat [] 0 va := by
  have hv : ∀ s : State, s.vats = (draining false).vats → s.xlat [] 0 va = (none, false) := by
    intro s hs
    have h0 : (s.vat 0).desc.ranges = 0 ∧ (s.vat 0).desc.xlat = 8796093022208 := by
      unfold State.vat
      rw [hs]
      decide +kernel
    have hp : paLoc (vatMod 0) 8796093022208 = none := by decide +kernel
    simp [State.xlat, tlbFind, State.walk, State.splitPage, h0, hp]
  rw [hv v h, hv _ rfl]


/-- A copy of n chunks of 16 bytes from 0x2000 to 0x3000 with other fields of its descriptor set. -/
def nestBlk (n : Nat) (l : List (Nat × Nat)) : List Byte :=
  blockOf 128 ([(0, 0x2000), (8, 0x3000), (16, n), (28, 16), (64, 16), (100, 16)] ++ (List.range 5).map (fun k => (18 + 2 * k, 1)) ++ l)
/-- Bytes put in the scratchpad of core 0. -/
def spadPut (va : Nat) (l : List Byte) (s : State) : State := s.setBytes (l.zipIdx.map fun x => (spadLoc 0 (va + x.2), x.1))
/-- A copy that stands before a unit, with its source bytes. -/
def standing (e : Ember) (src : List Byte) : State := spadPut 0x2000 src (copying e { core := 0, slot := 5 })
/-- The hypotheses of a unit's move, for destinations in the own scratchpad. -/
def unitMoves (s : State) (e : Ember) (vas : List Nat) (l : List (Nat × Byte)) : Bool :=
  let d := copyDesc e.cmd
  let r : CopyRun := { core := 0, slot := 5 }
  (s.copyRun 0 0 5 d.codec).any (fun x => decide (x.1 = r)) && (s.copyReadFault 0 e.vat vas).isNone && s.copyChosen 0 r && !s.recal
  && (d.cast || l.all fun w => decide (s.engByte 0 e.vat [] true w.1 = .ok (spadLoc 0 w.1)))
  && decide ((l.flatMap fun w => CopyDests s 0 d (spadLoc 0) w.1).Nodup) && decide (s.copyRoom r e d l = l.length)
def src16 : List Byte := (List.range 16).map fun i => BitVec.ofNat 8 (i + 1)
theorem witness_CopyHoopAndBarrierEvents_cast :
    (let e := ready (.copy 0 false false) (nestBlk 1 [(104, 0x51)])
     let s := standing e src16
     let vas := (List.range 16).map (0x2000 + ·)
     (copyDesc e.cmd).cast = true ∧ s.castCores 0 (copyDesc e.cmd) = [0, 2] ∧
      unitMoves s e vas (src16.zipIdx.map fun x => (0x3000 + x.2, x.1)) = true ∧
      leads (.copyChunk 0 0 (5, .whole)) s (fun t => t.byte (spadLoc 2 0x3003) == 4 && t.byte (spadLoc 0 0x3003) == 4 && !((t.core 0).ember 5).any (·.st.cur != .done)) = true) := by
  decide +kernel
/-- The coded form of the 16 bytes. -/
def coded16 : List Byte := encodeBlock 0 src16
theorem witness_CopyHoopAndBarrierEvents_codec :
    (let e := ready (.copy 0 false false) (nestBlk 1 [(102, 6), (112, 64)])
     let s := standing e src16
     let d := copyDesc e.cmd
     d.enc = true ∧ d.target = false ∧ d.total = 16 ∧ coded16.length ≤ d.limit ∧
      unitMoves s e ((List.range 16).map (0x2000 + ·)) (coded16.zipIdx.map fun x => (0x3000 + x.2, x.1)) = true ∧
      (copyDesc (nestBlk 1 [(102, 6), (112, 8)])).limit < 0 + coded16.length) ∧
    (let e := ready (.copy 0 false false) (nestBlk 1 [(102, 2), (112, 64)])
     let s := standing e coded16
     let d := copyDesc e.cmd
     d.dec = true ∧ 16 ≤ d.limit ∧ decodeBlock coded16 64 = some (src16, coded16.length, true) ∧ d.total = 16 ∧
      16 + riceLen (coded16.take 16) ≤ coded16.length ∧ s.copyReadFault 0 0 ((List.range 16).map (0x2000 + ·)) = none ∧
      unitMoves s e ((List.range (16 + riceLen (coded16.take 16))).map (0x2000 + ·)) (src16.zipIdx.map fun x => (0x3000 + x.2, x.1)) = true) ∧
    decodeBlock (List.replicate 64 0) 64 = none ∧
    ((decodeBlock (coded16.take (coded16.length - 1) ++ [coded16.getLast! + 1]) 64).map (·.2.2) = some false ∨
      (decodeBlock (coded16.mapIdx fun i b => if i = 12 then b + 1 else b) 64).map (·.2.2) = some false) := by
  decide +kernel
/-- A copy whose unit of 16 bytes is written and waits to be counted at hoop 3 or byte barrier 7 of quad 0. -/
def counting (bb : Bool) (h : Hoop) (b : Bb) (n : Nat) : State :=
  let e := ready (.copy (if bb then 7 else 3) bb false) (nestBlk n [(102, 1)])
  { ((copying e { core := 0, slot := 5, todo := some [], uncounted := (List.range 16).map fun i => spadAddr 0 (0x3000 + i), countAt := 0 }).updQuad 0
      fun q => { q with hoops := [(3, ⟨h, h, 0⟩)], bbs := [(7, ⟨b, b, 0⟩)] }) with now := 1 }
theorem witness_CopyHoopAndBarrierEvents_count :
    (let h : Hoop := { owner := some 0, base := spadAddr 0 0x3000, z := 0, c := 1, cnt := [(0, 240)] }
     let b : Bb := { owner := some 0, armed := true, expected := 20, arrived := 4 }
     ∀ bb ∈ [false, true], let s := counting bb h b 1
      (s.copyRun 0 0 5 false).any (fun x => x.2.copyTarget.1 == bb && (copyDesc x.2.cmd).target && x.1.uncounted.length == 16 && decide (x.1.countAt < s.now)
        && !x.2.allDone && !x.2.fresh s.now && !x.2.cancel && decide (x.1.unit + 1 = (copyDesc x.2.cmd).chunks)) = true ∧ settled s = true) ∧
    (let h : Hoop := { owner := some 0, base := spadAddr 0 0x3000, z := 0, c := 1, cnt := [(0, 240)] }
     h.slotSt 0 = .empty ∧ ((List.range 16).map fun i => spadAddr 0 (0x3000 + i)).all (fun a => h.slotOf a == some 0) = true ∧
      tget h.cnt 0 + 16 ≤ h.slotSize ∧
      leads (.copyChunk 0 0 (5, .whole)) (counting false h {} 1) (fun t => ((t.quad 0).hoop 3).cur.slotSt 0 == .filled) = true) ∧
    (let b : Bb := { owner := some 0, armed := true, expected := 20, arrived := 4 }
     b.arrived + 16 = b.expected ∧ ({ b with expected := 40 } : Bb).arrived + 16 < 40 ∧ 10 < b.arrived + 16 ∧
      leads (.copyChunk 0 0 (5, .whole)) (counting true {} { b with expected := 10 } 1) (fun t => ((t.quad 0).bb 7).cur.broken) = true) := by decide +kernel
theorem witness_CopyHoopAndBarrierEvents_lowest : let a : BbAcc := { id := 2, core := 1, rel := some 0, n := 5 }
    let x : BbAcc := { id := 1, core := 3, rel := some 0, n := 5 }
    tget (({ (State.reset.updQuad 0 fun q => { q with bbAcc := [(63, [a, x])] }) with now := 1 } : State).quad 0).bbAcc 63 = a :: [x] ∧ a.core ≤ x.core := by
  decide +kernel

theorem witness_CollectiveAndCaveEvents_still :
    (let e : Ember := { ready .coll (collBlk 0 0) with vat := 1 }
     let s := hired e
     s.recal = false ∧ s.outranked 0 e.prio = false ∧ settled s = true ∧ e.fresh s.now = false) ∧
    (let s := { hired { caving with work := some { isRead := true, todo := [(2 ^ 32, 1), (2 ^ 32 + 1, 2), (2 ^ 32 + 2, 3), (2 ^ 32 + 3, 4), (2 ^ 32 + 4, 5)] } } with now := 1 }
     (s.core 0).ember 5 ≠ none ∧ (∃ j < 5, (1 : Nat).testBit (j / 4) = false) ∧ coreOf caving.ctx = 0 ∧ caving.allDone = false) := by decide +kernel
/-- Member 1's part of block 0 has arrived at member 0, whose own is the last. -/
def lastPart (mode : Nat) : CollRun :=
  { uid := 9, vat := 1, cmd := collBlk mode 65, group := [(0, 9), (1, 10)],
    pieces := [{ sender := 1, block := 0, codes := (List.range 64).map fun i => (i, 0x3F800000) }] }
theorem witness_CollectiveAndCaveEvents_value (mode : Nat) (h : mode = 0 ∨ mode = 2) : let r := lastPart mode
    let s := { gathered r with now := 1 }
    let part := s.pieceOf r r 0
    s.collRun 9 = some r ∧ r.wants 0 0 = true ∧ s.memberRun r 0 = some r ∧ r.beganAt < s.now ∧ (r.core / 128 = r.core / 128) ∧
      (∀ x ∈ r.senders 0, x ≠ 0 → ∃ p ∈ r.pieces, p.block = 0 ∧ p.sender = x) ∧ (∀ p ∈ r.pieces, p.bad = [] ∧ p.ok = true) ∧ part.bad = [] ∧
      (∀ i ∈ elemsOf r.cmd 0, 0 < ((r.pieces ++ [part]).filter fun p => p.block == 0 && p.codes.any fun x => x.1 == i).length) ∧
      redAxes r.cmd ≠ [] ∧ (mode = 2 → s.now < r.deadline) ∧ collBits r.cmd = 32 ∧ min 256 (bufBytes r.cmd false - 256 * 0) = 256 := by
  rcases h with rfl | rfl <;> decide +kernel
theorem witness_CollectiveAndCaveEvents_dst (mode : Nat) (h : mode = 0 ∨ mode = 2) : let r := lastPart mode
    ((List.range 256).all fun j => decide (({ gathered r with now := 1 } : State).engByte r.core r.vat [] true (collDst r.cmd + 256 * 0 + j) =
      .ok (0x103000 + j))) = true := by
  rcases h with rfl | rfl <;> decide +kernel
/-- A whey member with its blocks done writes its mask into the mapped region. -/
theorem witness_CollectiveAndCaveEvents_mask :
    (let r : CollRun := { uid := 9, vat := 1, cmd := collBlk 2 65, group := [(0, 9), (1, 10)], done := [0], valid := [0] }
     let s := gathered r
     r.maskWrites.all (fun w => decide (s.engByte r.core r.vat [] true w.1 = .ok (0x100000 + (w.1 - 2 ^ 32)))) = true ∧
      (r.maskWrites.map fun w => 0x100000 + (w.1 - 2 ^ 32)).Nodup ∧ r.maskWrites ≠ [] ∧ s.sourceRead r = true) := by decide +kernel

theorem witness_FlueQueueAndPlacementEvents_one :
    (let s := hosting 2 id
     s.recal = false ∧ ([(0, 0)] : List (Nat × Nat)).length = (if (s.vat 1).desc.gang = 255 then 1 else 2 ^ (s.vat 1).desc.gang) ∧
      gangInside (s.vat 1).desc [(0, 0)] = true ∧ (s.vat 1).granted = 0 ∧ (s.placeAll 1 0 [(0, 0)] [] [0]).isSome = true) ∧
    (let s := hosting 4 fun v => { v with desc := { v.desc with gang := 1 } }
     s.spans 1 = false ∧ s.flueChoice 0 = some 1 ∧ ([(0, 0), (1, 0)] : List (Nat × Nat)).length = 2 ^ (s.vat 1).desc.gang ∧
      gangInside (s.vat 1).desc [(0, 0), (1, 0)] = true ∧ (s.placeAll 1 0 [(0, 0), (1, 0)] [] [0]).isSome = true ∧
      leads (.wheelPlace 1 false [(0, 0), (1, 0)] [] [0]) s (fun t => (t.ctx 1).wheel == some { vat := 1, idx := 1, start := 1 }) = true) ∧
    (let w : Spawn := { idx := 7, arg := 5, core := some 1, released := true }
     let s := hosting 2 fun v => { v with phase := .running, granted := 2, started := 2, starts := 2, spawns := [w] }
     (s.vat 1).spawns = w :: [] ∧ w.released = true ∧ w.core = some (coreOf 4) ∧ (s.placeOne 1 7 5 4 0 [] [0]).isSome = true ∧
      leads (.wheelPlace 1 true [(4, 0)] [] [0]) s (fun t => (t.ctx 4).sr 1 == 5) = true) := by decide +kernel
theorem witness_FlueQueueAndPlacementEvents_range :
    (let s := (hosting 2 fun v => { v with desc := { v.desc with dieMask := 3 } }).updDie 1 fun d => { d with isolated := false, stage := 5 }
     s.spans 1 = true ∧ s.flueChoice 0 = some 1 ∧ s.dieHealthy 1 = true ∧ 1 ∈ s.vatDies 1 ∧ (s.vat 1).lostLeader = false ∧
      ((s.rangeCtxs 1 1).findSome? fun c => s.search 1 2 c).any (fun x => x.1.length == 2 && s.rangePlaces 1 x.1 && gangInside (s.vat 1).desc x.1
        && (s.placeAll 1 0 x.1 x.2.1 x.2.2).isSome && x.1.head?.any fun p => dieOf p.1 == 1) = true) := by decide +kernel
theorem witness_FlueQueueAndPlacementEvents_next : crowded.recal = false ∧ crowded.nextFor 0 2 = true ∧ (crowded.vat 1).rerun = false := by
  decide +kernel
theorem witness_CompletionAndEnergyEvents_work :
    (let s := hosting 1 fun v => { v with phase := .running, started := 1 }
     s.recal = false ∧ s.atWork 1 = false) ∧
    (let s := { (hosting 1 fun v => { v with phase := .running, started := 1, energy := 5000, desc := { v.desc with budget := 5 } }) with
        ctxs := [(0, { wheel := some { vat := 1 }, phase := .running })] }
     s.atWork 1 = true ∧ (s.vat 1).desc.budget ≠ 0 ∧ (s.vat 1).energy ≤ 5000 ∧ 10 < (s.vat 1).energy ∧
      leads (.energyUpdate 1 5000) s (fun t => (t.vat 1).demotions == 1) = true) ∧
    State.reset.wakePending 7 = false := by decide +kernel

theorem witness_HostMessages_still :
    (let s := serving
     s.takes 0 0 false = true ∧ s.recal = false ∧ (∀ j < 4, s.inSaveArea (0x30000 + j) = false) ∧ s.dmaLoc 0 0x30000 4 = some 0x30000) ∧
    (let x : List (Nat × Option WheelId) := [(0, some { vat := 1 }), (5, some { vat := 1, idx := 1 })]
     let s := { (hosting 2 fun v => { v with phase := .running, desc := { v.desc with gang := 1 } }) with
       ctxs := x.map fun y => (y.1, { wheel := y.2, phase := .running })
       cores := [(0, { moldRes := [(1, [])] }), (1, { moldRes := [(1, [])] })] }
     thas s.vats (vatKeyOf 0 1) = true ∧ thas (s.core 0).moldRes 1 = true ∧ (s.ctx 0).wheel = some { vat := 1 } ∧
      (s.ctx 5).wheel = some { vat := 1, idx := 1 } ∧ (s.vat 1).gangOf 0 = (s.vat 1).gangOf 1 ∧
      leads (.preempt 0 0 1 [0]) s (fun t => (t.vat 1).halting.contains 0 && (t.vat 1).halting.contains 1) = true) ∧
    (let s := (hosting 1 fun v => { v with phase := .running, rerun := false }).updQuad 0 fun q => { q with preload := some (2, 0, 1) }
     (s.quad 0).preload = some (2, 0, vatKeyOf 0 1) ∧ leads (.rerun 0 0 1) s (fun t => (t.quad 0).preload.isNone) = true) := by decide +kernel
/-- A page of the vat that becomes resident, with a byte parked for it: its page table has one leaf at 2^32. -/
def parkedAt : State :=
  let s := (hosting 1 fun v => { v with phase := .running, desc := { v.desc with xlat := 0x40000, ranges := 0 } })
  let leaf := 0x50000 + 1 + 2 + 4 + 8 + 128
  let s := put 0x40000 8 0x41000 (put (0x41000) 8 (0x42000 + 1) (put (0x42000 + 8 * 4) 8 (0x43000 + 1) (put 0x43000 8 (0x44000 + 1) (put 0x44000 8 leaf s))))
  s.updDie 0 fun d => { d with parked := [{ vat := 1, page := 2 ^ 32 / 4096, va := 2 ^ 32 + 8, bytes := [7] }], resvat := 1 }
theorem witness_HostMessages_drain : ((parkedAt.walk 1 (2 ^ 32)).map fun x => (x.loc, x.resident)) = some (0x50000, true) ∧
    (parkedAt.toDrain 1 (2 ^ 32)).map (fun x => (x.1.va, x.2)) = [(2 ^ 32 + 8, 0x50008)] ∧ parkedAt.takes 0 0 false = true ∧
    leads (.resident 0 0 1 (2 ^ 32)) parkedAt (fun t => t.byte 0x50008 == 7) = true := by decide +kernel
/-- Die 0 in service with its ring disabled. -/
def unringed : State := serving.updDie 0 fun d => { d with qcfg := [] }
theorem witness_ManagementMessages_writes :
    serving.takes 0 0 false = true ∧ unringed.takes 0 0 false = true ∧ (serving.die 0).queueOn 0 = true ∧ (unringed.die 0).queueOn 0 = false ∧
    (let v : Word := 255 + 1000 * 2 ^ 16
     1 ≤ v.toNat % 2 ^ 16 ∧ v.toNat % 2 ^ 16 ≤ 255 ∧ 1000 ≤ v.toNat / 2 ^ 16 ∧ v.toNat / 2 ^ 16 ≤ 1000000 ∧ v.toNat / 2 ^ 16 ≤ 86400000) ∧
    (let v : Word := 256 + 604800001 * 2 ^ 16
     ¬(v.toNat % 2 ^ 16 ≤ 255) ∧ ¬(v.toNat / 2 ^ 16 ≤ 604800000)) ∧
    (let c := (0x110 : Word).toNat
     4 ≤ c % 32 ∧ c % 32 ≤ 16 ∧ c / 32 % 8 = 0 ∧ c < 512 ∧ 256 ≤ c) ∧ ((0x104 : Word).toNat - 256) + 256 = (tget (serving.die 0).qcfg 0).toNat ∧
    (0x105 : Word).toNat + 256 ≠ (tget (serving.die 0).qcfg 0).toNat ∧ (0x105 : Word) ≠ tget (serving.die 0).qcfg 0 ∧ ¬4 ≤ (3 : Word).toNat % 32 ∧
    (serving.savedHere 0 = false ∧ (hosting 1 fun v => { v with saves := [{ core := 0 }] }).savedHere 0 = true) ∧
    (thas (serving.vats) (serving.resVat 0) = false ∧ thas parkedAt.vats (parkedAt.resVat 0) = true) ∧
    leads (.mgmtWrite 0 0 0 0x320 0x110) unringed (fun t => tget (t.die 0).qcfg 0 == 0x110) = true ∧
    (let s := (serving.updDie 0 fun d => { d with isolated := true }).updDie 4 fun d => { d with isolated := false, stage := 5 }
     (s.modu 0).hostport = some false ∧ (s.die (8 * 0 + 0)).isolated = true ∧ (s.die (8 * 0 + 4)).isolated = false ∧ s.issue.active = false ∧
      leads (.hostPortFailover 0) s (fun t => (t.modu 0).hostport == some true) = true) := by decide +kernel

theorem witness_RepairEvents_runs : ∀ x ∈ [commanded 1 5, commanded 2 5, commanded 3 9, commanded 4 0, commanded 5 0, commanded 6 3,
    commanded 7 2, commanded 8 3, commanded 9 3, commanded 0x10 0, commanded 0x11 0], (x.modu (0 / 8)).halted = false ∧ x.issue.active = false := by
  decide +kernel
/-- Die 0 in service with as many corrected events of a resource as its limit asks for. -/
def failing (kind res : Nat) (f : Die → Die) : State :=
  { (serving.updDie 0 fun d => f { d with counters := [(2 ^ 16 * kind + res, List.replicate 64 0)] }) with now := 1 }
theorem witness_ErrorEvents_lasting :
    (∀ x ∈ [(0, 256 * 5 + 1), (0, 256 * 127), (0, 256 * 128), (0, 256 * 159), (0, 256 * 160), (0, 256 * 254), (1, 7), (2, 256 * 3 + 8), (3, 127)],
      let s := failing x.1 x.2 id
      x.1 < 4 ∧ x.2 < 2 ^ 16 ∧ s.issue.active = false ∧ (s.die 0).events.length < 1024 ∧ (s.die 0).ce < 2 ^ 64 - 1 ∧
      (tget (s.die 0).fclim x.1).1 ≤ inWindow s 0 x.1 x.2 ∧ inWindow serving 0 x.1 x.2 = 1 ∧ 1 < (tget (serving.die 0).fclim x.1).1) ∧
    (let s := failing 0 (256 * 5) fun d => { d with lineSpare := [(5, 4)] }
     4 ≤ tget (s.die 0).lineSpare 5 ∧ leads (.correctedError 0 0 (256 * 5)) s (fun t => (t.core 5).draining) = true) ∧
    (let s := failing 0 (256 * 128) fun d => { d with lineSpare := [(128, 4)] }
     leads (.correctedError 0 0 (256 * 128)) s (fun t => (t.quad 0).draining) = true) ∧
    (let s := failing 0 (256 * 160) fun d => { d with lineSpare := [(160, 4)] }
     leads (.correctedError 0 0 (256 * 160)) s (fun t => (t.die 0).setsOff == [160]) = true) ∧
    (let s := failing 1 7 fun d => { d with hbmSpare := [(0, 0)] }
     tget (s.die 0).hbmSpare 0 = 0 ∧ 0 < tget ((failing 1 7 id).die 0).hbmSpare 0) ∧
    (let s := failing 2 (256 * 3 + 8) fun d => { d with links := [(3, { spare := 0, half := true })] }
     leads (.correctedError 0 2 (256 * 3 + 8)) s (fun t => (t.link 0 3).down) = true) := by decide +kernel
theorem witness_ErrorEvents_sites :
    (let e := ready (.zero false) []
     let s := pressed { e with st := ⟨.done, .done, 0⟩ }
     (∃ e, (s.core 0).ember 5 = some e ∧ e.st.cur.final = true)) ∧
    siteResource (.semaphore 0 3) = none ∧ (siteResource (.unit 0x40)).isSome = true ∧ (siteResource (.quadUnit 3)).isSome = true ∧
    State.reset.colls = [] ∧ ((pressed (ready (.zero false) [])).core 0).ember 5 = some (ready (.zero false) []) := by
  exact ⟨⟨_, rfl, rfl⟩, by decide +kernel⟩
theorem witness_AlarmResetAndBringupEvents_policy :
    (let s := State.reset.updMod 0 fun m => { m with secpol := 2 ^ 63 + 1, secpolAt := some 0 }
     (s.modu 0).secpolAt = some s.now ∧ ({ s with now := 5 }.modu 0).secpolAt ≠ some 5 ∧ (s.modu 0).secpol = 2 ^ 63 + 1 ∧
      leads (.tamperMesh 0) { (State.reset.updMod 0 fun m => { m with secpol := 2 ^ 63, secpolAt := some 0 }) with now := 5 }
        (fun t => !(t.modu 0).halted) = true ∧
      leads (.tamperMesh 0) (State.reset.updMod 0 fun m => { m with secpol := 2 ^ 63, secpolAt := some 0 }) (fun t => (t.modu 0).halted) = true) := by
  decide +kernel
/-- The readings are the hardware's: either case of the trip may hold. -/
theorem witness_AlarmResetAndBringupEvents_heat (die now : Nat) : (dieHot die now 115 = true ∨ stackHot die now = true) ∨
    (dieHot die now 115 = false ∧ stackHot die now = false) := by
  cases dieHot die now 115 <;> cases stackHot die now <;> simp
theorem witness_AlarmResetAndBringupEvents_stages :
    (∀ r ∈ State.reset.colls, vatMod r.vat < 512) ∧ (0 : Nat) < 2 ^ 32 ∧
    (let s := State.reset.updDie 0 fun d => { d with stage := 2 }
     let w : UeSite := .reg 5 (.s 3)
     (s.modu (0 / 8)).halted = false ∧ (s.die 0).heldTest = false ∧ (siteResource w).map (·.1) = some 0 ∧
      leads (.selfTestDone 0 [.coreUnit 3]) s (fun t => (t.core 3).retired && (t.die 0).stage == 3) = true ∧
      leads (.selfTestDone 0 [.coreUnit 4, .semaphore 0 0]) s (fun t =>
        !(t.die 0).heldTest && (t.core 4).retired && tget (t.die 0).lineSpare 255 == 1 && (t.die 0).stage == 3) = true ∧
      leads (.selfTestDone 0 [.coreUnit 4, .semaphore 0 0]) (s.updDie 0 fun d => { d with lineSpare := [(255, 4)] }) (fun t =>
        (t.die 0).heldTest && (t.core 4).retired) = true ∧
      leads (.selfTestDone 0 []) s (fun t => (t.die 0).stage == 3) = true) ∧
    (let s := State.reset.updDie 0 fun d => { d with stage := 1 }
     leads (.selfTestDone 0 [.coreUnit 3]) s (fun t => (t.die 0).heldFuse && (t.die 0).stage == 1) = true) ∧
    (let s := { State.reset with now := 160000000 }
     (s.modu 0).hostport = none ∧ 160000000 ≤ s.now - (s.modu 0).resetAt ∧ (s.modu 0).ports0 = false ∧
      leads (.hostPortSelect 0 false true) s (fun t => (t.modu 0).hostport == some true) = true) ∧
    (let s := { (State.reset.updMod 0 fun m => { m with ports4 := true }) with now := 160000001 }
     (s.modu 0).ports0 = false ∧ (s.modu 0).ports4 = true ∧ leads (.hostPortSelect 0 true true) s (fun t => (t.modu 0).hostport == some true) = true) := by
  decide +kernel

/-- A running wheel's quad whose bank 1 it holds, with one press ember that names the bank. -/
def releasing (e : Ember) : State := (opened.updQuad 0 fun q => { q with bank1 := { holder := some (0, {}), lastVat := some 3 } }).updCore 0 fun k =>
  { k with embers := [(5, some e)], order := 4 }
theorem witness_PressLeaseAndClaimResults_release :
    (∀ e ∈ [({ op := .zero true, order := 3 } : Ember), { op := .zero true, order := 3, st := ⟨.done, .done, 0⟩ }],
      ((myQuad (releasing e)).bank true).holder = some ((releasing e).cur, (releasing e).cc.wid)) ∧
    (let s := releasing { op := .zero true, order := 3 }
     (∃ x ∈ (myCore s).live, x.2.op.bank = some true ∧ x.2.order < (myCore s).order ∧ x.2.st.cur.final = false) ∧
      leads (.pressRelease 0 true) s (fun t => ((t.quad 0).bank true).release == some 4) = true) ∧
    leads (.pressRelease 0 true) (releasing { op := .zero true, order := 3, st := ⟨.done, .done, 0⟩ })
      (fun t => ((t.quad 0).bank true).holder.isNone && ((t.quad 0).bank true).release.isNone) = true ∧
    (let l : WheelLease := { cur := { st := .freeing true, count := 1 }, next := some { st := .freeing false, count := 1 } }
     (myQuad (leased l)).leaseOf (leased l).cur (leased l).cc.wid = some l ∧ l.next.any (·.freed) = true) ∧
    (let s := opened.updQuad 0 fun q => { q with bank0 := { holder := some (1, {}) } }
     ((myQuad s).bank false).holder = some (1, {}) ∧ ((1, {}) : Nat × WheelId) ≠ (s.cur, s.cc.wid) ∧
      (slotOp (.pressClaim 0 false)).wait s = true) := by decide +kernel
theorem witness_HoopBarrierAndMoldResults_run :
    (let s := (running [(7, 2)]).updCore 0 fun k => { k with moldRes := [(1, [3, 10, 11])] }
     (∀ g ∈ tget (myCore s).moldRes s.cc.vatKey, g < 256) ∧ (myCore s).moldRun s.cc.vatKey 2 = some 10 ∧ (myCore s).moldRun s.cc.vatKey 3 = none) := by
  decide +kernel
/-- The code and TVAL of the trap that an instruction takes alone. -/
def trapOf (i : Instr) (s : State) : Option (Nat × Nat) := match exec i s with
  | .next t => some (t.cc.cause.toNat, t.cc.tval.toNat)
  | _ => none
theorem witness_ExecutionTraps_more :
    (let s := (withS [(1, 2 ^ 20 - 4), (2, 1), (5, 2 ^ 63 + 4)] wheeled).updCur fun c => { c with panecnt := 1 }
     s.cc.marks = [] ∧ trapOf (.ldv 0 .w1024 .w16 3 2 0) s = some (0x506, 1) ∧ trapOf (.stp 0 .w1024 .none 0 3 1 0) s = some (0x607, 2 ^ 20) ∧
      trapOf (.ldmx 0 true .w1024 2 1 0) s = some (0x507, 2 ^ 20) ∧ trapOf (.clZero 0 5 0) s = some (0x607, 2 ^ 63) ∧
      trapOf (.amoMin 0 .quad .relaxed true 3 2 2) s = some (0x506, 1) ∧ trapOf (.famoCas 0 .relaxed true true 3 5 2) s = some (0x506, 2 ^ 63 + 4) ∧
      trapOf (.ffenceFlag 0 true 3 2 0) s = some (0x607, 1)) ∧
    (let s := (withS [(1, 2)] wheeled).updVat wheeled.cc.vatKey fun v => { v with desc := { v.desc with semCount := 5 } }
     trapOf (.semTest 0 3 1) (s.updDie 0 fun d => { d with sems := [(s.semOf 2, ⟨{ bad := true }, {}, 0⟩)] }) = some (0x319, 2)) ∧
    trapOf (.pressRelease 0 true) wheeled = some (0x204, 0) ∧ trapOf (.moldGet 0 3 1) (withS [(1, 257)] wheeled) = some (0x204, 0) ∧
    trapOf (.hoopInit 0 3 1 2) (withS [(1, 0x8010), (2, 0x10)] wheeled) = some (0x215, 0x8010) ∧
    (let h : Hoop := { owner := some wheeled.cc.vatKey }
     trapOf (.hoopRel 0 3) (wheeled.updQuad 0 fun q => { q with hoops := [(3, ⟨h, h, 0⟩)] }) = some (0x215, 3)) ∧
    (∀ x ∈ [(({ owner := some 77 } : Bb), 0x215), ({ broken := true }, 0x214), ({ armed := true, expected := 5, arrived := 5 }, 0x214)],
      trapOf (.bbArrive 0 3 1) ((withS [(1, 1)] wheeled).updQuad 0 fun q => { q with bbs := [(3, ⟨x.1, x.1, 0⟩)] }) = some (x.2, 3)) ∧
    trapOf (.csrr 0 0x200 3) wheeled = some (0x305, 0x200) := by decide +kernel
/-- 12 R264: what the mill makes of 16 positions under a rotation of 16 and a bitmap, and of an MX block. -/
theorem witness_PressBoundaryEvents_mill :
    (let t : Tile := { src := 1, cmp := 1, rows := 9, cols := 256, addr := 0x100, pitch := 512, rot := 1, rotSeed := 5 }
     Milled t (fun a => BitVec.ofNat 8 (a * 3 / 2)) (some (64, 5)) 3 16 32 (t.mill (fun a => BitVec.ofNat 8 (a * 3 / 2)) (some (64, 5)) 3 16 32)) ∧
    (let t : Tile := { src := 1, cmp := 0x83, rows := 9, cols := 256, addr := 0x100, pitch := 512 }
     Milled t (fun a => BitVec.ofNat 8 (a * 3 / 2)) none 8 32 32 (t.mill (fun a => BitVec.ofNat 8 (a * 3 / 2)) none 8 32 32)) := by
  unfold Milled
  decide +kernel
/-- A sparse run with its bitmap at 0x3000. -/
def sparsely : State :=
  spadPut 0x3000 (List.replicate 32 0xA5) (onArray (ready (.run false true false) (leBytes 64 (leNat tileBlk + 0x3000 * 256 ^ 56))) 1)
theorem witness_PressBoundaryEvents_sparse :
    (sparsely.pressRun 0).any (fun x => decide (x.2.bitmap = some (0x3000, 32, 32)) && !sparsely.pressStill x.1 x.2
      && (sparsely.spadPoison 0 0x3000 32).isNone && (sparsely.bitmapOf 0 x.2).any (fun b => b.1 == 32 && b.2.testBit 0 && !b.2.testBit 1)
      && (sparsely.readFault 0 x.2.vat (x.2.tile.addrs (sparsely.bitmapOf 0 x.2) 8 8)).isNone) = true ∧
    sparsely.lockedLines = [] ∧ settled sparsely = true ∧ sparsely.recal = false := by decide +kernel
/-- A multicast that quad 0 sends to quad 1. -/
def multicast : State :=
  let f := ready (.stat false false) (blockOf 64 [(56, 2), (57, 0), (58, 7)])
  let s := ((onArray (ready (.stat false false) (leBytes 64 (leNat tileBlk + 256 ^ 56 + 7 * 256 ^ 58 + 2 * 256 ^ 60))) 0).updQuad 0 fun q =>
    { q with run := some { core := 0, slot := 5, sending := true } }).updCore 4 fun k =>
      { k with embers := [(6, some { f with uid := 10, lease := 2, began := true, st := ⟨.running, .running, 0⟩ })] }
  s.updQuad 1 fun q => { q with run := some { core := 4, slot := 6, sending := true }, leases := [{ cur := { st := .granted, num := 2 } }] }
theorem witness_PressBoundaryEvents_multicast : let s := multicast
    s.castMembers 0 true = [0, 1] ∧ settled s = true ∧ (∀ m ∈ [0, 1],
      (s.pressRun m).any (fun x => x.1.sending && x.1.core / 4 == m && !x.2.cancel && !x.2.struck && !x.2.st.cur.final && !s.emberOpen x.2) = true ∧
      ∀ l ∈ (s.quad m).leases, l.cur.freed = false ∧ l.cur.count ≠ 32) ∧
    (s.pressRun 0).any (fun x => Machine.fld x.2.cmd 56 1 == 1 && (s.readFault x.1.core x.2.vat (x.2.tile.addrs none 0 256)).isNone) = true := by
  decide +kernel
/-- The writes of a step put off, and a part that reads. -/
theorem witness_PressBoundaryEvents_parts :
    (let l : Late := { ws := [(0x400, 1), (0x401, 2), (0x404, 3)] }
     let s := onArray { ready (.zero true) zeroBlk with late := [l] } 0
     s.emberAt 9 = (s.pressRun 0).map (fun x => (.live 0 5, x.2)) ∧ (s.pressRun 0).map (fun x => (x.2.uid, x.2.late)) = some (9, [l]) ∧
      l.did = [] ∧ (l.ws.map (·.1)).Nodup ∧
      leads (.pressBoundary (0, .late 0 1)) s (fun t => t.byte 0x400 == 1 && t.byte 0x401 == 2 && t.byte 0x404 == 0) = true) ∧
    (let s := onArray (ready (.run false false false) tileBlk) 0
     (s.pressRun 0).any (fun x => decide (0 < (s.pressReads x.1 x.2 0).length)) = true ∧
      leads (.pressBoundary (0, .read 0 1)) s (fun t => decide (t.mem = s.mem)) = true) := by decide +kernel
/-- A unit whose last parked byte was performed in an earlier cycle. -/
theorem witness_CopyHoopAndBarrierEvents_owed :
    (let b : Bb := { owner := some 0, armed := true, expected := 20, arrived := 4 }
     let o : Owed := { n := 16, doneAt := some 0 }
     let e := { ready (.copy 7 true false) (nestBlk 2 [(102, 1)]) with owed := [o] }
     let s := { ((copying e { core := 0, slot := 5, unit := 1 }).updQuad 0 fun q => { q with bbs := [(7, ⟨b, b, 0⟩)] }) with now := 1 }
     (s.dueAt 0 5).any (fun x => x.1 == .live 0 5 && x.2.owedDue s.now == some o && x.2.copyTarget.1) = true ∧ 0 < o.n ∧
      b.arrived + o.n = b.expected ∧
      leads (.copyChunk 0 0 (5, .whole)) s (fun t => ((t.quad 0).bb 7).cur.phase && !((t.quad 0).bb 7).cur.armed) = true) := by decide +kernel
/-- Blocks for every kind of mode decode to what was encoded. -/
theorem witness_CopyHoopAndBarrierEvents_rice : ∀ mode ∈ [0, 4, 8],
    riceModeOk mode = true → src16.length % riceElem mode = 0 ∧ (encodeBlock mode src16).length ≤ 64 ∧
      ((decodeBlock (encodeBlock mode src16) 64).any fun x => x.1.length == 16 && x.2.2) = true := by decide +kernel
theorem witness_CollectiveAndCaveEvents_read :
    leads (.caveUpdateStep 9 (1, (some 0))) (hired caving) (fun t => decide (t.mem = (hired caving).mem) &&
      ((t.core 0).ember 5).any fun e => e.work.isSome && e.prog == 0) = true := by decide +kernel
theorem witness_ErrorEvents_landing :
    (let e : Landing := { dest := .sreg 3, value := 7 }
     leads (.uncorrectableError (.landing 0 0)) (wheeled.updCtx 0 (·.push e)) (fun t => (t.ctx 0).l0.land.map (·.bad) == [true]) = true) ∧
    State.reset.issue.active = false := by decide +kernel
/-- Die 0 has been over the power limit since cycle 5. -/
theorem witness_AlarmResetAndBringupEvents_throttle :
    (let s := { (serving.updDie 0 fun d => { d with hotPower := true, hotSince := 5 }) with now := 9 }
     (s.die 0).hotSpans = [] ∧ (s.die 0).hotPower = true ∧ (s.die 0).hotSince ≤ s.now ∧ (serving.die 0).hotSpans = [] ∧
      (serving.die 0).hotPower = false ∧ (serving.die 0).hotDie = false) ∧
    (let s := State.reset.updDie 0 fun d => { d with stage := 2, lineSpare := [(3, 4), (130, 4)] }
     (siteResource (.reg 12 (.s 3))).map (·.1) = some 0 ∧ (siteResource (.acc 2 true 5)).map (·.1) = some 0 ∧ 4 ≤ tget (s.die 0).lineSpare 3 ∧
      4 ≤ tget (s.die 0).lineSpare 130 ∧ (s.die 0).heldFuse = false) := by decide +kernel

/-- Results for every kind of destination that reach it in one delivery, none of them named twice. -/
def mixed : List Landing :=
  [{ dest := .preg 3, value := 1 }, { dest := .kreg 2, n := 8, en := 0x0F, value := 0xFF }, { dest := .oreg 4, esz := 8, n := 4, en := 5, value := 0x44332211 },
   { dest := .pane 2 .col 7, esz := 32, n := 32, en := 3, value := 0x0000000600000005 }, { dest := .pane 3 .dia 7, esz := 8, n := 128, en := 2 ^ 64, value := 9 * 2 ^ 512 },
   { dest := .pane 5 .row 6, esz := 16, n := 64, en := 2, value := 0x00070000 }, { dest := .paneImg 4, img := [1, 2] },
   { dest := .key, value := 8 }, { dest := .csr 0x101, value := 0x40 }, { dest := .status, value := 4 },
   { dest := .sreg 5, value := 11, lat := some true, flags := 1 }]
def landings : State := mixed.foldl (fun s e => s.updCtx 0 (·.push e)) wheeled
theorem witness_IssueAndDeliveryEvents_results :
    (∀ k ∈ [0, 1, 2, 3, 4, 5, 6, 7, 8, 10], ∀ e ∈ mixed[k]?, mixed = mixed.take k ++ e :: mixed.drop (k + 1) ∧ Apart e (mixed.take k ++ mixed.drop (k + 1))) ∧
    (landings.ctx 0).lv.land.filter (fun e => e.rem = 0) = mixed ∧
    leads (.resultDelivery 0) landings (fun t => (t.ctx 0).pr 3 && (t.ctx 0).kr 2 == 0x0F && (t.ctx 0).or 4 == 0x00330011 &&
      (t.core 0).cell 2 0 7 32 == 5 && (t.core 0).cell 2 1 7 32 == 6 && (t.core 0).cell 3 0 71 8 == 9 && (t.core 0).row 5 6 == 0x00070000 &&
      (t.core 0).row 4 1 == 2 && (t.ctx 0).key == 8 && (t.ctx 0).epc == 0x40 && (t.ctx 0).status == 5 && (t.ctx 0).lat1 == 11) = true := by
  refine ⟨?_, by decide +kernel, by decide +kernel⟩
  simp only [mixed, List.mem_cons, List.not_mem_nil, or_false]
  rintro k (rfl | rfl | rfl | rfl | rfl | rfl | rfl | rfl | rfl | rfl) e he <;>
    simp only [List.getElem?_cons_zero, List.getElem?_cons_succ, Option.mem_def, Option.some.injEq] at he <;> subst he <;>
    refine ⟨rfl, fun x hx => ?_⟩ <;>
    simp only [List.take_succ_cons, List.take_zero, List.drop_succ_cons, List.drop_zero, List.cons_append, List.nil_append, List.mem_cons,
      List.not_mem_nil, or_false] at hx <;>
    (repeat' rcases hx with rfl | hx) <;> (try subst hx) <;> simp <;> omega
/-- Results for one destination that one bundle delivers. -/
theorem witness_ResultTiming_later :
    (∀ x ∈ [(Dest.kreg 2, 1), (.preg 3, 1), (.key, 64), (.csr 0x101, 64), (.oreg 4, 32), (.pane 2 .row 6, 32)],
      let e1 : Landing := { dest := x.1, esz := x.2, n := 4, en := 3, value := 0x11, lat := some false, seq := 4, slot := 4 }
      let e2 : Landing := { dest := x.1, esz := x.2, n := 4, en := 5, value := 0x22, lat := some true, seq := 5, slot := 0 }
      let s := wheeled.updCtx 0 (·.push e1)
      (s.ctx 0).lv.land = [e1] ∧ (s.ctx 0).lv.fmtp = none ∧ e1.dest = e2.dest ∧ e1.rem = 0 ∧ e2.rem = 0 ∧ e1.seq < e2.seq ∧ e1.esz = e2.esz ∧
        e1.n = e2.n) ∧
    2 + 1 < 4 ∧ 4 ≤ 3 + 1 ∧ wheeled.cc.lv.land = [] ∧ wheeled.cc.lv.fmtp = none := by decide +kernel
/-- A load before a compare-and-swap that a later store has passed: memory at 8 is 0 now, as the compare expects, and was 5 when it failed. -/
def passedCas : MOp := { kind := .amo .cas 6 0 3 true, id := 2, ea := 8, size := 4, unit := 0, locs := [8, 9, 10, 11], fails := true,
                         fall := [(0, 5), (1, 0), (2, 0), (3, 0)] }
theorem witness_QueueEvents_passed :
    (let op := { aLoad with fall := [(0, 5), (1, 0), (2, 0), (3, 0)] }
     let s := wheeled.updCtx 0 fun c => { c with lq := [op, passedCas] }
     (s.ctx 0).lq = op :: [passedCas] ∧ s.fallsBack (s.ctx 0) = true ∧ s.stopped (modOf 0) = false ∧ op.did = 0 ∧ op.got = [] ∧
      (∀ j < op.size, allBytes.testBit j = true ∧ s.hbmBusy (pick op.locs j) = false) ∧ (s.ctx 0).phase = .running ∧
      leads (.loadComplete 0 0 allBytes false) s (fun t => (t.ctx 0).rets.map (fun r => r.op.got) == [[(0, 5), (1, 0), (2, 0), (3, 0)]]) = true) ∧
    (∀ o ∈ [aLoad], o.passed = false) ∧ aStore.passed = false := by decide +kernel
theorem witness_AtomicEvents_passed :
    (let s := wheeled.updCtx 0 fun c => { c with lq := [passedCas] }
     (s.ctx 0).lq = passedCas :: [] ∧ passedCas.fails = true ∧ s.fallsBack (s.ctx 0) = true ∧ passedCas.bad = none ∧
      leads (.atomicPerformed 0) s (fun t => t.byte 8 == 0 && (t.ctx 0).rets.map (fun r => r.op.got) == [passedCas.fall]) = true) ∧
    (wheeled.vat (wheeled.ctx 0).vatKey).cancelled = false := by decide +kernel
/-- Two members of a group with different operations: the issue of the last ends both. -/
def unequal : State :=
  let e : Ember := { ready .coll (collBlk 0 65) with vat := 1 }
  let f : Ember := { ready .coll (collBlk 1 65) with vat := 1, uid := 10, offered := true }
  let p : Peer := { valid := true, r := true, w := true, a := true }
  (((hired e).updVat 1 fun v => { v with peers := [p, { p with target := 1 }] }).updCore 128 fun k =>
    { k with embers := [(6, some f)], moldRes := [(1, [])] }).updDie 1 fun d => { d with isolated := false, stage := 5 }
theorem witness_CollectiveAndCaveEvents_unequal :
    (let s := unequal
     let e : Ember := { ready .coll (collBlk 0 65) with vat := 1 }
     let o := s.updCore 0 fun k => k.setEmber 5 { e with offered := true }
     s.emberAt 9 = some (.live 0 5, e) ∧ s.canStart 0 5 2 = true ∧ s.collFault 0 e = none ∧
      ((groupOf e.cmd (s.memberPid 0 e.vat)).mapM fun p => (o.offerOf 0 { e with offered := true } p).map fun x => (p, x)).any (fun l =>
        l.map (fun x => (x.2.1, x.2.2.1, x.2.2.2.uid)) == [(0, 5, 9), (128, 6, 10)] && l.any (fun x => x.2.2.2.cmd.take 40 != e.cmd.take 40)) = true ∧
      (∀ x ∈ [(0, 5), (128, 6)], ((o.core x.1).ember x.2).any (fun m => m.predOk && !m.struck && !m.st.cur.final) = true) ∧
      leads (.collectiveBegin 9) s (fun t => [(0, 5), (128, 6)].all fun x =>
        ((t.core x.1).ember x.2).any fun m => m.st.cur == .faulted && m.cause == cLAYOUT) = true) ∧
    (let e : Ember := { ready .coll (collBlk 0 0) with vat := 1 }
     let o := (hired e).updCore 0 fun k => k.setEmber 5 { e with offered := true }
     o.unequalGroups { e with offered := true } = []) := by decide +kernel
/-- A copy with .snap that has read one of the 16 bytes of its chunk, which lie in the row group of the update. -/
def snapping : State :=
  let e : Ember := { ready (.copy 0 false true) (nestBlk 2 [(0, 2 ^ 32 - 0x2000)]) with
    vat := 1, uid := 11, began := true, st := ⟨.running, .running, 0⟩, snap := [(0, 2 ^ 32, 7)] }
  ((hired caving).updCore 0 fun k => { k with embers := k.embers ++ [(6, some e)] }).updQuad 0 fun q => { q with copies := [{ core := 0, slot := 6 }] }
theorem witness_CollectiveAndCaveEvents_reader :
    (let c := caveCmd caving.cmd
     let lines := fun s : State => ((List.range 2112).map fun j => (s.engByte 0 1 [] false (c.master + 2112 * 0 + j)).loc / 64).eraseDups
     snapping.readerHolds (lines snapping) = true ∧ (hired caving).readerHolds (lines (hired caving)) = false) ∧
    leads (.caveUpdateStep 9 (0, none)) snapping (fun t => ((t.core 0).ember 5).any (·.work.isNone)) = true := by decide +kernel
theorem witness_FlueQueueAndPlacementEvents_judge :
    (∀ j < 4, (crowded.core (4 * 0 + j)).draining = false) ∧
    (let s := { (crowded.updQuad 0 fun q => { q with preload := some (2, 0, 1), preTest := true }) with ctxs := [] }
     (s.quad 0).preload = some (2, 0, 1) ∧ (s.quad 0).preTest = true ∧ crowded.nextFor 0 2 = true ∧
      leads (.preloadCommit 0 2) (crowded.updQuad 0 fun q => { q with preload := some (2, 0, 1), preTest := true })
        (fun t => (t.quad 0).preload == some (2, 0, 1) && !(t.quad 0).preTest) = true ∧
      leads (.preloadCommit 0 2) ((crowded.updVat 2 fun v => { v with cancelled := true }).updQuad 0 fun q => { q with preload := some (2, 0, 1), preTest := true })
        (fun t => (t.quad 0).preload.isNone) = true) := by decide +kernel
theorem witness_ManagementMessages_halted :
    (let s := { (State.reset.updMod 0 fun m => { m with halted := true, haltedAt := some 0 }) with now := 1 }
     (s.modu 0).halted = true ∧ (s.modu 0).haltedAt ≠ some s.now ∧ leads (.secpolWrite 0 2) s (fun t => t.modu 0 == s.modu 0) = true) ∧
    (let s := State.reset.updMod 0 fun m => { m with halted := true, haltedAt := some 0 }
     (s.modu 0).haltedAt = some s.now ∧ (s.modu 0).secpol.getLsbD 63 = false ∧
      leads (.secpolWrite 0 2) s (fun t => (t.modu 0).secpol == 2 ^ 63 + 2) = true) ∧
    serving.recal = false ∧ parkedAt.recal = false ∧ (commanded 0x10 0).recal = false ∧ serving.issue.active = false := by decide +kernel

/-- A bar word's bundle next in a gang of two wheels. -/
def barring : State := (placed 3 0x010000000018).updVat 1 fun v => { v with desc := { v.desc with gang := 1, wheels := 2 } }
theorem witness_MarkAndTranslationEvents_left :
    (let p : LeftPlace := { ctx := 0, vat := 1, acq := some .die, act := .signal 0 3 2 }
     let s := wheeled.updCore 0 fun k => { k with left := [p], l1 := [(3, [])] }
     s.stopped (modOf 0) = false ∧ s.leftReached 0 = some p ∧ ((s.die 0).sem 3).cur.bad = false ∧ ((s.die 0).sem 3).cur.count + 2 < 2 ^ 32 ∧
      leads (.markPerformed 0) s (fun t => (t.core 0).left == [] && (t.core 0).l1.isEmpty && ((t.die 0).sem 3).cur.count == 2) = true) ∧
    (let s := barring
     s.stopped (modOf 0) = false ∧ s.leftReached 0 = none ∧ (s.ctx 0).lq = [] ∧ (s.ctx 0).sq = [] ∧ s.arrives 0 = true ∧
      (s.atIssue 0).fate = .wait [(3, .bar 0 .quad)] ∧ (s.vat (s.ctx 0).vatKey).gangOf (s.ctx 0).wid.idx = some 0 ∧
      leads (.markPerformed 0) s (fun t => (t.ctx 0).barIn.isNone && (t.ctx 0).barOk) = true ∧
      leads (.markPerformed 0) (s.updCtx 16 fun c => { c with wheel := some { vat := 1, idx := 1 } }) (fun t => (t.ctx 0).barOk) = true ∧
      leads (.markPerformed 0) (s.updCtx 1 fun c => { c with wheel := some { vat := 1, idx := 1 } }) (fun t =>
        (t.ctx 0).barIn == some .quad && !(t.ctx 0).barOk) = true) ∧
    (let m : MOp := { kind := .order (some .die) true .none true, id := 4 }
     let s := { wheeled.updCtx 0 fun c => { c with lq := [m], sq := [m], farSent := [7] } with fars := [(7, farStore 0)] }
     s.leftReached 0 = none ∧ (∃ r ∈ (s.ctx 0).farSent, thas s.fars r = true ∧ (tget s.fars r).performed = false) ∧ s.arrives 0 = false) := by
  decide +kernel
theorem witness_AtomicEvents_waits :
    (let s := (wheeled.updCtx 0 fun c => { c with lq := [{ passedCas with fall := [] }] })
     s.fallsBack (s.ctx 0) = false ∧ (s.rd (pick passedCas.locs 0) 4) = 0 ∧ (amoNew .cas 4 0 6 0).isSome = true ∧
      leads (.atomicPerformed 0) s (fun t => t == s) = true) := by decide +kernel
theorem witness_QueueEvents_passes :
    (let b : MOp := { kind := .order (some .quad) false .none true, id := 3 }
     let a := { passedCas with fails := false, fall := [] }
     let op := { aStore with id := 4, ea := 16, locs := [16, 17, 18, 19] }
     let s := (wheeled.updCtx 0 fun c => { c with lq := [a, b], sq := [b, op] }).setBytes [(8, 1)]
     (s.ctx 0).sq = b :: op :: [] ∧ (s.ctx 0).lq.find? (fun x => x.id == a.id) = some a ∧ a.kind = .amo .cas 6 0 3 true ∧ a.fails = false ∧
      b.id = a.id + 1 ∧ (∀ x ∈ [op], x.id ≠ b.id) ∧ (allBytes + 2 ^ 4096).testBit 4096 = true ∧
      (∀ j < op.size, (allBytes + 2 ^ 4096).testBit j = true ∧ s.hbmBusy (pick op.locs j) = false) ∧
      leads (.storePerformed 0 (allBytes + 2 ^ 4096)) s (fun t => (t.ctx 0).sq == [] && t.byte 16 == 1 && t.byte 19 == 4 &&
        (t.ctx 0).lq.map (fun x => (x.id, x.fails)) == [(2, true)]) = true) := by decide +kernel
theorem witness_OwnScratchpadAccess_absent :
    (wheeled.updCore 0 fun k => { k with retired := true }).coreAbsent (coreOf 0) = true := by decide +kernel
/-- emb.cancel of an ember that an error struck before it began. -/
theorem witness_TokenResults_struck :
    (let e : Ember := { owner := 0, name := 7, prio := 1, struck := true }
     let s := embered e [(1, 0x85)]
     Issues 0 (.embCancel 0 3 1) s ∧ named s 1 = some (5, e) ∧ e.owner = s.cur % 4 ∧ (state s e).final = false ∧ e.st.cur.final = false ∧
      leads (.embCancel 0 3 1) s (fun t => landed t == [((wordOf { e with cause := 0x18 } 5 .faulted).toNat, 0)]) = true) :=
  ⟨⟨rfl, .inl rfl⟩, by decide +kernel⟩
/-- The vat of parkedAt, done, with its record at 2^32 + 0x100 and one entry. -/
def recording (f : Vat → Vat) : State :=
  (({ parkedAt with now := 0x123456789, ctxs := [] }.updVat 1 fun v =>
    f { v with desc := { v.desc with record := 2 ^ 32 + 0x100 }, started := 1, startAt := some 0x20, used := 0x1234, ended := 1, cls := 2, demotions := 1,
               entries := [{ addr := 0xABCDEF, who := 5, core := 3, die := 0, cause := 7, source := 2 }], entryCount := 3 })).updDie 0 fun d => { d with parked := [] }
/-- It completes with an outcome and a cause in its notice. -/
def completes (o c : Nat) (s : State) : Bool :=
  !s.issue.active && !(s.modu (vatMod 1)).halted && thas s.vats 1 && !s.recal && s.vatDone 1 && !(s.vat 1).desc.sigValid &&
    (s.vatEmbers 1).isEmpty && (s.vat 1).savedEmbers.isEmpty && leads (.vatComplete 1) s fun t => (t.modu 0).notices.any fun n => match n with
      | .complete 1 _ x y _ => x == o && y == c
      | _ => false
theorem witness_CompletionAndEnergyEvents_record :
    (let plain (f : Vat → Vat) := recording fun v => f { v with desc := { v.desc with record := 0 } }
     completes 1 7 (plain id) = true ∧ completes 3 7 (plain fun v => { v with cancelled := true, phase := .ready }) = true ∧
      completes 4 7 (plain fun v => { v with rerun := true }) = true ∧ completes 5 7 (plain fun v => { v with lostLeader := true }) = true ∧
      completes 0 0 (plain fun v => { v with entries := [], entryCount := 0 }) = true) ∧
    (let s := recording id
     s.vatDone 1 = true ∧ (s.vat 1).recBad = [] ∧ (s.vat 1).entries.length ≤ 12 ∧ (s.vat 1).entryCount ≤ 65535 ∧
      ∀ j < 256, s.vatLocs 1 (2 ^ 32 + 0x100 + j) 1 false true = some [0x50100 + j]) := by decide +kernel
/-- A cancelled vat whose one wheel waits, at an order place, for a far store parked on the vat's own page. -/
def stuck : State :=
  let s := (hosting 1 fun v => { v with phase := .running, cancelled := true, started := 1 })
  let m : MOp := { kind := .order none true .none false, id := 4 }
  { (s.updCtx 0 fun c => { c with wheel := some { vat := 1 }, phase := .faulting, lq := [m], sq := [m], farSent := [7] }).updDie 0 fun d =>
      { d with parked := [{ vat := 1, page := 2 ^ 20, va := 2 ^ 32, bytes := [7], far := some 7 }] } with
    fars := [(7, { farStore 0 with answered := true })] }
theorem witness_CompletionAndEnergyEvents_stuck : stuck.vatStuck 1 = true ∧ stuck.recal = false ∧ thas stuck.vats 1 = true ∧
    leads (.vatComplete 1) stuck (fun t => (t.die 0).parked.isEmpty && thas t.vats 1) = true := by decide +kernel
theorem witness_PressBoundaryEvents_alone (p : Bool) : (∀ x ∈ (draining p).accDrains, x.2.2.late = []) ∧
    ((draining p).pressRun 0).all (fun x => decide ((draining p).emberAt x.2.uid = some (.live x.1.core x.1.slot, x.2))) = true := by
  cases p <;> decide +kernel
theorem witness_CollectiveAndCaveEvents_early :
    (let r := lastPart 0
     let s := { gathered r with now := 1 }
     (∀ k < 8, r.early.contains (8 * 0 + k) = false) ∧ s.anyLoose 9 = false ∧
      (∀ v < 2, leads (.collectiveStep (9, .read v 3) 0 0) s (fun t => t.mem == s.mem && t.colls.map (fun r => (r.uid, r.pieces, r.done)) ==
        s.colls.map fun r => (r.uid, r.pieces, r.done)) = true)) := by decide +kernel
theorem witness_WheelAndPreemptionEvents_left :
    (let m : MOp := { kind := .order (some .die) true (.signal 0 3 2) true, id := 4 }
     let s := { (hosting 1 fun v => { v with phase := .running, started := 1 }) with
       ctxs := [(0, { wheel := some { vat := 1 }, phase := .ending, lq := [m], sq := [m], farSent := [7] })], fars := [(7, farStore 0)] }
     (s.ctx 0).wheel = some { vat := 1 } ∧ s.wheelOver 0 = true ∧ s.issue.active = false ∧ (s.modu (modOf 0)).halted = false ∧
      leads (.wheelEnded 0) s (fun t => (t.core 0).left == [{ ctx := 0, vat := 1, acq := some .die, act := .signal 0 3 2, far := [7] }]) = true) := by
  decide +kernel
/-- A write of a management register by the host port is answered with a status, in a state of which p holds. -/
def mgmtDone (reg : Nat) (v : Word) (status : Nat) (s : State) (p : State → Bool) : Bool :=
  s.takes 0 0 false && leads (.mgmtWrite 0 0 0 reg v) s fun t => p t && (t.modu 0).resps.getLast?.any fun r => r.ty == 0x19 && r.status == status
theorem witness_ManagementMessages_refused :
    (∀ x ∈ [(0, 0), (1, 32), (2, 0), (3, 128), (4, 1), (5, 0), (6, 0), (7, 6), (8, 1024), (9, 2000), (0x10, 0), (0x11, 0), (0x12, 0)],
      CommandRefused serving 0 x.1 x.2) ∧
    (∀ x ∈ [(1, 5), (3, 7), (4, 0), (7, 5), (8, 1023), (9, 1023)], ¬CommandRefused serving 0 x.1 x.2) := by
  constructor <;> simp only [List.mem_cons, List.not_mem_nil, or_false, forall_eq_or_imp, forall_eq, CommandRefused] <;>
    simp only [Nat.reduceEqDiff, ↓reduceIte] <;> decide +kernel
theorem witness_ManagementMessages_commands :
    mgmtDone 0x232 64 0 serving (fun t => (t.die 0).fwsrc == 64) = true ∧
    mgmtDone 0x204 (9 + 256 * 2000) 3 serving (fun t => decide ((t.die 0).hcmd = { busy := false, op := 9, target := 2000, result := 1 })) = true ∧
    mgmtDone 0x204 (9 + 256 * 1023) 0 serving (fun t => decide ((t.die 0).hcmd = { busy := true, op := 9, target := 1023, result := 0 })) = true ∧
    mgmtDone 0x204 (2 ^ 24) 3 serving (fun t => t.dies == serving.dies) = true := by decide +kernel
theorem witness_ManagementMessages_modcfg :
    (let s := serving.updMod 0 fun m => { m with modcfg := 0 }
     (s.modu 0).modcfg.getLsbD 63 = false ∧ mgmtDone 0x301 511 0 s (fun t => (t.modu 0).modcfg == 2 ^ 63 + 511) = true ∧
      mgmtDone 0x301 512 3 s (fun t => (t.modu 0).modcfg == 0) = true) ∧
    mgmtDone 0x301 5 3 serving (fun t => (t.modu 0).modcfg == 2 ^ 63) = true ∧
    (let s := { (State.reset.updMod 0 fun m => { m with halted := true, haltedAt := some 0 }) with now := 1 }
     (s.modu 0).halted = true ∧ (s.modu 0).haltedAt ≠ some s.now ∧ leads (.modcfgWrite 0 2) s (fun t => t == s) = true) ∧
    (let s := State.reset.updMod 0 fun m => { m with halted := true, haltedAt := some 0 }
     (s.modu 0).haltedAt = some s.now ∧ leads (.modcfgWrite 0 2) s (fun t => (t.modu 0).modcfg == 2 ^ 63 + 2) = true) := by decide +kernel
/-- A store behind the acquire of a compare-and-swap. -/
theorem witness_StoreAndLoadFrame_behind :
    (let b : MOp := { kind := .order (some .quad) false .none true, id := 3 }
     let op := { aStore with id := 4 }
     let s := wheeled.updCtx 0 fun c => { c with lq := [{ passedCas with fails := false, fall := [] }, b], sq := [b, op] }
     (s.ctx 0).sq = b :: op :: [] ∧ op.id ≠ b.id ∧ leads (.storePerformed 0 allBytes) s (fun t => t.mem == s.mem) = true) := by decide +kernel
theorem witness_PrivilegeAndRangeTraps_more :
    wheeled.issue.active = false ∧ wheeled.cc.panecnt ≤ (5 : PaneNo).val ∧ (7 : Fin 64).val % 2 = 1 ∧
    trapOf (.pressRun 0 ⟨0, 0, 9, 4⟩ 7 true true false) wheeled = some (0x204, 0) ∧ trapOf (.pressStatWest 0 ⟨0, 0, 9, 4⟩ 7 false) wheeled = some (0x204, 0) ∧
    trapOf (.ldmx 0 false .w256 3 4 0) wheeled = some (0x504, 0) ∧ trapOf (.stmx 0 true .w256 3 4 0) wheeled = some (0x604, 0) ∧
    trapOf (.vadd hdr .f32 o2 (.main .col 5 0) o2) wheeled = some (4, 0) ∧ trapOf (.vrand { hdr with v1 := true } o2 o2 (.main .row 5 0)) wheeled = some (0x104, 0) ∧
    trapOf (.vredsum hdr .bf16 (.main .row 5 0) o2) wheeled = some (4, 0) ∧ trapOf (.vmxdq hdr (.main .row 5 0) 2 ⟨0, 0, 0⟩) wheeled = some (4, 0) := by
  decide +kernel
theorem witness_ExecutionTraps_registers :
    (let at1 := wheeled.updCur fun c => { c with level := 1 }
     wheeled.cc.marks.contains (.csr 3) = false ∧
     (∀ n ∈ [3, 0xFF], trapOf (.csrw 0 n 1) wheeled = some (0x304, 0) ∧ trapOf (.csrs 0 n 1 3) wheeled = some (0x304, 0) ∧
       trapOf (.csrc 0 n 1 3) wheeled = some (0x304, 0)) ∧
     (∀ n ∈ [5, 0x1F], trapOf (.csrr 0 n 3) wheeled = some (0x304, 0)) ∧
     at1.cc.level = 1 ∧
     (∀ x ∈ [(Instr.csrw 0 0x104 1, 4, 0), (.csrs 0 0x106 1 3, 4, 0), (.csrc 0 0x1FF 1 3, 4, 0), (.csrr 0 0x107 3, 4, 0),
        (.csrw 0 0x200 1, 5, 0x200), (.csrs 0 0x3FF 1 3, 5, 0x3FF), (.csrc 0 0x200 1 3, 5, 0x200)],
        leads x.1 at1 (fun t => (t.ctx 0).endFault == some x.2) = true)) ∧
    (wheeled.vat wheeled.cc.vatKey).gangOf wheeled.cc.wid.idx = none ∧ trapOf (.bar 0 .quad) wheeled = some (0x304, 0) ∧
    (let s := { (wheeled.updVat wheeled.cc.vatKey fun v => { v with desc := { v.desc with gang := 1, wheels := 2 }, broken := [(0, 4)] }) with now := 5 }
     (s.vat s.cc.vatKey).gangOf s.cc.wid.idx = some 0 ∧ tget (s.vat s.cc.vatKey).broken 0 < s.now ∧ s.cc.barOk = false ∧
      trapOf (.bar 0 .pod) s = some (0x31F, 0)) := by decide +kernel
theorem witness_ErrorEvents_parity :
    (let s := failing 3 0 id
     s.issue.active = false ∧ (s.die 0).ce < 2 ^ 64 - 2 ∧ (s.die 0).events.length < 1023 ∧
      leads (.parityError 0 true) s (fun t => (t.die 0).ce == 2 && (t.die 0).events.map (·.lasting) == [true, false] && (t.core 0).draining &&
        (t.die 0).counters.length == 1 && (tget (t.die 0).counters (2 ^ 16 * 3)).length == 1) = true) ∧
    leads (.parityError 3 true) serving (fun t => (t.die 0).ce == 2 && !(t.core 3).draining && (tget (t.die 0).counters (2 ^ 16 * 3 + 3)).length == 2) = true ∧
    (let s := (([5, 6, 7].foldl (fun s k => s.updCore k fun c => { c with retired := true }) serving).updCore 4 fun c => { c with draining := true })
     (s.modu 0).halted = false ∧ (s.core 4).retired = false ∧ (s.core 4).draining = true ∧ s.coresBusy [4] = false ∧
      leads (.retireCore 0 4) s (fun t => (t.core 4).retired && (t.quad 1).isolated) = true ∧
      leads (.retireCore 0 4) (s.updCore 6 fun c => { c with retired := false }) (fun t => (t.core 4).retired && !(t.quad 1).isolated) = true) := by
  decide +kernel
/-- A vat of dies 0 and 1 with a wheel of a gang on core 2 of the failing die. -/
theorem witness_ErrorEvents_leader :
    (let s := { ((hosting 2 fun v => { v with phase := .running, leader := 0, shadow := some 1, desc := { v.desc with dieMask := 3, gang := 1 } }).updDie 1 fun d =>
        { d with isolated := false, stage := 5 }) with ctxs := [(8, { wheel := some { vat := 1, idx := 1 }, phase := .running })] }
     (tkeys s.vats).Nodup ∧ 1 ∈ tkeys s.vats ∧ s.issue.active = false ∧ (∃ d ∈ s.vatDies 1, d ∈ [0]) ∧
      (s.lostEntries 1 fun d => [0].contains d).length ≤ 12 ∧ (s.vat 1).gangOf 1 = some 0 ∧ dieOf 8 ∈ [0] ∧
      leads (.dieFailure [0]) s (fun t => (t.vat 1).leader == 1 && (t.vat 1).shadow.isNone && !(t.vat 1).lostLeader && thas (t.vat 1).broken 0 &&
        (t.vat 1).entries.any fun e => e.who == 1 && e.source == 2 && e.core == 2 && e.die == 0) = true) := by decide +kernel

end Sys2Proof.Tests
end

section
/-! PROOFS. The save of a vat performs the writes that its embers put off (14 R308, 17 R366). -/

namespace Sys2Proof.Machine

open Sys2Proof.Claims

/-- A copy of vat 1 on core 0 that has completed a unit and put off the write of its one byte (14 R308). -/
def copyingLate : Ember :=
  { vat := 1, op := .copy 0 false false, captured := true, began := true, st := ⟨.running, .running, 0⟩,
    late := [{ ws := [(0x30000, 7)] }] }

/-- Core 0 is being halted for a pre-emption of vat 1 while that copy stands at a boundary. -/
def haltingLate : State :=
  { now := 1,
    vats := [(1, { phase := .running, halting := [0] })],
    cores := [(0, { embers := [(0, some copyingLate)], moldRes := [(1, [])] })],
    quads := [(0, { copies := [{ core := 0, slot := 0, unit := 1 }] })] }

theorem maySave_haltingLate : haltingLate.maySave 1 0 = true := by decide +kernel

theorem byte_saveCore_haltingLate : cellGet (haltingLate.saveCore 1 0).mem 0x30000 = 7 := by decide +kernel

/-- A save whose conditions hold is made (17 R366). -/
theorem execVatSave_eq_saveCore {vat core : Nat} {s : State} (hrun : s.stopped (vatMod vat) = false) (hvat : thas s.vats vat = true)
    (hmay : s.maySave vat core = true) : execVatSave vat core s = .next (s.saveCore vat core) := by
  simp [execVatSave, hrun, hvat, hmay]

/-- Refutes O55: its clause on the save says that memory stays as it was, but a save first performs the writes that the embers of the
core have put off (14 R308), so a copy's byte reaches memory. -/
theorem not_wheelAndPreemptionEvents : ¬ Obligations.WheelAndPreemptionEvents := by
  intro h
  obtain ⟨-, -, hsave, -⟩ := h haltingLate rfl
  obtain ⟨t, ht, hmem, -⟩ := hsave 1 0 rfl rfl maySave_haltingLate
  have hsaved := ht.symm.trans (execVatSave_eq_saveCore rfl rfl maySave_haltingLate)
  injection hsaved with hsaved
  have hbyte := byte_saveCore_haltingLate
  rw [← hsaved, hmem] at hbyte
  exact absurd hbyte (by decide)

end Sys2Proof.Machine
end

section
/-! PROOFS. Reads of tables and of memory after writes: changed and deleted entries, runs of bytes, little-endian words. -/

namespace Sys2Proof.Machine

open Sys2Proof.Claims

/- Tables -/

/-- A key reads as an entry that the table lists, or as the default. -/
theorem tget_mem_or_default {α : Type} [Inhabited α] (t : Tbl α) (k : Nat) : (k, tget t k) ∈ t ∨ tget t k = default := by
  induction t with
  | nil => exact .inr rfl
  | cons x t ih =>
    obtain ⟨j, v⟩ := x
    by_cases h : j = k
    · simp [tget, h]
    · simp only [tget, h, if_false, List.mem_cons]
      exact ih.imp_left .inr

/-- A table with every entry changed by a function that keeps the default. -/
theorem tget_map {α : Type} [Inhabited α] (t : Tbl α) (k : Nat) (f : α → α) (hf : f default = default) :
    tget (t.map fun x => (x.1, f x.2)) k = f (tget t k) := by
  induction t with
  | nil => exact hf.symm
  | cons x t ih =>
    simp only [List.map_cons, tget, ih]
    split <;> rfl

theorem tget_tdel_ne {α : Type} [Inhabited α] (t : Tbl α) {k j : Nat} (h : j ≠ k) : tget (tdel t k) j = tget t j := by
  induction t with
  | nil => rfl
  | cons x t ih =>
    obtain ⟨i, v⟩ := x
    by_cases hi : i = k
    · have hij : i ≠ j := fun e => h (e.symm.trans hi)
      simpa [tdel, List.filter_cons, hi, tget, hi ▸ hij] using ih
    · simp only [tdel, List.filter_cons, bne_iff_ne, ne_eq, hi, not_false_eq_true, if_true, tget]
      rw [← tdel, ih]

theorem thas_iff {α : Type} (t : Tbl α) (k : Nat) : thas t k = true ↔ ∃ v, (k, v) ∈ t := by
  induction t with
  | nil => simp [thas]
  | cons x t ih =>
    obtain ⟨j, v⟩ := x
    simp [thas, ih, exists_or, eq_comm (a := k)]

@[simp] theorem thas_tdel_same {α : Type} (t : Tbl α) (k : Nat) : thas (tdel t k) k = false := by
  simp [Bool.eq_false_iff, ne_eq, thas_iff, tdel]

@[simp] theorem thas_tset_same {α : Type} (t : Tbl α) (k : Nat) (v : α) : thas (tset t k v) k = true := by
  induction t with
  | nil => simp [tset, thas]
  | cons x t ih =>
    unfold tset
    split
    · simp [thas]
    · split <;> simp [thas, ih]

theorem mem_foldl_nsAdd (l t : List Nat) (j : Nat) : j ∈ l.foldl nsAdd t ↔ j ∈ l ∨ j ∈ t := by
  induction l generalizing t with
  | nil => simp
  | cons x l ih =>
    simp only [List.foldl_cons, ih, mem_nsAdd, List.mem_cons]
    exact or_left_comm.trans or_assoc.symm

/- Bytes written in one run (10 R207) -/

@[simp] theorem State.setByte_dies (s : State) (l : Nat) (b : Byte) : (s.setByte l b).dies = s.dies := by
  unfold State.setByte; split <;> rfl
@[simp] theorem State.setByte_mods (s : State) (l : Nat) (b : Byte) : (s.setByte l b).mods = s.mods := by
  unfold State.setByte; split <;> rfl

@[simp] theorem State.setBytes_cores (ws : List (Nat × Byte)) (s : State) : (s.setBytes ws).cores = s.cores := by
  unfold State.setBytes
  induction ws generalizing s with
  | nil => rfl
  | cons w ws ih => simp [ih]
@[simp] theorem State.setBytes_dies (ws : List (Nat × Byte)) (s : State) : (s.setBytes ws).dies = s.dies := by
  unfold State.setBytes
  induction ws generalizing s with
  | nil => rfl
  | cons w ws ih => simp [ih]
@[simp] theorem State.setBytes_mods (ws : List (Nat × Byte)) (s : State) : (s.setBytes ws).mods = s.mods := by
  unfold State.setBytes
  induction ws generalizing s with
  | nil => rfl
  | cons w ws ih => simp [ih]

/-- Bytes written at locations that differ from one another read as written. -/
theorem State.byte_setBytes_mem (ws : List (Nat × Byte)) (s : State) {w : Nat × Byte} (hw : w ∈ ws) (hnd : (ws.map (·.1)).Nodup) :
    (s.setBytes ws).byte w.1 = w.2 := by
  induction ws generalizing s with
  | nil => simp at hw
  | cons x ws ih =>
    rw [List.map_cons, List.nodup_cons] at hnd
    rcases List.mem_cons.mp hw with rfl | hw
    · have hother : ∀ y ∈ ws, y.1 ≠ w.1 := fun y hy e => hnd.1 (List.mem_map.mpr ⟨y, hy, e⟩)
      have := State.byte_setBytes_other ws (s.setByte w.1 w.2) w.1 hother
      simpa [State.setBytes, State.byte_setByte] using this
    · exact ih _ hw hnd.2

/-- A run of bytes with their locations, from a first one on. -/
def runFrom (l : Nat) (bs : List Byte) : List (Nat × Byte) := ((List.range bs.length).map (· + l)).zip bs

theorem zipIdx_eq_runFrom (l : Nat) (bs : List Byte) : (bs.zipIdx.map fun (x : Byte × Nat) => (l + x.2, x.1)) = runFrom l bs := by
  apply List.ext_getElem <;> simp [runFrom, Nat.add_comm]

theorem getElem_runFrom (l : Nat) (bs : List Byte) (j : Nat) (hj : j < bs.length) : (l + j, bs[j]) ∈ runFrom l bs := by
  rw [List.mem_iff_getElem]
  exact ⟨j, by simpa [runFrom] using hj, by simp [runFrom, Nat.add_comm]⟩

theorem map_fst_runFrom (l : Nat) (bs : List Byte) : (runFrom l bs).map (·.1) = (List.range bs.length).map (· + l) := by
  simp [runFrom, List.map_fst_zip]

theorem byte_runFrom (s : State) (l : Nat) (bs : List Byte) (j : Nat) (hj : j < bs.length) :
    (s.setBytes (runFrom l bs)).byte (l + j) = bs[j] :=
  State.byte_setBytes_mem _ s (getElem_runFrom l bs j hj)
    (by rw [map_fst_runFrom]; exact List.Pairwise.map (· + l) (fun a b h e => h (Nat.add_right_cancel e)) List.nodup_range)

theorem byte_runFrom_outside (s : State) (l : Nat) (bs : List Byte) (a : Nat) (ha : a < l ∨ l + bs.length ≤ a) :
    (s.setBytes (runFrom l bs)).byte a = s.byte a := by
  apply State.byte_setBytes_other
  intro w hw e
  have hmem : w.1 ∈ (runFrom l bs).map (·.1) := List.mem_map_of_mem hw
  simp only [map_fst_runFrom, List.mem_map, List.mem_range] at hmem
  omega

/- Little-endian words in memory -/

@[simp] theorem length_leBytes (n v : Nat) : (leBytes n v).length = n := by
  induction n generalizing v with
  | zero => rfl
  | succ n ih => simp [leBytes, ih]

theorem leNat_leBytes (n v : Nat) : leNat (leBytes n v) = v % 256 ^ n := by
  induction n generalizing v with
  | zero => simp [leBytes, leNat, Nat.mod_one]
  | succ n ih => simp [leBytes, leNat, ih, Nat.pow_succ', Nat.mod_mul]

theorem State.rd_congr {s t : State} {l n : Nat} (h : ∀ j < n, t.byte (l + j) = s.byte (l + j)) : t.rd l n = s.rd l n := by
  unfold State.rd
  congr 1
  exact List.map_congr_left fun j hj => h j (List.mem_range.mp hj)

/-- A word read where it was written. -/
theorem rd_runFrom_same (s : State) (l n v : Nat) : (s.setBytes (runFrom l (leBytes n v))).rd l n = v % 256 ^ n := by
  have hbytes : ((List.range n).map fun i => (s.setBytes (runFrom l (leBytes n v))).byte (l + i)) = leBytes n v := by
    apply List.ext_getElem
    · simp
    · intro j hj _
      have hj' : j < (leBytes n v).length := by simpa using hj
      simpa using byte_runFrom s l (leBytes n v) j hj'
  rw [State.rd, hbytes, leNat_leBytes]

/-- A word read beside the bytes written. -/
theorem rd_runFrom_outside (s : State) (l : Nat) (bs : List Byte) (a n : Nat) (h : a + n ≤ l ∨ l + bs.length ≤ a) :
    (s.setBytes (runFrom l bs)).rd a n = s.rd a n :=
  State.rd_congr fun j hj => byte_runFrom_outside s l bs (a + j) (by omega)

end Sys2Proof.Machine
end

section
/-! PROOFS. Requests of the host that are answered at once (18 R409): submissions, bindings, DMA, malformed messages. -/

namespace Sys2Proof.Machine

open Sys2Proof.Claims

/- Requests and their answers (18 R409, R410) -/

@[simp] theorem State.answer_mem (s : State) (md ty status arg : Nat) (body : List Byte) :
    (s.answer md ty status arg body).mem = s.mem := rfl
@[simp] theorem State.answer_vats (s : State) (md ty status arg : Nat) (body : List Byte) :
    (s.answer md ty status arg body).vats = s.vats := rfl
@[simp] theorem State.answer_vat (s : State) (md ty status arg : Nat) (body : List Byte) (k : Nat) :
    (s.answer md ty status arg body).vat k = s.vat k := rfl
@[simp] theorem State.answer_quad (s : State) (md ty status arg : Nat) (body : List Byte) (k : Nat) :
    (s.answer md ty status arg body).quad k = s.quad k := rfl
@[simp] theorem State.answer_die (s : State) (md ty status arg : Nat) (body : List Byte) (k : Nat) :
    (s.answer md ty status arg body).die k = s.die k := rfl
@[simp] theorem State.answer_core (s : State) (md ty status arg : Nat) (body : List Byte) (k : Nat) :
    (s.answer md ty status arg body).core k = s.core k := rfl
@[simp] theorem State.answer_byte (s : State) (md ty status arg : Nat) (body : List Byte) (a : Nat) :
    (s.answer md ty status arg body).byte a = s.byte a := rfl
@[simp] theorem State.answer_rd (s : State) (md ty status arg : Nat) (body : List Byte) (a n : Nat) :
    (s.answer md ty status arg body).rd a n = s.rd a n := rfl

/-- Of the responses kept, the newest is the last. -/
theorem getLast?_kept {α : Type} (l : List α) (x : α) : ((l ++ [x]).drop ((l ++ [x]).length - 1024)).getLast? = some x := by
  rw [List.getLast?_drop, if_neg (by rw [List.length_append, List.length_singleton]; omega), List.getLast?_concat]

/-- What is answered is the last response kept, under the number that was next. -/
theorem answered_answer {s t : State} (hmods : t.mods = s.mods) (md ty status arg : Nat) (body : List Byte) :
    Answered s (t.answer md ty status arg body) md ty status arg body := by
  have hmod : t.modu md = s.modu md := by rw [State.modu, State.modu, hmods]
  simp only [Answered, State.answer, State.updMod_modu, if_true, hmod, getLast?_kept, and_self]

theorem State.onVat_live {s : State} {md ty vat : Nat} (f : State → State × Nat) (hvat : vat < 2 ^ 32)
    (hlive : thas s.vats (vatKeyOf md vat) = true) : s.onVat md ty vat f = (f s).1.answer md ty (f s).2 0 [] := by
  simp only [State.onVat, Nat.not_le.mpr hvat, hlive, if_false, Bool.not_true, Bool.false_eq_true]

/- No stack recalibrates (20 R424) -/

theorem State.hbmBusy_of_still {s : State} (h : s.recal = false) (l : Nat) : s.hbmBusy l = false := by
  have hdie : (s.die (l / 2 ^ 39)).hbmRecal = none := by
    rcases tget_mem_or_default s.dies (l / 2 ^ 39) with hm | hd
    · rw [State.recal, List.any_eq_false] at h
      exact Option.not_isSome_iff_eq_none.mp (h _ hm)
    · rw [State.die, hd]; rfl
  rw [State.hbmBusy, hdie, Bool.and_false]

theorem State.hbmWaits_of_still {s : State} (h : s.recal = false) (ls : List Nat) : s.hbmWaits ls = false := by
  simp [State.hbmWaits, State.hbmBusy_of_still h]

/-- A ring with one entry more (16 R332): its tail advanced, the address of a descriptor and the entry's sequence word written. -/
def State.withEntry (s : State) (tl a pa : Nat) : State :=
  ((s.setBytes (runFrom tl (leBytes 8 (s.rd tl 8 + 1)))).setBytes (runFrom a (leBytes 8 pa))).setBytes
    (runFrom (a + 8) (leBytes 4 (s.rd tl 8)))

@[simp] theorem State.withEntry_mods (s : State) (tl a pa : Nat) : (s.withEntry tl a pa).mods = s.mods := by simp [State.withEntry]

theorem State.withEntry_address (s : State) (tl a : Nat) {pa : Nat} (hpa : pa < 2 ^ 64) : (s.withEntry tl a pa).rd a 8 = pa := by
  rw [State.withEntry, rd_runFrom_outside _ _ _ _ _ (by omega), rd_runFrom_same]
  exact Nat.mod_eq_of_lt hpa

theorem State.withEntry_sequence (s : State) (tl a pa : Nat) : (s.withEntry tl a pa).rd (a + 8) 4 = s.rd tl 8 % 2 ^ 32 := by
  rw [State.withEntry, rd_runFrom_same, show 256 ^ 4 = 2 ^ 32 by decide]

theorem State.withEntry_tail (s : State) {tl a : Nat} (pa : Nat) (hapart : tl + 8 ≤ a ∨ a + 12 ≤ tl) :
    (s.withEntry tl a pa).rd tl 8 = (s.rd tl 8 + 1) % 2 ^ 64 := by
  rw [State.withEntry, rd_runFrom_outside _ _ _ _ _ (by rw [length_leBytes]; omega),
    rd_runFrom_outside _ _ _ _ _ (by rw [length_leBytes]; omega), rd_runFrom_same, show 256 ^ 8 = 2 ^ 64 by decide]

theorem State.withEntry_byte_outside (s : State) {tl a x : Nat} (pa : Nat) (ha : x < a ∨ a + 12 ≤ x) (ht : x < tl ∨ tl + 8 ≤ x) :
    (s.withEntry tl a pa).byte x = s.byte x := by
  rw [State.withEntry, byte_runFrom_outside _ _ _ _ (by rw [length_leBytes]; omega),
    byte_runFrom_outside _ _ _ _ (by rw [length_leBytes]; omega), byte_runFrom_outside _ _ _ _ (by rw [length_leBytes]; omega)]

theorem State.produce_of_room {s : State} {d q pa tl hd a b : Nat} (htl : paLoc (d / 8) (tget (s.die d).qtail q).toNat = some tl)
    (hhd : paLoc (d / 8) (tget (s.die d).qhead q).toNat = some hd) (hring : s.ringLocs d q (s.rd tl 8) = some (a, b))
    (hroom : s.rd tl 8 - s.rd hd 8 < 2 ^ ((tget (s.die d).qcfg q).toNat % 32)) :
    s.produce d q pa = some (some (s.withEntry tl a pa)) := by
  simp only [State.produce, htl, hhd, hring, zipIdx_eq_runFrom, Nat.not_le.mpr hroom, if_false, State.withEntry]

theorem execSubmit_of_produce {md sq die queue pa : Nat} {s t : State} (htakes : s.takes md sq false = true) (hdie : die < 8)
    (hqueue : queue < 16) (hpa : pa < 2 ^ 64) (hstill : s.recal = false) (hserves : s.dieServes (8 * md + die) = true)
    (hloc : (paLoc md pa).isSome = true) (hon : (s.die (8 * md + die)).queueOn queue = true)
    (hproduce : s.produce (8 * md + die) queue pa = some (some t)) : execSubmit md sq die queue pa s = .next (t.answer md 1 0 0 []) := by
  have hrange : ¬(7 < die ∨ 15 < queue ∨ 2 ^ 64 ≤ pa) := by omega
  have hsome : (paLoc md pa).isNone = false := Option.isNone_eq_false_iff.mpr hloc
  have hheld : s.ringHeld (8 * md + die) queue = false := by simp [State.ringHeld, hstill]
  simp only [execSubmit, htakes, hrange, hserves, hsome, hon, hheld, hproduce, Bool.not_true, Bool.or_false, Bool.false_eq_true, if_false]

theorem submit_leads {md sq die queue pa tl hd a b : Nat} {s : State} (htakes : s.takes md sq false = true) (hdie : die < 8)
    (hqueue : queue < 16) (hpa : pa < 2 ^ 64) (hstill : s.recal = false) (hserves : s.dieServes (8 * md + die) = true)
    (hloc : (paLoc md pa).isSome = true) (hon : (s.die (8 * md + die)).queueOn queue = true)
    (htl : paLoc md (tget (s.die (8 * md + die)).qtail queue).toNat = some tl)
    (hhd : paLoc md (tget (s.die (8 * md + die)).qhead queue).toNat = some hd)
    (hring : s.ringLocs (8 * md + die) queue (s.rd tl 8) = some (a, b))
    (hroom : s.rd tl 8 - s.rd hd 8 < 2 ^ ((tget (s.die (8 * md + die)).qcfg queue).toNat % 32)) (hapart : tl + 8 ≤ a ∨ a + 12 ≤ tl) :
    Leads (.submit md sq die queue pa) s fun t => Answered s t md 1 0 0 [] ∧ t.rd a 8 = pa ∧
      t.rd (a + 8) 4 = s.rd tl 8 % 2 ^ 32 ∧ t.rd tl 8 = (s.rd tl 8 + 1) % 2 ^ 64 ∧
      ∀ x, (x < a ∨ a + 12 ≤ x) → (x < tl ∨ tl + 8 ≤ x) → t.byte x = s.byte x := by
  have hmd : (8 * md + die) / 8 = md := by omega
  have hproduce : s.produce (8 * md + die) queue pa = some (some (s.withEntry tl a pa)) :=
    State.produce_of_room (hmd.symm ▸ htl) (hmd.symm ▸ hhd) hring hroom
  refine ⟨(s.withEntry tl a pa).answer md 1 0 0 [], ?_, answered_answer (State.withEntry_mods s tl a pa) md 1 0 0 [], ?_, ?_, ?_,
    fun x ha ht => ?_⟩
  · rw [exec_submit, execSubmit_of_produce htakes hdie hqueue hpa hstill hserves hloc hon hproduce]
  · rw [State.answer_rd, State.withEntry_address s tl a hpa]
  · rw [State.answer_rd, State.withEntry_sequence]
  · rw [State.answer_rd, State.withEntry_tail s pa hapart]
  · rw [State.answer_byte, State.withEntry_byte_outside s pa ha ht]

/- Bindings (18 R388) -/

theorem bind_leads {md sq die domain vat table : Nat} {s : State} (htakes : s.takes md sq false = true) (hvat : vat < 2 ^ 32)
    (hlive : thas s.vats (vatKeyOf md vat) = true) (hdie : die < 8) (hdomain : domain < 2 ^ 32) (htable : table < 2 ^ 64)
    (hserves : s.dieServes (8 * md + die) = true) (hfree : thas (s.die (8 * md + die)).doms domain = false)
    (hroom : (s.die (8 * md + die)).doms.length < 64) :
    Leads (.bind md sq die domain vat table) s fun t => Answered s t md 6 0 0 [] ∧
      tget (t.die (8 * md + die)).doms domain = (vatKeyOf md vat, table) ∧ thas (t.die (8 * md + die)).doms domain = true ∧
      (∀ j, j ≠ domain → tget (t.die (8 * md + die)).doms j = tget (s.die (8 * md + die)).doms j) ∧ t.mem = s.mem := by
  have hrange : ¬(7 < die ∨ 2 ^ 32 ≤ domain ∨ 2 ^ 64 ≤ table) := by omega
  refine ⟨(s.bindDomain (8 * md + die) domain (vatKeyOf md vat) table).answer md 6 0 0 [], ?_, answered_answer rfl .., ?_, ?_, ?_, rfl⟩
  · rw [exec_bind, execBind]
    simp only [htakes, hrange, State.onVat_live _ hvat hlive, hserves, hfree, Nat.not_le.mpr hroom, decide_false, Bool.not_true,
      Bool.or_false, Bool.false_eq_true, if_false]
  · simp [State.bindDomain]
  · simp [State.bindDomain]
  · intro j hj
    simp [State.bindDomain, tget_tset_ne _ _ hj]

theorem unbind_leads {md sq die domain : Nat} {s : State} (htakes : s.takes md sq false = true) (hdie : die < 8)
    (hdomain : domain < 2 ^ 32) (hserves : s.dieServes (8 * md + die) = true)
    (hbound : thas (s.die (8 * md + die)).doms domain = true) :
    Leads (.unbind md sq die domain) s fun t => Answered s t md 7 0 0 [] ∧ thas (t.die (8 * md + die)).doms domain = false ∧
      (∀ j, j ≠ domain → tget (t.die (8 * md + die)).doms j = tget (s.die (8 * md + die)).doms j) ∧ t.mem = s.mem := by
  have hrange : ¬(7 < die ∨ 2 ^ 32 ≤ domain) := by omega
  refine ⟨(s.unbindDomain (8 * md + die) domain).answer md 7 0 0 [], ?_, answered_answer rfl .., ?_, ?_, rfl⟩
  · rw [exec_unbind, execUnbind]
    simp only [htakes, hrange, hserves, hbound, Bool.not_true, Bool.or_false, Bool.false_eq_true, if_false]
  · simp [State.unbindDomain]
  · intro j hj
    simp [State.unbindDomain, tget_tdel_ne _ hj]

/- Memory by DMA (18 R409) -/

theorem dmaWrite_leads {md sq pa l : Nat} {bytes : List Byte} {s : State} (htakes : s.takes md sq false = true)
    (hstill : s.recal = false) (hsome : 0 < bytes.length) (hlen : bytes.length ≤ 2 ^ 20) (hpa : pa < 2 ^ 64)
    (hloc : s.dmaLoc md pa bytes.length = some l) :
    Leads (.dmaWrite md sq pa bytes) s fun t => Answered s t md 0x10 0 0 [] ∧
      (∀ j < bytes.length, t.byte (l + j) = pick bytes j) ∧ ∀ a, a < l ∨ l + bytes.length ≤ a → t.byte a = s.byte a := by
  have hne : bytes.isEmpty = false := by simpa [← List.length_pos_iff] using hsome
  have hrange : ¬(bytes.isEmpty ∨ 2 ^ 20 < bytes.length ∨ 2 ^ 64 ≤ pa) := by simp [hne]; omega
  refine ⟨((s.setBytes (runFrom l bytes)).healWhole ((List.range bytes.length).map (· + l))).answer md 0x10 0 0 [], ?_,
    answered_answer ?_ .., ?_, ?_⟩
  · rw [exec_dmaWrite, execDmaWrite]
    simp only [htakes, hrange, hloc, State.hbmWaits_of_still hstill]
    rfl
  · exact State.setBytes_mods _ s
  · intro j hj
    simp [byte_runFrom s l bytes j hj, pick, hj]
  · intro a ha
    simp [byte_runFrom_outside s l bytes a ha]

theorem dmaRead_leads {md sq pa len l : Nat} {s : State} (htakes : s.takes md sq false = true) (hstill : s.recal = false)
    (hsome : 0 < len) (hlen : len ≤ 2 ^ 20) (hpa : pa < 2 ^ 64) (hloc : s.dmaLoc md pa len = some l)
    (hsave : ∀ j < len, s.inSaveArea (l + j) = false) :
    Leads (.dmaRead md sq pa len) s fun t => t.mem = s.mem ∧
      ((∀ j < len, s.isBad (l + j) = false) → Answered s t md 0x11 0 0 ((List.range len).map fun j => s.byte (l + j))) ∧
      (∀ i < len, s.isBad (l + i) = true → (∀ j < i, s.isBad (l + j) = false) →
        Answered s t md 0x11 4 ((pa + i) / 32 * 32) ((List.range len).map fun j => s.byte (l + j))) := by
  have hrange : ¬(len = 0 ∨ 2 ^ 20 < len ∨ 2 ^ 64 ≤ pa) := by omega
  have hbody : (((List.range len).map (· + l)).map s.hostByte) = (List.range len).map fun j => s.byte (l + j) := by
    rw [List.map_map]
    refine List.map_congr_left fun j hj => ?_
    simp [State.hostByte, Nat.add_comm j l, hsave j (List.mem_range.mp hj)]
  have hexec : exec (.dmaRead md sq pa len) s = match (List.range len).find? fun i => s.isBad (l + i) with
      | some i => .next (s.answer md 0x11 4 ((pa + i) / 32 * 32) ((List.range len).map fun j => s.byte (l + j)))
      | none => .next (s.answer md 0x11 0 0 ((List.range len).map fun j => s.byte (l + j))) := by
    rw [exec_dmaRead, execDmaRead]
    simp only [htakes, hrange, hloc, State.hbmWaits_of_still hstill, hbody]
    rfl
  cases hfind : (List.range len).find? fun i => s.isBad (l + i) with
  | none =>
    rw [hfind] at hexec
    refine ⟨_, hexec, rfl, fun _ => answered_answer rfl .., fun i hi hbad _ => ?_⟩
    have := List.find?_eq_none.mp hfind i (List.mem_range.mpr hi)
    exact absurd hbad this
  | some k =>
    rw [hfind] at hexec
    obtain ⟨hk, hkl, hbefore⟩ := List.find?_range_eq_some.mp hfind
    refine ⟨_, hexec, rfl, fun hgood => ?_, fun i hi hbad hfirst => ?_⟩
    · simp [hgood k (List.mem_range.mp hkl)] at hk
    · have hik : i = k := by
        rcases Nat.lt_trichotomy i k with h | h | h
        · exact absurd hbad (by simpa using hbefore i h)
        · exact h
        · simp [hfirst k h] at hk
      exact hik ▸ answered_answer rfl ..

theorem malformedMessage_leads {md sq : Nat} {s : State} (htakes : s.takes md sq false = true) (ty : Nat) :
    Leads (.malformedMessage md sq ty) s fun t => Answered s t md ty 1 0 [] ∧ t.mem = s.mem ∧ t.dies = s.dies ∧
      t.vats = s.vats ∧ t.quads = s.quads ∧ t.cores = s.cores ∧ t.ctxs = s.ctxs := by
  refine ⟨s.decline md ty 1, ?_, answered_answer rfl .., rfl, rfl, rfl, rfl, rfl, rfl⟩
  rw [exec_malformedMessage, execMalformedMessage]
  simp [htakes]

end Sys2Proof.Machine
end

section
/-! PROOFS. What the end of an ember and the discard of a preload leave alone (11 R248, 16 R350). -/

namespace Sys2Proof.Machine

open Sys2Proof.Claims

/- What the end of an ember leaves alone -/

/-- Memory, responses, dies, cached translations of the cores, what scratchpad bytes have a defined value, and of each vat its mark as
cancelled and its pending spawns: what the end of an ember, its consequences and the discard of a preload leave alone. -/
structure Undisturbed (s t : State) : Prop where
  mem : t.mem = s.mem
  mods : t.mods = s.mods
  dies : t.dies = s.dies
  tlb : ∀ k, (t.core k).tlb = (s.core k).tlb
  epoch : ∀ q, (t.quad q).epoch = (s.quad q).epoch
  defd : ∀ q, (t.quad q).defd = (s.quad q).defd
  cancelled : ∀ v, (t.vat v).cancelled = (s.vat v).cancelled
  spawns : ∀ v, (t.vat v).spawns = (s.vat v).spawns

theorem Undisturbed.refl (s : State) : Undisturbed s s := ⟨rfl, rfl, rfl, fun _ => rfl, fun _ => rfl, fun _ => rfl, fun _ => rfl, fun _ => rfl⟩

theorem Undisturbed.trans {s t u : State} (h : Undisturbed s t) (g : Undisturbed t u) : Undisturbed s u where
  mem := g.mem.trans h.mem
  mods := g.mods.trans h.mods
  dies := g.dies.trans h.dies
  tlb k := (g.tlb k).trans (h.tlb k)
  epoch q := (g.epoch q).trans (h.epoch q)
  defd q := (g.defd q).trans (h.defd q)
  cancelled v := (g.cancelled v).trans (h.cancelled v)
  spawns v := (g.spawns v).trans (h.spawns v)

theorem Undisturbed.foldl {α : Type} {f : State → α → State} (hf : ∀ s x, Undisturbed s (f s x)) (l : List α) (s : State) :
    Undisturbed s (l.foldl f s) := by
  induction l generalizing s with
  | nil => exact .refl s
  | cons x l ih => exact (hf s x).trans (ih _)

theorem Undisturbed.byte {s t : State} (h : Undisturbed s t) (a : Nat) : t.byte a = s.byte a := by
  simp [State.byte, h.mem, h.epoch, h.defd]

theorem undisturbed_updCtx (s : State) (k : Nat) (f : Ctx → Ctx) : Undisturbed s (s.updCtx k f) :=
  ⟨rfl, rfl, rfl, fun _ => rfl, fun _ => rfl, fun _ => rfl, fun _ => rfl, fun _ => rfl⟩

theorem undisturbed_updCore (s : State) (k : Nat) {f : Core → Core} (hf : (f (s.core k)).tlb = (s.core k).tlb) :
    Undisturbed s (s.updCore k f) := by
  refine ⟨rfl, rfl, rfl, fun j => ?_, fun _ => rfl, fun _ => rfl, fun _ => rfl, fun _ => rfl⟩
  by_cases h : j = k
  · simp [h, hf]
  · simp [h]

theorem undisturbed_updQuad (s : State) (k : Nat) {f : Quad → Quad} (hepoch : (f (s.quad k)).epoch = (s.quad k).epoch)
    (hdefd : (f (s.quad k)).defd = (s.quad k).defd) : Undisturbed s (s.updQuad k f) := by
  refine ⟨rfl, rfl, rfl, fun _ => rfl, fun j => ?_, fun j => ?_, fun _ => rfl, fun _ => rfl⟩ <;> by_cases h : j = k <;>
    simp [h, hepoch, hdefd]

theorem undisturbed_updVat (s : State) (k : Nat) {f : Vat → Vat} (hcancelled : (f (s.vat k)).cancelled = (s.vat k).cancelled)
    (hspawns : (f (s.vat k)).spawns = (s.vat k).spawns) : Undisturbed s (s.updVat k f) := by
  refine ⟨rfl, rfl, rfl, fun _ => rfl, fun _ => rfl, fun _ => rfl, fun j => ?_, fun j => ?_⟩ <;> by_cases h : j = k <;>
    simp [h, hcancelled, hspawns]

theorem undisturbed_settleLeases (s : State) (quad : Nat) : Undisturbed s (s.settleLeases quad) := by
  simp only [State.settleLeases]
  split
  · exact undisturbed_updQuad s quad (f := fun _ => _) rfl rfl
  · exact .refl s

theorem undisturbed_settleBank (s : State) (quad : Nat) (b : Bool) : Undisturbed s (s.settleBank quad b) := by
  simp only [State.settleBank]
  split
  · exact undisturbed_updQuad s quad (by cases b <;> rfl) (by cases b <;> rfl)
  · exact .refl s

theorem undisturbed_finishEmber (s : State) (core slot : Nat) (st : EState) (cause faddr prog : Nat) :
    Undisturbed s (s.finishEmber core slot st cause faddr prog) := by
  simp only [State.finishEmber]
  split
  · exact .refl s
  · split
    · exact .refl s
    · refine Undisturbed.trans ?_ (undisturbed_settleBank _ _ _)
      refine Undisturbed.trans ?_ (undisturbed_settleBank _ _ _)
      refine Undisturbed.trans ?_ (undisturbed_settleLeases _ _)
      refine Undisturbed.trans ?_ (Undisturbed.foldl (fun u j => undisturbed_updCtx u _ _) _ _)
      exact undisturbed_updCore s core (f := fun _ => _) rfl

theorem undisturbed_updSave (s : State) (vat i : Nat) (f : CoreSave → CoreSave) : Undisturbed s (s.updSave vat i f) :=
  undisturbed_updVat s vat rfl rfl

theorem undisturbed_updEmber (s : State) (p : EPlace) (f : Ember → Ember) : Undisturbed s (s.updEmber p f) := by
  cases p with
  | live core slot => exact undisturbed_updCore s core (f := fun k => { k with embers := _ }) rfl
  | saved vat i slot =>
    simp only [State.updEmber]
    exact undisturbed_updSave s vat i _

theorem undisturbed_finishAt (s : State) (p : EPlace) (st : EState) (cause faddr prog : Nat) :
    Undisturbed s (s.finishAt p st cause faddr prog) := by
  cases p with
  | live core slot => exact undisturbed_finishEmber s core slot st cause faddr prog
  | saved vat i slot =>
    simp only [State.finishAt]
    exact undisturbed_updSave s vat i _

theorem undisturbed_emberEnd (s : State) (uid : Nat) (st : EState) (cause faddr prog : Nat) :
    Undisturbed s (s.emberEnd uid st cause faddr prog) := by
  simp only [State.emberEnd]
  split
  · exact .refl s
  · split
    · exact undisturbed_updEmber s _ _
    · exact undisturbed_finishAt s _ _ _ _ _

theorem undisturbed_leaveArray (s : State) (core slot : Nat) : Undisturbed s (s.leaveArray core slot) :=
  undisturbed_updQuad s _ rfl rfl

theorem undisturbed_drained (s : State) (uid : Nat) : Undisturbed s (s.drained uid) := by
  simp only [State.drained]
  split
  · next p e _ =>
    split
    · exact .refl s
    · cases p with
      | live core slot => exact (undisturbed_leaveArray s core slot).trans (undisturbed_finishAt _ _ _ _ _ _)
      | saved vat i slot => exact undisturbed_finishAt _ _ _ _ _ _
  · exact .refl s

theorem undisturbed_noteUnit (s : State) (uid unit : Nat) : Undisturbed s (s.noteUnit uid unit) := by
  simp only [State.noteUnit]
  split
  · exact .refl s
  · split
    · exact .refl s
    · exact undisturbed_updEmber s _ _

theorem undisturbed_updWheel (s : State) (w : WheelId) (f : Ctx → Ctx) : Undisturbed s (s.updWheel w f) := by
  simp only [State.updWheel]
  split
  · exact undisturbed_updCtx s _ f
  · exact undisturbed_updVat s _ rfl rfl

theorem undisturbed_cancelEmber (s : State) (core slot : Nat) (e : Ember) : Undisturbed s (s.cancelEmber core slot e) := by
  simp only [State.cancelEmber]
  split
  · exact .refl s
  · split
    · exact undisturbed_finishEmber s _ _ _ _ _ _
    · split
      · exact undisturbed_emberEnd s _ _ _ _ _
      · split
        · exact .refl s
        · exact undisturbed_updCore s core rfl

/- Preloads (16 R350) -/

theorem undisturbed_discardPreload (s : State) (quad : Nat) : Undisturbed s (s.discardPreload quad) := by
  simp only [State.discardPreload]
  split
  · exact .refl s
  · exact (Undisturbed.foldl (fun u j => undisturbed_updCore u _ (by rfl)) _ _).trans (undisturbed_updQuad _ _ rfl rfl)

theorem foldl_updCore_vats (l : List Nat) (g : Nat → Nat) (f : Core → Core) (s : State) :
    (l.foldl (fun s j => s.updCore (g j) f) s).vats = s.vats := by
  induction l generalizing s with
  | nil => rfl
  | cons x l ih => simp [ih]

theorem foldl_updCore_quad (l : List Nat) (g : Nat → Nat) (f : Core → Core) (s : State) (q : Nat) :
    (l.foldl (fun s j => s.updCore (g j) f) s).quad q = s.quad q := by
  induction l generalizing s with
  | nil => rfl
  | cons x l ih => simp [ih]

@[simp] theorem State.discardPreload_vats (s : State) (quad : Nat) : (s.discardPreload quad).vats = s.vats := by
  simp only [State.discardPreload]
  split
  · rfl
  · simp [foldl_updCore_vats]

/-- A preload of a quad that is discarded is gone, and those of the other quads stay. -/
theorem State.discardPreload_preload (s : State) (quad q : Nat) :
    ((s.discardPreload quad).quad q).preload = if q = quad then none else (s.quad q).preload := by
  simp only [State.discardPreload]
  split
  · next h => by_cases hq : q = quad <;> simp [hq, h]
  · by_cases hq : q = quad <;> simp [hq, foldl_updCore_quad]

end Sys2Proof.Machine
end

section
/-! PROOFS. Cancelling, pre-empting and rerunning a vat at the host's request (16 R348, R349, 17 R364). -/

namespace Sys2Proof.Machine

open Sys2Proof.Claims

/- CANCEL (16 R348) -/

/-- A change of every quad that keeps what its scratchpads hold. -/
theorem undisturbed_mapQuads (s : State) {f : Quad → Quad} (hdefault : f default = default) (hepoch : ∀ q, (f q).epoch = q.epoch)
    (hdefd : ∀ q, (f q).defd = q.defd) : Undisturbed s { s with quads := s.quads.map fun q => (q.1, f q.2) } := by
  have hquad (k : Nat) : State.quad { s with quads := s.quads.map fun q => (q.1, f q.2) } k = f (s.quad k) := tget_map s.quads k f hdefault
  exact ⟨rfl, rfl, rfl, fun _ => rfl, fun k => by rw [hquad, hepoch], fun k => by rw [hquad, hdefd], fun _ => rfl, fun _ => rfl⟩

/-- The live embers of a vat on one core are cancelled. -/
def cancelEmbersOn (vat : Nat) (s : State) (core : Nat) : State :=
  (s.core core).live.foldl (fun s x => match (s.core core).ember x.1 with
    | some e => if e.vat = vat then s.cancelEmber core x.1 e else s
    | none => s) s

/-- A preload of a cancelled vat is discarded. -/
def cancelPreload (vat : Nat) (s : State) (q : Nat × Quad) : State :=
  match q.2.preload with
  | some p => if p.1 = vat then s.discardPreload q.1 else s
  | none => s

theorem undisturbed_cancelEmbersOn (vat : Nat) (s : State) (core : Nat) : Undisturbed s (cancelEmbersOn vat s core) := by
  refine Undisturbed.foldl (fun u x => ?_) _ s
  split
  · split
    · exact undisturbed_cancelEmber u core _ _
    · exact .refl u
  · exact .refl u

theorem undisturbed_cancelPreload (vat : Nat) (s : State) (q : Nat × Quad) : Undisturbed s (cancelPreload vat s q) := by
  unfold cancelPreload
  split
  · split
    · exact undisturbed_discardPreload s q.1
    · exact .refl s
  · exact .refl s

/-- A vat that is cancelled is marked and drops its spawns; then park slots, embers and preloads follow. -/
theorem cancelVat_stages {s : State} {vat : Nat} (hnew : (s.vat vat).cancelled = false) :
    ∃ (f : Vat → Vat) (l : List (Nat × Quad)), (f (s.vat vat)).cancelled = true ∧ (f (s.vat vat)).spawns = [] ∧
      s.cancelVat vat = l.foldl (cancelPreload vat) ((s.vatCores vat).foldl (cancelEmbersOn vat)
        { s.updVat vat f with quads := s.quads.map fun q => (q.1, { q.2 with parkHeld := tdel q.2.parkHeld vat }) }) := by
  unfold State.cancelVat
  rw [if_neg (by simp [hnew])]
  exact ⟨_, _, rfl, rfl, rfl⟩

theorem cancelVat_after_mark {s : State} {vat : Nat} (hnew : (s.vat vat).cancelled = false) :
    ∃ f : Vat → Vat, (f (s.vat vat)).cancelled = true ∧ (f (s.vat vat)).spawns = [] ∧
      Undisturbed (s.updVat vat f) (s.cancelVat vat) := by
  obtain ⟨f, l, hcancelled, hspawns, hstages⟩ := cancelVat_stages hnew
  refine ⟨f, hcancelled, hspawns, hstages ▸ ?_⟩
  have hparks := undisturbed_mapQuads (s.updVat vat f) (f := fun q => { q with parkHeld := tdel q.parkHeld vat }) rfl
    (fun _ => rfl) fun _ => rfl
  exact hparks.trans ((Undisturbed.foldl (undisturbed_cancelEmbersOn vat) _ _).trans (Undisturbed.foldl (undisturbed_cancelPreload vat) _ _))

theorem cancel_leads {md sq vat : Nat} {s : State} (htakes : s.takes md sq false = true) (hvat : vat < 2 ^ 32)
    (hlive : thas s.vats (vatKeyOf md vat) = true) (hnew : (s.vat (vatKeyOf md vat)).cancelled = false) :
    Leads (.cancel md sq vat) s fun t => Answered s t md 2 0 0 [] ∧ (t.vat (vatKeyOf md vat)).cancelled = true ∧
      (t.vat (vatKeyOf md vat)).spawns = [] ∧ t.mem = s.mem := by
  obtain ⟨f, hcancelled, hspawns, hrest⟩ := cancelVat_after_mark hnew
  refine ⟨(s.cancelVat (vatKeyOf md vat)).answer md 2 0 0 [], ?_, answered_answer hrest.mods .., ?_, ?_, hrest.mem⟩
  · rw [exec_cancel, execCancel, State.onVat_live _ hvat hlive]
    simp [htakes]
  · rw [State.answer_vat, hrest.cancelled]
    simpa using hcancelled
  · rw [State.answer_vat, hrest.spawns]
    simpa using hspawns

/- PREEMPT (17 R364, 01 R22) -/

theorem State.mem_ctxs_of_wheel {s : State} {x : Nat} {w : WheelId} (h : (s.ctx x).wheel = some w) : (x, s.ctx x) ∈ s.ctxs := by
  rcases tget_mem_or_default s.ctxs x with hm | hd
  · exact hm
  · rw [State.ctx, hd] at h
    cases h

theorem State.subset_withGangs {s : State} {vat k : Nat} {cores : List Nat} (h : k ∈ cores) : k ∈ s.withGangs vat cores :=
  (mem_foldl_nsAdd _ _ _).mpr (.inr h)

theorem State.subset_repeat_withGangs (s : State) (vat n : Nat) {k : Nat} {cores : List Nat} (h : k ∈ cores) :
    k ∈ Nat.repeat (s.withGangs vat) n cores := by
  induction n with
  | zero => exact h
  | succ n ih => exact State.subset_withGangs ih

/-- A set of cores that has a member of a gang grows by the core of every other member. -/
theorem State.withGangs_of_gang {s : State} {vat x y g : Nat} {w z : WheelId} {cores : List Nat} (hx : coreOf x ∈ cores)
    (hw : (s.ctx x).wheel = some w) (hz : (s.ctx y).wheel = some z) (hwvat : w.vat = vat) (hzvat : z.vat = vat)
    (hwg : (s.vat vat).gangOf w.idx = some g) (hzg : (s.vat vat).gangOf z.idx = some g) : coreOf y ∈ s.withGangs vat cores := by
  simp only [State.withGangs, mem_foldl_nsAdd, List.mem_map, List.mem_filter]
  refine .inl ⟨(y, s.ctx y), ⟨⟨State.mem_ctxs_of_wheel hz, by simp [Ctx.vatKey, Ctx.wid, hz, hzvat]⟩, ?_⟩, rfl⟩
  have hhit : (x, s.ctx x) ∈ s.ctxs ∧ coreOf x ∈ cores := ⟨State.mem_ctxs_of_wheel hw, hx⟩
  simp only [Ctx.wid, hz, Option.getD_some, hzg, List.contains_iff_mem, List.mem_filterMap, List.mem_filter]
  exact ⟨(x, s.ctx x), ⟨⟨hhit.1, by simp [Ctx.vatKey, Ctx.wid, hw, hwvat]⟩, by simpa using hx⟩, by simp [hw, hwg]⟩

/-- The cores that a request asks for and on which the vat has anything are halting, with every core of each gang that has a member
there. -/
theorem askPreempt_halting {s : State} {vat k : Nat} {cores : List Nat} (hk : k ∈ cores) (hhas : thas (s.core k).moldRes vat = true) :
    k ∈ ((s.askPreempt vat cores).vat vat).halting ∧ ∀ x y w z g, coreOf x = k → (s.ctx x).wheel = some w → (s.ctx y).wheel = some z →
      w.vat = vat → z.vat = vat → (s.vat vat).gangOf w.idx = some g → (s.vat vat).gangOf z.idx = some g →
        coreOf y ∈ ((s.askPreempt vat cores).vat vat).halting := by
  have hall (n : Nat) : k ∈ Nat.repeat (s.withGangs vat) n (cores.foldl nsAdd []) :=
    State.subset_repeat_withGangs s vat n ((mem_foldl_nsAdd _ _ _).mpr (.inl hk))
  constructor
  · simp [State.askPreempt, mem_foldl_nsAdd, hall, hhas]
  · intro x y w z g hx hw hz hwvat hzvat hwg hzg
    have hy : coreOf y ∈ Nat.repeat (s.withGangs vat) (s.ctxs.length + 1) (cores.foldl nsAdd []) :=
      State.withGangs_of_gang (hx ▸ hall s.ctxs.length) hw hz hwvat hzvat hwg hzg
    have hon : s.ctxs.any (fun c => coreOf c.1 == coreOf y && c.2.wheel.isSome && c.2.vatKey == vat) = true :=
      List.any_eq_true.mpr ⟨(y, s.ctx y), State.mem_ctxs_of_wheel hz, by simp [Ctx.vatKey, Ctx.wid, hz, hzvat]⟩
    simp only [State.askPreempt, State.updVat_vat, if_true, mem_foldl_nsAdd, List.mem_filter, Bool.or_eq_true]
    exact .inl ⟨hy, .inr hon⟩

theorem preempt_leads {md sq vat : Nat} {cores : List Nat} {s : State} (htakes : s.takes md sq false = true) (hvat : vat < 2 ^ 32)
    (hlive : thas s.vats (vatKeyOf md vat) = true) (hcores : ∀ c ∈ cores, c < 1024)
    (hnew : (s.vat (vatKeyOf md vat)).cancelled = false) :
    let key := vatKeyOf md vat
    Leads (.preempt md sq vat cores) s fun t => Answered s t md 3 0 0 [] ∧ t.mem = s.mem ∧
      ∀ k, (cores = [] ∧ k ∈ s.vatCores key ∨ ∃ c ∈ cores, k = c + 1024 * md) → thas (s.core k).moldRes key = true →
        k ∈ (t.vat key).halting ∧ ∀ x y w z g, coreOf x = k → (s.ctx x).wheel = some w → (s.ctx y).wheel = some z → w.vat = key →
          z.vat = key → (s.vat key).gangOf w.idx = some g → (s.vat key).gangOf z.idx = some g → coreOf y ∈ (t.vat key).halting := by
  intro key
  have hrange : (cores.any fun c => decide (1024 ≤ c)) = false := by simpa using hcores
  refine ⟨(s.askPreempt key (if cores.isEmpty then s.vatCores key else cores.map (· + 1024 * md))).answer md 3 0 0 [], ?_,
    answered_answer rfl .., rfl, fun k hk hhas => ?_⟩
  · rw [exec_preempt, execPreempt, State.onVat_live _ hvat hlive]
    simp only [htakes, hrange, hnew, Bool.not_true, Bool.false_eq_true, if_false]
    rfl
  · refine askPreempt_halting ?_ hhas
    rcases hk with ⟨rfl, hk⟩ | ⟨c, hc, rfl⟩
    · exact hk
    · have hne : cores.isEmpty = false := by simpa using List.ne_nil_of_mem hc
      simp [hne, hc]

/- RERUN (16 R349, R350) -/

/-- The preload that a vat marked for rerun discards on a quad: one of another vat that waits for it. -/
def rerunDiscard (vat : Nat) (s : State) (q : Nat × Quad) : State :=
  match q.2.preload with
  | some (b, _, a) => if a = vat ∧ b ≠ vat then s.discardPreload q.1 else s
  | none => s

theorem markRerun_eq_foldl (s : State) (vat : Nat) :
    s.markRerun vat = s.quads.foldl (rerunDiscard vat) (s.updVat vat fun v => { v with rerun := true }) := rfl

theorem undisturbed_rerunDiscard (vat : Nat) (s : State) (q : Nat × Quad) : Undisturbed s (rerunDiscard vat s q) := by
  unfold rerunDiscard
  split
  · split
    · exact undisturbed_discardPreload s q.1
    · exact .refl s
  · exact .refl s

theorem rerunDiscard_vats (vat : Nat) (s : State) (q : Nat × Quad) : (rerunDiscard vat s q).vats = s.vats := by
  unfold rerunDiscard
  split
  · split
    · exact State.discardPreload_vats s q.1
    · rfl
  · rfl

theorem rerunDiscard_preload_none (vat : Nat) (s : State) (q : Nat × Quad) (k : Nat) (h : (s.quad k).preload = none) :
    ((rerunDiscard vat s q).quad k).preload = none := by
  unfold rerunDiscard
  split
  · split
    · simp [State.discardPreload_preload, h]
    · exact h
  · exact h

theorem foldl_rerunDiscard_vats (vat : Nat) (l : List (Nat × Quad)) (s : State) : (l.foldl (rerunDiscard vat) s).vats = s.vats := by
  induction l generalizing s with
  | nil => rfl
  | cons x l ih => rw [List.foldl_cons, ih, rerunDiscard_vats]

theorem foldl_rerunDiscard_preload_none (vat : Nat) (l : List (Nat × Quad)) (s : State) (k : Nat) (h : (s.quad k).preload = none) :
    ((l.foldl (rerunDiscard vat) s).quad k).preload = none := by
  induction l generalizing s with
  | nil => exact h
  | cons x l ih => exact ih _ (rerunDiscard_preload_none vat s x k h)

/-- A listed quad whose preload waits for the vat has none in the end. -/
theorem foldl_rerunDiscard_mem {vat : Nat} {l : List (Nat × Quad)} (s : State) {k b base : Nat} {q : Quad} (hmem : (k, q) ∈ l)
    (hpre : q.preload = some (b, base, vat)) (hb : b ≠ vat) : ((l.foldl (rerunDiscard vat) s).quad k).preload = none := by
  induction l generalizing s with
  | nil => cases hmem
  | cons x l ih =>
    rcases List.mem_cons.mp hmem with rfl | hmem
    · refine foldl_rerunDiscard_preload_none vat l _ k ?_
      simp [rerunDiscard, hpre, hb, State.discardPreload_preload]
    · exact ih _ hmem

theorem rerun_leads {md sq vat : Nat} {s : State} (htakes : s.takes md sq false = true) (hvat : vat < 2 ^ 32)
    (hlive : thas s.vats (vatKeyOf md vat) = true) (hrunning : (s.vat (vatKeyOf md vat)).phase = .running)
    (hnew : (s.vat (vatKeyOf md vat)).cancelled = false) :
    let key := vatKeyOf md vat
    Leads (.rerun md sq vat) s fun t => Answered s t md 4 0 0 [] ∧ t.vat key = { s.vat key with rerun := true } ∧ t.mem = s.mem ∧
      ∀ q b base, b ≠ key → (s.quad q).preload = some (b, base, key) → (t.quad q).preload = none := by
  intro key
  have hrest : Undisturbed (s.updVat key fun v => { v with rerun := true }) (s.markRerun key) :=
    markRerun_eq_foldl s key ▸ Undisturbed.foldl (undisturbed_rerunDiscard key) _ _
  refine ⟨(s.markRerun key).answer md 4 0 0 [], ?_, answered_answer hrest.mods .., ?_, hrest.mem, fun q b base hb hpre => ?_⟩
  · rw [exec_rerun, execRerun, State.onVat_live _ hvat hlive]
    simp only [htakes, hrunning, hnew]
    rfl
  · rw [State.answer_vat, markRerun_eq_foldl, State.vat, foldl_rerunDiscard_vats]
    exact tget_tset_same _ _ _
  · have hlisted : (q, s.quad q) ∈ s.quads := by
      rcases tget_mem_or_default s.quads q with hm | hd
      · exact hm
      · rw [State.quad, hd] at hpre
        cases hpre
    rw [State.answer_quad, markRerun_eq_foldl]
    exact foldl_rerunDiscard_mem _ hlisted hpre hb

end Sys2Proof.Machine
end

section
/-! PROOFS. A page made resident (17 R378), and the host messages together. -/

namespace Sys2Proof.Machine

open Sys2Proof.Claims

/- Walks see memory and the vats alone (17 R370, R371) -/

theorem walkTable_congr {s t : State} (hrd : t.rd = s.rd) (vat va level table : Nat) :
    t.walkTable vat va level table = s.walkTable vat va level table := by
  induction level generalizing table with
  | zero => simp only [State.walkTable, State.walkTable.walkEntry, hrd]
  | succ l ih => simp only [State.walkTable, State.walkTable.walkEntry, hrd, ih]

theorem walk_congr {s t : State} (hbyte : ∀ a, t.byte a = s.byte a) (hvats : t.vats = s.vats) (vat va : Nat) :
    t.walk vat va = s.walk vat va := by
  have hrd : t.rd = s.rd := by
    funext l n
    exact State.rd_congr fun j _ => hbyte (l + j)
  have hvat : t.vat vat = s.vat vat := by simp [State.vat, hvats]
  have hentry : t.rangeEntry vat = s.rangeEntry vat := by
    funext i
    simp only [State.rangeEntry, hvat, hrd]
  simp only [State.walk, hvat, hrd, hentry, walkTable_congr hrd]

/- Invalidations (17 R374) -/

theorem State.invalidate_core (s : State) (vat : Nat) (x : XInv) (k : Nat) : (s.invalidate vat x).core k =
    { s.core k with tlb := (s.core k).tlb.filter fun t => !(t.vat == vat && s.invCovers vat x t) } :=
  tget_map s.cores k (fun c => { c with tlb := c.tlb.filter fun t => !(t.vat == vat && s.invCovers vat x t) }) rfl

theorem State.invalidate_quad (s : State) (vat : Nat) (x : XInv) (q : Nat) : (s.invalidate vat x).quad q =
    { s.quad q with tlb := (s.quad q).tlb.filter fun t => !(t.vat == vat && s.invCovers vat x t) } :=
  tget_map s.quads q (fun c => { c with tlb := c.tlb.filter fun t => !(t.vat == vat && s.invCovers vat x t) }) rfl

theorem State.invalidate_byte (s : State) (vat : Nat) (x : XInv) (a : Nat) : (s.invalidate vat x).byte a = s.byte a := by
  simp only [State.byte, State.invalidate_quad]
  rfl

theorem State.invalidate_walk (s : State) (v : Nat) (x : XInv) (vat va : Nat) : (s.invalidate v x).walk vat va = s.walk vat va :=
  walk_congr (s.invalidate_byte v x) rfl vat va

theorem State.invalidate_toDrain (s : State) (v : Nat) (x : XInv) (vat va : Nat) :
    (s.invalidate v x).toDrain vat va = s.toDrain vat va := by
  simp only [State.toDrain, State.drainLoc, State.invalidate_walk]
  rfl

/- Draining one arrival (17 R378) -/

/-- A drained arrival leaves the park and its bytes are written. -/
def State.unparkBytes (s : State) (p : Parked) (loc : Nat) : State :=
  let s := { s with dies := s.dies.map fun (d : Nat × Die) => (d.1, { d.2 with parked := d.2.parked.erase p }) }
  (s.setBytes (runFrom loc p.bytes)).healWhole ((List.range p.bytes.length).map (· + loc))

theorem undisturbed_fars (s : State) (fars : Tbl FarReq) : Undisturbed s { s with fars := fars } :=
  ⟨rfl, rfl, rfl, fun _ => rfl, fun _ => rfl, fun _ => rfl, fun _ => rfl, fun _ => rfl⟩

/-- The rest of a drain tells the arrival's sender. -/
theorem undisturbed_drainOne (s : State) (p : Parked) (loc : Nat) : Undisturbed (s.unparkBytes p loc) (s.drainOne p loc) := by
  simp only [State.drainOne]
  split
  · split
    · exact .refl _
    · split
      · exact (undisturbed_fars _ _).trans (undisturbed_updWheel _ _ _)
      · exact undisturbed_fars _ _
  · refine Undisturbed.trans ?_ (undisturbed_drained _ _)
    split
    · exact undisturbed_noteUnit _ _ _
    · exact .refl _
  · exact .refl _

theorem drainOne_mods (s : State) (p : Parked) (loc : Nat) : (s.drainOne p loc).mods = s.mods :=
  (undisturbed_drainOne s p loc).mods.trans (State.setBytes_mods _ _)

theorem drainOne_tlb (s : State) (p : Parked) (loc k : Nat) : ((s.drainOne p loc).core k).tlb = (s.core k).tlb := by
  rw [(undisturbed_drainOne s p loc).tlb]
  simp [State.unparkBytes, State.core, State.healWhole]

theorem drainOne_parked (s : State) (p : Parked) (loc d : Nat) : ((s.drainOne p loc).die d).parked = (s.die d).parked.erase p := by
  have hdies : (s.drainOne p loc).dies = s.dies.map fun x => (x.1, { x.2 with parked := x.2.parked.erase p }) :=
    (undisturbed_drainOne s p loc).dies.trans (State.setBytes_dies _ _)
  rw [State.die, hdies, tget_map s.dies d (fun x => { x with parked := x.parked.erase p }) rfl]
  rfl

theorem drainOne_byte_inside (s : State) (p : Parked) (loc j : Nat) (hj : j < p.bytes.length) :
    (s.drainOne p loc).byte (loc + j) = pick p.bytes j := by
  rw [(undisturbed_drainOne s p loc).byte, State.unparkBytes, State.healWhole_byte, byte_runFrom _ _ _ _ hj]
  simp [pick, hj]

theorem drainOne_byte_outside (s : State) (p : Parked) (loc a : Nat) (ha : a < loc ∨ loc + p.bytes.length ≤ a) :
    (s.drainOne p loc).byte a = s.byte a := by
  rw [(undisturbed_drainOne s p loc).byte, State.unparkBytes, State.healWhole_byte, byte_runFrom_outside _ _ _ _ ha]
  rfl

/- Draining all arrivals of a page -/

/-- Arrivals are drained in their order. -/
def State.drainAll (s : State) (l : List (Parked × Nat)) : State := l.foldl (fun s x => s.drainOne x.1 x.2) s

theorem makeResident_eq_drainAll (s : State) (vat va : Nat) :
    s.makeResident vat va = (s.invalidate vat (.page va)).drainAll (s.toDrain vat va) := by
  rw [State.makeResident, State.invalidate_toDrain, State.drainAll]

theorem drainAll_mods (l : List (Parked × Nat)) (s : State) : (s.drainAll l).mods = s.mods := by
  induction l generalizing s with
  | nil => rfl
  | cons x l ih => exact (ih _).trans (drainOne_mods s x.1 x.2)

theorem drainAll_tlb (l : List (Parked × Nat)) (s : State) (k : Nat) : ((s.drainAll l).core k).tlb = (s.core k).tlb := by
  induction l generalizing s with
  | nil => rfl
  | cons x l ih => exact (ih _).trans (drainOne_tlb s x.1 x.2 k)

theorem drainAll_parked (l : List (Parked × Nat)) (s : State) (d : Nat) :
    ((s.drainAll l).die d).parked = (l.map (·.1)).foldl List.erase (s.die d).parked := by
  induction l generalizing s with
  | nil => rfl
  | cons x l ih => rw [List.map_cons, List.foldl_cons, ← drainOne_parked s x.1 x.2 d]; exact ih _

theorem count_foldl_erase (l ps : List Parked) (p : Parked) : (l.foldl List.erase ps).count p = ps.count p - l.count p := by
  induction l generalizing ps with
  | nil => rfl
  | cons x l ih => rw [List.foldl_cons, ih, List.count_erase, List.count_cons, Nat.sub_sub, Nat.add_comm]

/-- Every arrival that the residency command finds is drained as often as it stands in a park. -/
theorem count_parked_le_toDrain {s : State} {vat va : Nat} {p : Parked} (hp : (s.drainLoc vat va p).isSome = true) (d : Nat) :
    (s.die d).parked.count p ≤ ((s.toDrain vat va).map (·.1)).count p := by
  obtain ⟨l, hl⟩ := Option.isSome_iff_exists.mp hp
  have hfirst (ps : List Parked) : ((ps.filterMap fun p => (s.drainLoc vat va p).map fun l => (p, l)).map (·.1)).count p = ps.count p := by
    induction ps with
    | nil => rfl
    | cons x ps ih =>
      by_cases hx : x = p
      · subst hx
        simp [hl, ih]
      · cases hdrain : s.drainLoc vat va x <;> simp [hdrain, hx, ih]
  rcases tget_mem_or_default s.dies d with hm | hd
  · have hsub := List.sublist_flatten_of_mem (List.mem_map_of_mem (f := fun d : Nat × Die =>
      d.2.parked.filterMap fun p => (s.drainLoc vat va p).map fun l => (p, l)) hm)
    calc (s.die d).parked.count p = _ := (hfirst _).symm
      _ ≤ _ := (hsub.map (·.1)).count_le p
  · have hempty : (s.die d).parked = [] := by rw [State.die, hd]; rfl
    simp [hempty]

theorem makeResident_not_parked {s : State} {vat va : Nat} {p : Parked} (hp : (s.drainLoc vat va p).isSome = true) (d : Nat) :
    p ∉ ((s.makeResident vat va).die d).parked := by
  rw [makeResident_eq_drainAll, drainAll_parked, ← List.count_eq_zero, count_foldl_erase]
  exact Nat.sub_eq_zero_of_le (count_parked_le_toDrain hp d)

theorem makeResident_uncached {s : State} {vat va k : Nat} {y : Xlat} (hy : y ∈ ((s.makeResident vat va).core k).tlb) :
    ¬(y.vat = vat ∧ y.range = none ∧ y.page * 4096 / y.size = va / y.size) := by
  rw [makeResident_eq_drainAll, drainAll_tlb, State.invalidate_core, List.mem_filter] at hy
  rintro ⟨hvat, hrange, hpage⟩
  simp [State.invCovers, hvat, hrange, hpage] at hy

theorem State.residentHeld_of_still {s : State} (h : s.recal = false) (vat va : Nat) : s.residentHeld vat va = false := by
  simp [State.residentHeld, h]

theorem resident_leads {md sq vat page : Nat} {s : State} (htakes : s.takes md sq false = true) (hstill : s.recal = false)
    (hvat : vat < 2 ^ 32) (hpage : page < 2 ^ 64) (hlive : thas s.vats (vatKeyOf md vat) = true) :
    let key := vatKeyOf md vat
    Leads (.resident md sq vat page) s fun t => Answered s t md 5 0 0 [] ∧
      (∀ k, ∀ y ∈ (t.core k).tlb, ¬(y.vat = key ∧ y.range = none ∧ y.page * 4096 / y.size = page / y.size)) ∧
      (∀ x p y, s.walk key page = some x → p.vat = key → s.walk key p.va = some y → y.resident = true → y.leaf p.va = x.leaf page →
        ∀ d, p ∉ (t.die d).parked) ∧
      (∀ p l, s.toDrain key page = [(p, l)] → (∀ j < p.bytes.length, t.byte (l + j) = pick p.bytes j) ∧
        ∀ a, a < l ∨ l + p.bytes.length ≤ a → t.byte a = s.byte a) := by
  intro key
  have hmods : (s.makeResident key page).mods = s.mods := by rw [makeResident_eq_drainAll, drainAll_mods]; rfl
  refine ⟨(s.makeResident key page).answer md 5 0 0 [], ?_, answered_answer hmods .., fun k y hy => makeResident_uncached hy,
    fun x p y hx hp hy hres hleaf d => makeResident_not_parked ?_ d, fun p l honly => ?_⟩
  · rw [exec_resident, execResident, State.onVat_live _ hvat hlive]
    simp only [htakes, Nat.not_le.mpr hpage, State.residentHeld_of_still hstill, Bool.not_true, Bool.false_eq_true, if_false]
    rfl
  · simp [State.drainLoc, hp, hx, hy, hres, hleaf]
  · have hdrain : s.makeResident key page = (s.invalidate key (.page page)).drainOne p l := by
      rw [makeResident_eq_drainAll, honly, State.drainAll]
      rfl
    rw [hdrain]
    exact ⟨fun j hj => drainOne_byte_inside _ p l j hj, fun a ha => (drainOne_byte_outside _ p l a ha).trans (State.invalidate_byte ..)⟩

theorem residencyCommand_leads {die page : Nat} {s : State} (hstill : s.recal = false) (hrun : s.stopped (die / 8) = false)
    (hlive : thas s.vats (s.resVat die) = true) : Leads (.residencyCommand die page) s fun t =>
      ∀ k, ∀ y ∈ (t.core k).tlb, ¬(y.vat = s.resVat die ∧ y.range = none ∧ y.page * 4096 / y.size = page / y.size) := by
  refine ⟨s.makeResident (s.resVat die) page, ?_, fun k y hy => makeResident_uncached hy⟩
  rw [exec_residencyCommand, execResidencyCommand]
  simp only [hrun, hlive, State.residentHeld_of_still hstill, Bool.not_true, Bool.or_false, Bool.false_eq_true, if_false]

/- The messages together -/

theorem hostVatMessages : HostVatMessages := by
  intro md sq s htakes
  refine ⟨?submit, fun vat hvat hlive => ⟨cancel_leads htakes hvat hlive, fun cores hcores => preempt_leads htakes hvat hlive hcores,
    rerun_leads htakes hvat hlive, ?bind⟩, ?unbind⟩
  case submit =>
    intro die queue pa tl hd a b d hdie hqueue hpa hstill hserves hloc hon htl hhd i hring hroom hapart
    exact submit_leads htakes hdie hqueue hpa hstill hserves hloc hon htl hhd hring hroom hapart
  case bind =>
    intro die domain table d hdie hdomain htable hserves hfree hroom
    exact bind_leads htakes hvat hlive hdie hdomain htable hserves hfree hroom
  case unbind =>
    intro die domain d hdie hdomain hserves hbound
    exact unbind_leads htakes hdie hdomain hserves hbound

theorem hostMemoryMessages : HostMemoryMessages := by
  intro md sq s htakes hstill uncached
  exact ⟨fun pa bytes l hsome hlen hpa hloc => dmaWrite_leads htakes hstill hsome hlen hpa hloc,
    fun pa len l hsome hlen hpa hloc hsave => dmaRead_leads htakes hstill hsome hlen hpa hloc hsave,
    fun vat page hvat hpage hlive => resident_leads htakes hstill hvat hpage hlive,
    malformedMessage_leads htakes,
    fun die page hrun hlive => residencyCommand_leads hstill hrun hlive⟩

/-- Settles O56, message by message. -/
theorem hostMessages : Obligations.HostMessages := ⟨hostVatMessages, hostMemoryMessages⟩

end Sys2Proof.Machine
end

section
/-! PROOFS. One slot instruction run through its `slotOp`: its effect where it issues, and the trap of a bundle of it alone
(02 R37, R41, Table 2.5). -/

namespace Sys2Proof.Machine

open Sys2Proof.Claims

/-- Where an instruction with a predicate takes effect, it has the effect of its slot. -/
theorem exec_of_issues {p : PReg} {i : Instr} {s : State} (henc : i.encSlot.isSome = true) (hpred : (slotOp i).pred = some p)
    (h : Issues p i s) : exec i s = .next ((slotOp i).eff s) := by
  obtain ⟨hp, hcleared⟩ := h
  have hactive : (slotOp i).active s = true := by simpa [SlotOp.active, hpred] using hp
  rw [exec_eq_runOp i s henc, runOp_cleared _ _ hcleared, if_pos hactive]

theorem gives_of_eff {p : PReg} {i : Instr} {t : State → State} (henc : i.encSlot.isSome = true) (hpred : (slotOp i).pred = some p)
    (heff : ∀ s, (slotOp i).eff s = t s) : Gives p i t :=
  fun s h => (exec_of_issues henc hpred h).trans (congrArg Host.Outcome.next (heff s))

/-- An instruction alone in its bundle takes the bundle's trap; `hon` says that its trap does nothing beside trapping. -/
theorem exec_of_bundleTrap {i : Instr} {s : State} {t : Trap} (henc : i.encSlot.isSome = true) (hopen : s.issue.active = false)
    (htrap : s.bundleTrap [slotOp i] = some (slotOp i, t)) (hon : (slotOp i).onTrap t s = s) :
    exec i s = .next ((s.leaveWaits s.cur).takeTrap t) := by
  rw [exec_eq_runOp i s henc, runOp_trap _ _ _ hopen htrap, State.raise, hon]

theorem SlotOp.rangeBad_of_misaligned {o : SlotOp} {s : State} (h : o.groups = false) : o.rangeBad s = true := by
  simp [SlotOp.rangeBad, h]

theorem SlotOp.rangeBad_of_pane {o : SlotOp} {s : State} {m : PaneNo} (hm : m ∈ o.panes) (hout : s.cc.panecnt ≤ m.val) :
    o.rangeBad s = true := by
  have hpane : o.panes.any (fun p => decide (s.cc.panecnt ≤ p.val)) = true :=
    List.any_eq_true.mpr ⟨m, hm, decide_eq_true hout⟩
  rw [SlotOp.rangeBad, hpane, Bool.true_or]

theorem SlotOp.rangeBad_eq_false {o : SlotOp} {s : State} (hpanes : o.panes = []) (hgroups : o.groups = true) :
    o.rangeBad s = false := by
  simp [SlotOp.rangeBad, hpanes, hgroups]

theorem bundleTrap_of_rangeBad {o : SlotOp} {s : State} (h : o.rangeBad s = true) :
    s.bundleTrap [o] = some (o, ⟨cRANGE, o.slot, 0⟩) := by
  rw [bundleTrap_one, if_pos h]

theorem bundleTrap_of_priv {o : SlotOp} {s : State} {v : Nat} (hrange : o.rangeBad s = false) (h : o.priv s.cc.level = some v) :
    s.bundleTrap [o] = some (o, ⟨cPRIV, o.slot, v⟩) := by
  simp [bundleTrap_one, hrange, h]

end Sys2Proof.Machine
end

section
/-! PROOFS. PRIVILEGED at level 0, and OPERAND_RANGE of misaligned register groups and of panes outside the window
(05 R118, 03 R60, R62, R76, 17 R360). -/

namespace Sys2Proof.Machine

open Sys2Proof.Claims

/-- A C-slot instruction that PRIVILEGED forbids at level 0 traps there. -/
theorem exec_privileged {i : Instr} {v : Nat} (henc : i.encSlot.isSome = true) (hslot : (slotOp i).slot = 3)
    (hpanes : (slotOp i).panes = []) (hgroups : (slotOp i).groups = true) (hpriv : (slotOp i).priv 0 = some v)
    (hon : ∀ s, (slotOp i).onTrap ⟨cPRIV, 3, v⟩ s = s) (s : State) (hopen : s.issue.active = false) (hlevel : s.cc.level = 0) :
    exec i s = .next ((s.leaveWaits s.cur).takeTrap ⟨0x05, 3, v⟩) := by
  have hrange : (slotOp i).rangeBad s = false := SlotOp.rangeBad_eq_false hpanes hgroups
  have htrap := bundleTrap_of_priv hrange (hlevel ▸ hpriv)
  rw [hslot] at htrap
  exact exec_of_bundleTrap henc hopen htrap (hon s)

/-- Only a DATA_POISON clears a poison record (10 R210). -/
theorem clearRec_of_code_ne {p : PReg} {ts : List Nat} {t : Trap} {s : State} (h : t.code ≠ cPOISON) : clearRec p ts t s = s :=
  if_neg fun hpoison => h hpoison.1

theorem tretOp_onTrap_priv (p : PReg) (v : Nat) (s : State) : (tretOp p).onTrap ⟨cPRIV, 3, v⟩ s = s := by
  have hclear : clearRec p allZero ⟨cPRIV, 3, v⟩ s = s := clearRec_of_code_ne (show cPRIV ≠ cPOISON by decide)
  exact (congrArg (ite _ s) hclear).trans (ite_self s)

theorem csrPrivTrap_zero {n : Nat} (hlow : 0x100 ≤ n) (hhigh : n < 0x200) : csrPrivTrap 0 n = true := by
  simp [csrPrivTrap, hlow, hhigh]

theorem privilegedTraps : PrivilegedTraps := by
  intro p n d a i
  refine ⟨exec_privileged rfl rfl rfl rfl rfl (tretOp_onTrap_priv p 0x30), ?_, ?_, ?_, ?_, ?_, fun hlow hhigh => ?csr⟩
  case csr =>
    have hpriv : (if csrPrivTrap 0 n.toNat then some n.toNat else none) = some n.toNat := if_pos (csrPrivTrap_zero hlow hhigh)
    refine ⟨?_, ?_, ?_, ?_⟩ <;> exact exec_privileged rfl rfl rfl rfl hpriv fun _ => rfl
  all_goals exact exec_privileged rfl rfl rfl rfl rfl fun _ => rfl

/-- A slot whose register group is not aligned traps (03 R60). -/
theorem exec_misaligned {i : Instr} {slot : Nat} (henc : i.encSlot.isSome = true) (hslot : (slotOp i).slot = slot)
    (hon : ∀ t s, (slotOp i).onTrap t s = s) (hgroups : (slotOp i).groups = false) (s : State) (hopen : s.issue.active = false) :
    exec i s = .next ((s.leaveWaits s.cur).takeTrap ⟨0x04, slot, 0⟩) := by
  subst hslot
  exact exec_of_bundleTrap henc hopen (bundleTrap_of_rangeBad (SlotOp.rangeBad_of_misaligned hgroups)) (hon _ s)

/-- A slot that names a pane outside the window traps (03 R62). -/
theorem exec_paneOutside {i : Instr} {slot : Nat} {m : PaneNo} (henc : i.encSlot.isSome = true) (hslot : (slotOp i).slot = slot)
    (hon : ∀ t s, (slotOp i).onTrap t s = s) (hm : m ∈ (slotOp i).panes) (s : State) (hopen : s.issue.active = false)
    (hout : s.cc.panecnt ≤ m.val) : exec i s = .next ((s.leaveWaits s.cur).takeTrap ⟨0x04, slot, 0⟩) := by
  subst hslot
  exact exec_of_bundleTrap henc hopen (bundleTrap_of_rangeBad (SlotOp.rangeBad_of_pane hm hout)) (hon _ s)

theorem mem_opndPane_iff {m : PaneNo} {y : Opnd} : m ∈ opndPane y ↔ ∃ dir i, y = .main dir m i := by
  cases y <;> simp [opndPane, eq_comm]

theorem mem_flatMap_opndPane_cons {m : PaneNo} {y : Opnd} {ys : List Opnd} :
    m ∈ (y :: ys).flatMap opndPane ↔ m ∈ opndPane y ∨ m ∈ ys.flatMap opndPane := by
  rw [List.flatMap_cons, List.mem_append]

theorem mem_flatMap_opndPane_three {m : PaneNo} {u v x : Opnd} (h : m ∈ opndPane u ∨ m ∈ opndPane v ∨ m ∈ opndPane x)
    (ys : List Opnd) : m ∈ (u :: v :: x :: ys).flatMap opndPane := by
  rw [mem_flatMap_opndPane_cons, mem_flatMap_opndPane_cons, mem_flatMap_opndPane_cons]
  exact h.imp_right (Or.imp_right Or.inl)

theorem operandRangeTraps : OperandRangeTraps := by
  intro p h ty c d a b k m r off od oa x cv v1 bank acc tag w at_ bb traps outside
  have group {n j : Nat} (hne : j % n ≠ 0) : (j % n == 0) = false := beq_false_of_ne hne
  have odd {j : Nat} (hodd : j % 2 = 1) : (j % 2 == 0) = false := group (by omega)
  refine ⟨fun ha => exec_misaligned rfl rfl (fun _ _ => rfl) (odd ha), fun hd => exec_misaligned rfl rfl (fun _ _ => rfl) (odd hd),
    fun hd => exec_misaligned rfl rfl (fun _ _ => rfl) (group hd), fun hd => exec_misaligned rfl rfl (fun _ _ => rfl) (odd hd),
    fun hb => exec_misaligned rfl rfl (fun _ _ => rfl) (odd hb), fun hod => exec_misaligned rfl rfl (fun _ _ => rfl) (odd hod),
    fun hoa => exec_misaligned rfl rfl (fun _ _ => rfl) (odd hoa), ?_, ?_, ?_, ?_, fun hb snap sparse => ?press, fun hod el8 => ?mx,
    fun u v j => ?vector⟩
  case press => refine ⟨?_, ?_, ?_⟩ <;> exact exec_misaligned rfl rfl (fun _ _ => rfl) (odd hb)
  case mx => refine ⟨?_, ?_⟩ <;> exact exec_misaligned rfl rfl (fun _ _ => rfl) (odd hod)
  case vector =>
    intro names out
    simp only [names, ← mem_opndPane_iff]
    refine ⟨fun hnames => ?three, fun hnames => ?two, fun hu => ?one⟩
    case three =>
      have hpane (ys : List Opnd) : m ∈ (u :: v :: x :: ys).flatMap opndPane := mem_flatMap_opndPane_three hnames ys
      refine ⟨?_, ?_, ?_, exec_paneOutside rfl rfl (fun _ _ => rfl) (hpane [u]), ?_, ?_, ?_, ?_, ?_, ?_, ?_, ?_, ?_, ?_, ?_, ?_, ?_⟩
      all_goals exact exec_paneOutside rfl rfl (fun _ _ => rfl) (hpane [])
    case two =>
      have hcvt : m ∈ opndPane u ++ opndPane v := List.mem_append.mpr hnames
      have hpane : m ∈ [u, v].flatMap opndPane := mem_flatMap_opndPane_cons.mpr (hnames.imp_right (List.mem_append_left []))
      refine ⟨?_, ?_, ?_, ?_, ?_, ?_, ?_, ?_, ?_, ?_, ?_, exec_paneOutside rfl rfl (fun _ _ => rfl) hcvt,
        ?_, ?_, ?_, ?_, ?_, ?_, ?_, ?_, ?_⟩
      all_goals exact exec_paneOutside rfl rfl (fun _ _ => rfl) hpane
    case one => refine ⟨?_, ?_⟩ <;> exact exec_paneOutside rfl rfl (fun _ _ => rfl) hu
  all_goals exact exec_paneOutside rfl rfl (fun _ _ => rfl) (List.mem_singleton_self m)

/-- Settles O26, from the order of the checks of a bundle of one slot (02 Table 2.5). -/
theorem privilegeAndRangeTraps : Obligations.PrivilegeAndRangeTraps := ⟨privilegedTraps, operandRangeTraps⟩

end Sys2Proof.Machine
end

section
/-! PROOFS. The words of the scalar arithmetic, shifts and counts as integers (07 Tables 7.1, 7.2). -/

namespace Sys2Proof.Machine

theorem shiftLeft_eq_ofNat (x : Word) (n : Nat) : x <<< n = BitVec.ofNat 64 (x.toNat * 2 ^ n) := by
  apply BitVec.eq_of_toNat_eq
  rw [BitVec.toNat_shiftLeft, Nat.shiftLeft_eq, BitVec.toNat_ofNat]

theorem ushiftRight_eq_ofNat (x : Word) (n : Nat) : x >>> n = BitVec.ofNat 64 (x.toNat / 2 ^ n) := by
  rw [← Nat.shiftRight_eq_div_pow, ← BitVec.toNat_ushiftRight, BitVec.ofNat_toNat, BitVec.setWidth_eq]

theorem sshiftRight_eq_ofInt (x : Word) (n : Nat) : x.sshiftRight n = BitVec.ofInt 64 (x.toInt / 2 ^ n) := by
  have hdiv : x.toInt >>> n = x.toInt / 2 ^ n :=
    (Int.shiftRight_eq_div_pow _ n).trans (congrArg (x.toInt / ·) (Int.natCast_pow 2 n))
  rw [← hdiv, ← BitVec.toInt_sshiftRight, BitVec.ofInt_toInt]

/-- A shift of a word by its width less one leaves the sign in every bit. -/
theorem sshiftRight_63 (x : Word) : x.sshiftRight 63 = if x.msb then BitVec.allOnes 64 else 0 := by
  apply BitVec.eq_of_getLsbD_eq
  intro i hi
  have hsign : (x.sshiftRight 63).getLsbD i = x.msb := by
    rw [BitVec.getLsbD_sshiftRight, decide_eq_false (Nat.not_le.mpr hi), Bool.not_false, Bool.true_and]
    split
    · next hlast =>
      obtain rfl : i = 0 := by omega
      exact (BitVec.msb_eq_getLsbD_last x).symm
    · rfl
  rw [hsign]
  cases x.msb
  · exact BitVec.getLsbD_zero.symm
  · exact (BitVec.getLsbD_allOnes.trans (decide_eq_true hi)).symm

theorem wordShl_eq (x y : Word) : wordShl x y = if y.toNat < 64 then BitVec.ofNat 64 (x.toNat * 2 ^ y.toNat) else 0 := by
  rw [wordShl, shiftLeft_eq_ofNat]

theorem wordShr_eq (x y : Word) : wordShr x y = if y.toNat < 64 then BitVec.ofNat 64 (x.toNat / 2 ^ y.toNat) else 0 := by
  rw [wordShr, ushiftRight_eq_ofNat]

theorem wordSar_eq (x y : Word) : wordSar x y =
    if y.toNat < 64 then BitVec.ofInt 64 (x.toInt / 2 ^ y.toNat) else if x.msb then BitVec.allOnes 64 else 0 := by
  unfold wordSar
  split
  · next h => rw [Nat.min_eq_left (Nat.le_of_lt_succ h), sshiftRight_eq_ofInt]
  · next h => rw [Nat.min_eq_right (by omega), sshiftRight_63]

/-- A word whose highest one bit is bit 63 - n has n leading zero bits. -/
theorem log2_of_leadingZeros {x : Word} {n : Nat} (hn : n < 64) (hzero : ∀ i < n, x.getLsbD (63 - i) = false)
    (hone : x.getLsbD (63 - n) = true) : Nat.log2 x.toNat = 63 - n := by
  have hlow : 2 ^ (63 - n) ≤ x.toNat := Nat.ge_two_pow_of_testBit hone
  have hhigh : x.toNat < 2 ^ (63 - n + 1) := by
    refine Nat.lt_pow_two_of_testBit _ fun j hj => ?_
    by_cases h64 : j < 64
    · have hbit := hzero (63 - j) (by omega)
      rwa [show 63 - (63 - j) = j by omega] at hbit
    · exact BitVec.getLsbD_of_ge x j (by omega)
  have hne : x.toNat ≠ 0 := Nat.ne_of_gt (Nat.lt_of_lt_of_le (Nat.two_pow_pos _) hlow)
  exact (Nat.log2_eq_iff hne).mpr ⟨hlow, hhigh⟩

theorem wordClz_eq {x : Word} {n : Nat} (hn : n ≤ 64) (hzero : ∀ i < n, x.getLsbD (63 - i) = false)
    (hone : n < 64 → x.getLsbD (63 - n) = true) : wordClz x = BitVec.ofNat 64 n := by
  rcases Nat.lt_or_eq_of_le hn with hlt | rfl
  · have hne : x ≠ 0 := by
      rintro rfl
      simp at hone
      omega
    rw [wordClz, if_neg hne, log2_of_leadingZeros hlt hzero (hone hlt), show 63 - (63 - n) = n by omega]
  · have hall : x = 0 := by
      apply BitVec.eq_of_getLsbD_eq
      intro i hi
      have hbit := hzero (63 - i) (by omega)
      rw [show 63 - (63 - i) = i by omega] at hbit
      rw [hbit, BitVec.ofNat_eq_ofNat, BitVec.getLsbD_zero]
    rw [wordClz, if_pos hall]
    rfl

/-- Adding up bits counts the true ones. -/
theorem foldl_add_toNat (f : Nat → Bool) (l : List Nat) (k : Nat) :
    l.foldl (fun n i => n + (f i).toNat) k = k + (l.filter f).length := by
  induction l generalizing k with
  | nil => rfl
  | cons i l ih => cases hbit : f i <;> simp [ih, hbit, Nat.add_assoc, Nat.add_comm 1]

theorem wordPopc_eq (x : Word) :
    wordPopc x = BitVec.ofNat 64 ((List.range 64).foldl (fun n i => n + (x.getLsbD i).toNat) 0) := by
  rw [foldl_add_toNat, Nat.zero_add, wordPopc]

/-- A choice by a signed comparison is one by the integers that the words stand for. -/
theorem ite_sle (x y a b : Word) : (if x.sle y then a else b) = if x.toInt ≤ y.toInt then a else b := by
  by_cases h : x.toInt ≤ y.toInt
  · rw [if_pos (BitVec.sle_iff_toInt_le.mpr h), if_pos h]
  · rw [if_neg (mt BitVec.sle_iff_toInt_le.mp h), if_neg h]

theorem mul_eq_ofNat (x y : Word) : x * y = BitVec.ofNat 64 (x.toNat * y.toNat) := by
  rw [BitVec.ofNat_mul, BitVec.ofNat_toNat, BitVec.ofNat_toNat, BitVec.setWidth_eq, BitVec.setWidth_eq]

/-- lcat: the immediate stands below the shifted word. -/
theorem shiftLeft_or_setWidth (x : Word) (imm : BitVec 25) :
    (x <<< 25) ||| imm.setWidth 64 = BitVec.ofNat 64 (x.toNat * 2 ^ 25 + imm.toNat) := by
  have himm : imm.toNat < 2 ^ 25 := imm.isLt
  apply BitVec.eq_of_toNat_eq
  rw [BitVec.toNat_or, BitVec.toNat_shiftLeft, BitVec.toNat_setWidth, BitVec.toNat_ofNat, ← Nat.or_mod_two_pow,
    ← Nat.shiftLeft_add_eq_or_of_lt himm, Nat.shiftLeft_eq]

end Sys2Proof.Machine
end

section
/-! PROOFS. What the A slot's scalar instructions leave (07 Tables 7.1, 7.2). -/

namespace Sys2Proof.Machine

open Sys2Proof.Claims

theorem scalarArithmeticResults : ScalarArithmeticResults := by
  intro p q d a b sh
  refine ⟨?_, ?_, ?_, ?_, ?_, ?_, ?min, ?max, ?lea, ?_, ?mul, ?_⟩
  case min => exact gives_of_eff rfl rfl fun s => congrArg (s.landS 4 1 d) (ite_sle _ _ _ _)
  case max => exact gives_of_eff rfl rfl fun s => congrArg (s.landS 4 1 d) (ite_sle _ _ _ _)
  case lea => exact gives_of_eff rfl rfl fun s => congrArg (fun y => s.landS 4 1 d (sv s a + y)) (shiftLeft_eq_ofNat _ _)
  case mul => exact gives_of_eff rfl rfl fun s => congrArg (s.landS 4 3 d) (mul_eq_ofNat _ _)
  all_goals exact gives_of_eff rfl rfl fun s => rfl

theorem scalarShiftAndCountResults : ScalarShiftAndCountResults := by
  intro p d a b
  refine ⟨gives_of_eff rfl rfl fun s => congrArg (s.landS 4 1 d) (wordShl_eq _ _),
    gives_of_eff rfl rfl fun s => congrArg (s.landS 4 1 d) (wordShr_eq _ _),
    gives_of_eff rfl rfl fun s => congrArg (s.landS 4 1 d) (wordSar_eq _ _), ?clz,
    gives_of_eff rfl rfl fun s => congrArg (s.landS 4 1 d) (wordPopc_eq _)⟩
  case clz =>
    intro s n h hn hzero hone
    rw [exec_of_issues rfl rfl h, ← wordClz_eq hn hzero hone]
    rfl

theorem scalarImmediateResults : ScalarImmediateResults := by
  intro p d a imm n
  refine ⟨?_, ?_, ?_, ?_, ?shli, ?shri, ?sari, ?_, ?lcat⟩
  case shli => exact gives_of_eff rfl rfl fun s => congrArg (s.landS 4 1 d) (shiftLeft_eq_ofNat _ _)
  case shri => exact gives_of_eff rfl rfl fun s => congrArg (s.landS 4 1 d) (ushiftRight_eq_ofNat _ _)
  case sari => exact gives_of_eff rfl rfl fun s => congrArg (s.landS 4 1 d) (sshiftRight_eq_ofInt _ _)
  case lcat => exact gives_of_eff rfl rfl fun s => congrArg (s.landS 4 1 d) (shiftLeft_or_setWidth _ _)
  all_goals exact gives_of_eff rfl rfl fun s => rfl

/-- Settles O1, from the words that each group of instructions lands. -/
theorem scalarAluResults : Obligations.ScalarAluResults :=
  ⟨scalarArithmeticResults, scalarShiftAndCountResults, scalarImmediateResults⟩

end Sys2Proof.Machine
end

section
/-! PROOFS. What compares, predicate logic, bit fields and moves between the files leave (07 R141 to R146). -/

namespace Sys2Proof.Machine

open Sys2Proof.Claims

theorem condHolds_iff (c : Cond) (x y : Word) : condHolds c x y = true ↔ Holds c x y := by
  cases c with
  | eq => exact beq_iff_eq
  | ne => exact bne_iff_ne
  | lt => exact BitVec.slt_iff_toInt_lt
  | ge => simp [condHolds, Holds, BitVec.slt]
  | ltu => exact BitVec.ult_iff_toNat_lt
  | geu => simp [condHolds, Holds, BitVec.ult]

/-- The predicate that a compare lands is the only Boolean that says whether its condition holds. -/
theorem compares_of_eff {p d : PReg} {i : Instr} {c : Cond} {x y : State → Word} (henc : i.encSlot.isSome = true)
    (hpred : (slotOp i).pred = some p) (heff : ∀ s, (slotOp i).eff s = s.landP 4 1 d (condHolds c (x s) (y s))) :
    Compares p i d fun s => Holds c (x s) (y s) := by
  intro s h v hv
  have hval : v = condHolds c (x s) (y s) := Bool.eq_iff_iff.mpr (hv.trans (condHolds_iff c _ _).symm)
  rw [hval, ← heff s]
  exact exec_of_issues henc hpred h

/-- Settles O2, from the condition as a relation of the integers that the words stand for. -/
theorem compareResults : Obligations.CompareResults := by
  intro p d c a b imm
  refine ⟨?_, ?_, ?_, ?_, ?_, ?_, ?_⟩
  all_goals exact compares_of_eff rfl rfl fun s => rfl

theorem testBit_bitField (x : Word) (pos len j : Nat) :
    (bitField x pos len).testBit j = (decide (j < len) && x.getLsbD (pos + j)) := by
  rw [bitField, Nat.testBit_mod_two_pow, Nat.testBit_div_two_pow, BitVec.testBit_toNat, Nat.add_comm j pos]

theorem getLsbD_ofNat_bitField (x : Word) (pos len : Nat) {j : Nat} (hj : j < 64) :
    (BitVec.ofNat 64 (bitField x pos len)).getLsbD j = (decide (j < len) && x.getLsbD (pos + j)) := by
  rw [BitVec.getLsbD_ofNat, decide_eq_true hj, Bool.true_and, testBit_bitField]

/-- The signed value of a field is that of a word of the field's width. -/
theorem sgn_eq_toInt {bits w : Nat} (hbits : 0 < bits) (hw : w < 2 ^ bits) : sgn bits w = (BitVec.ofNat bits w).toInt := by
  have hhalf : 2 ^ bits = 2 * 2 ^ (bits - 1) := by rw [← Nat.pow_succ', Nat.succ_eq_add_one, Nat.sub_add_cancel hbits]
  rw [BitVec.toInt_eq_toNat_cond, BitVec.toNat_ofNat, Nat.mod_eq_of_lt hw, sgn]
  split <;> split <;> omega

/-- Above its highest bit a sign-extended field repeats that bit. -/
theorem getLsbD_ofInt_sgn_bitField (x : Word) (pos len1 : Nat) {j : Nat} (hj : j < 64) :
    (BitVec.ofInt 64 (sgn (len1 + 1) (bitField x pos (len1 + 1)))).getLsbD j = x.getLsbD (pos + min j len1) := by
  have hlt : bitField x pos (len1 + 1) < 2 ^ (len1 + 1) := Nat.mod_lt _ (Nat.two_pow_pos _)
  rw [sgn_eq_toInt (Nat.succ_pos len1) hlt]
  change (BitVec.signExtend 64 (BitVec.ofNat (len1 + 1) (bitField x pos (len1 + 1)))).getLsbD j = _
  rw [BitVec.getLsbD_signExtend, decide_eq_true hj, Bool.true_and, BitVec.msb_eq_getLsbD_last, BitVec.getLsbD_ofNat,
    BitVec.getLsbD_ofNat, testBit_bitField, testBit_bitField]
  by_cases hin : j < len1 + 1
  · rw [if_pos hin, Nat.min_eq_left (Nat.le_of_lt_succ hin)]
    simp [hin]
  · rw [if_neg hin, Nat.min_eq_right (by omega)]
    simp

theorem getLsbD_fieldMask (pos len1 : Nat) {j : Nat} (hj : j < 64) :
    (BitVec.ofNat 64 ((2 ^ (len1 + 1) - 1) * 2 ^ pos)).getLsbD j = decide (pos ≤ j ∧ j ≤ pos + len1) := by
  rw [BitVec.getLsbD_ofNat, decide_eq_true hj, Bool.true_and, Nat.testBit_mul_two_pow, Nat.testBit_two_pow_sub_one,
    ← Bool.decide_and, decide_eq_decide]
  omega

theorem getLsbD_putField (x y : Word) (pos len1 : Nat) {j : Nat} (hj : j < 64) :
    (putField x y pos (len1 + 1)).getLsbD j =
      if pos ≤ j ∧ j ≤ pos + len1 then y.getLsbD (j - pos) else x.getLsbD j := by
  rw [putField, BitVec.getLsbD_or, BitVec.getLsbD_and, BitVec.getLsbD_and, BitVec.getLsbD_not, BitVec.getLsbD_shiftLeft,
    getLsbD_fieldMask _ _ hj, decide_eq_true hj]
  by_cases hin : pos ≤ j ∧ j ≤ pos + len1
  · rw [decide_eq_true hin, if_pos hin, decide_eq_false (Nat.not_lt.mpr hin.left)]
    simp
  · rw [decide_eq_false hin, if_neg hin]
    simp

/-- A scalar result of the A slot known by its bits. -/
theorem exec_of_bits {p : PReg} {i : Instr} {s : State} {d : SReg} {v w : Word} (henc : i.encSlot.isSome = true)
    (hpred : (slotOp i).pred = some p) (h : Issues p i s) (heff : (slotOp i).eff s = s.landS 4 1 d w)
    (hbits : ∀ j < 64, v.getLsbD j = w.getLsbD j) : exec i s = .next (s.landS 4 1 d v) := by
  rw [BitVec.eq_of_getLsbD_eq hbits, ← heff]
  exact exec_of_issues henc hpred h

theorem pairHi_val {a : SReg} (heven : a.val % 2 = 0) : (pairHi a).val = a.val + 1 :=
  Nat.mod_eq_of_lt (show a.val + 1 < 64 by have := a.isLt; omega)

theorem ofNat_mod_two_pow (w n : Nat) : BitVec.ofNat w (n % 2 ^ w) = BitVec.ofNat w n :=
  BitVec.eq_of_toNat_eq (by simp)

/-- Settles O3: each field by its bits, the other results as their slots land them. -/
theorem predicateFieldAndMoveResults : Obligations.PredicateFieldAndMoveResults := by
  intro p d x y sd a b kd od e pos len1
  refine ⟨gives_of_eff rfl rfl fun s => rfl, gives_of_eff rfl rfl fun s => rfl, gives_of_eff rfl rfl fun s => rfl,
    ?bfx, ?bfxu, ?bfi, ?kput, ?kget, gives_of_eff rfl rfl fun s => rfl, gives_of_eff rfl rfl fun s => rfl⟩
  case bfx =>
    intro s v _ h hv
    exact exec_of_bits rfl rfl h rfl fun j hj => (hv j hj).trans (getLsbD_ofInt_sgn_bitField _ _ _ hj).symm
  case bfxu =>
    intro s v _ h hv
    refine exec_of_bits rfl rfl h rfl fun j hj => (hv j hj).trans ?_
    rw [getLsbD_ofNat_bitField _ _ _ hj, decide_eq_decide.mpr Nat.lt_succ_iff]
    rfl
  case bfi =>
    intro s v _ h hv
    exact exec_of_bits rfl rfl h rfl fun j hj => (hv j hj).trans (getLsbD_putField _ _ _ _ hj).symm
  case kput =>
    intro heven
    refine gives_of_eff rfl rfl fun s => ?_
    rw [← pairHi_val heven, Nat.mul_comm]
    rfl
  case kget =>
    intro _
    refine gives_of_eff rfl rfl fun s => ?_
    rw [ofNat_mod_two_pow]
    rfl

end Sys2Proof.Machine
end

section
/-! PROOFS. Branches, loops and the address of the next bundle (07 R147 to R151). -/

namespace Sys2Proof.Machine

open Sys2Proof.Claims

theorem branchResults : BranchResults := by
  intro p d a off
  refine ⟨?_, ?_, ?_, ?_⟩
  all_goals exact gives_of_eff rfl rfl fun s => rfl

theorem loopResults : LoopResults := by
  intro p a n off
  refine ⟨?_, ?_⟩
  all_goals exact gives_of_eff rfl rfl fun s => rfl

/-- Settles O4, from the branch or loop that each slot leaves in its bundle. -/
theorem branchAndLoopResults : Obligations.BranchAndLoopResults := ⟨branchResults, loopResults⟩

/-- A branch to no loop's end pops nothing. -/
theorem popTo_of_forall_ne {ls : List Loop} {t : Word} (h : ∀ e ∈ ls, e.stop ≠ t) : popTo ls t = ls := by
  induction ls with
  | nil => rfl
  | cons e rest ih =>
    obtain ⟨hne, hrest⟩ := List.forall_mem_cons.mp h
    rw [popTo, if_neg hne, ih hrest]

/-- A branch to a loop's end pops that loop and those above it. -/
theorem popTo_append_cons {below : List Loop} {e : Loop} {t : Word} (above : List Loop) (hstop : e.stop = t)
    (h : ∀ x ∈ below, x.stop ≠ t) : popTo (below ++ e :: above) t = below := by
  induction below with
  | nil => rw [List.nil_append, popTo, if_pos hstop]
  | cons x rest ih =>
    obtain ⟨hne, hrest⟩ := List.forall_mem_cons.mp h
    rw [List.cons_append, popTo, if_neg hne, ih hrest]

theorem nextAddress_append_singleton (pc seq : Word) (rest : List Loop) (e : Loop) :
    nextAddress pc seq none none (rest ++ [e]) =
      if e.start.toNat ≤ pc.toNat ∧ pc.toNat < e.stop.toNat ∧ seq = e.stop then
        if e.count > 1 then (e.start, rest ++ [{ e with count := e.count - 1 }]) else (seq, rest)
      else (seq, rest ++ [e]) := by
  simp [nextAddress]

/-- A bundle without a trap return gives its context the next address and the loop stack of NextAddress. -/
theorem closeBundle_ctx {s : State} (hret : s.issue.ret = false) :
    ((s.closeBundle.ctx s.issue.cx).pc, (s.closeBundle.ctx s.issue.cx).lv.loops) =
      nextAddress (s.ctx s.issue.cx).pc ((s.ctx s.issue.cx).pc + BitVec.ofNat 64 s.issue.len) s.issue.branch s.issue.loop
        (s.ctx s.issue.cx).lv.loops := by
  have hlv (c : Ctx) (l : LevelSt) (a : Word) : ({ c.setLv l with pc := a } : Ctx).lv = (c.setLv l).lv := rfl
  simp only [State.closeBundle, hret, Bool.false_eq_true, if_false, State.updCtx_ctx, if_true, hlv, Ctx.setLv_lv]
  rfl

/-- Settles O5, case by case of NextAddress. -/
theorem nextAddressFollowsLoops : Obligations.NextAddressFollowsLoops := by
  intro s hret c seq t
  have hclose : (t.pc, t.lv.loops) = nextAddress c.pc seq s.issue.branch s.issue.loop c.lv.loops := closeBundle_ctx hret
  have hnext {a : Word} {ls : List Loop} (h : nextAddress c.pc seq s.issue.branch s.issue.loop c.lv.loops = (a, ls)) :
      t.pc = a ∧ t.lv.loops = ls := Prod.mk.inj (hclose.trans h)
  refine ⟨fun a hbranch => ?branch, fun l hbranch hloop => ?loop, fun hbranch hloop => ?fall⟩
  case branch =>
    have htaken : t.pc = a ∧ t.lv.loops = popTo c.lv.loops a := hnext (by rw [hbranch]; rfl)
    obtain ⟨hpc, hloops⟩ := htaken
    refine ⟨hpc, fun hnone => hloops.trans (popTo_of_forall_ne hnone), fun below e above hsplit hstop hbelow => ?_⟩
    rw [hloops, hsplit, popTo_append_cons above hstop hbelow]
  case loop =>
    have hset : nextAddress c.pc seq s.issue.branch s.issue.loop c.lv.loops =
        if l.count = 0 then (l.stop, c.lv.loops) else (seq, c.lv.loops ++ [l]) := by rw [hbranch, hloop]; rfl
    exact ⟨fun hzero => hnext (hset.trans (if_pos hzero)), fun hcount => hnext (hset.trans (if_neg hcount))⟩
  case fall =>
    rw [hbranch, hloop] at hnext
    refine ⟨fun hempty => hnext (by rw [hempty]; rfl), fun rest e hsplit => ?_⟩
    have htop := nextAddress_append_singleton c.pc seq rest e
    rw [← hsplit] at htop
    refine ⟨fun hend => ?_, fun hinside => hnext (htop.trans (if_neg hinside))⟩
    rw [if_pos hend] at htop
    exact ⟨fun hcount => hnext (htop.trans (if_pos hcount)), fun hlast => hnext (htop.trans (if_neg (Nat.not_lt.mpr hlast)))⟩

end Sys2Proof.Machine
end

section
/-! PROOFS. Control registers (03 Table 3.5, 07 R156 to R158, 17 Table 17.2). -/

namespace Sys2Proof.Machine

open Sys2Proof.Claims

theorem csrWrite_eq_csrPut (s : State) (n : Nat) (v : Word) : s.csrWrite n v = csrPut n v s := by
  unfold State.csrWrite csrPut
  split
  · rfl
  · split
    · rfl
    · split <;> rfl

theorem csrBase_eq_csrNewest (s : State) (n : Nat) : s.csrBase n = csrNewest n s := rfl

theorem controlRegisterWrites : ControlRegisterWrites := by
  intro p n d a
  refine ⟨gives_of_eff rfl rfl fun s => rfl, ?_, ?_, ?_⟩
  all_goals exact gives_of_eff rfl rfl fun s => csrWrite_eq_csrPut _ _ _

/-- A search that answers the index of the first hit answers i when i hits and nothing before it does. -/
theorem find?_zipIdx_of_first {α : Type} {l : List α} {f : α → Bool} {i : Nat} {e : α} (hget : l[i]? = some e) (hhit : f e = true)
    (hfirst : ∀ j o, j < i → l[j]? = some o → f o = false) : (l.zipIdx.find? fun x => f x.1) = some (e, i) := by
  rw [List.find?_eq_some_iff_getElem]
  obtain ⟨hi, hei⟩ := List.getElem?_eq_some_iff.mp hget
  refine ⟨hhit, i, by simpa using hi, by simp [hei], fun j hj => ?_⟩
  have hmiss := hfirst j l[j] hj (List.getElem?_eq_getElem (Nat.lt_trans hj hi))
  simp [hmiss]

theorem peerId_of_first {s : State} {vat die i : Nat} {e : Peer} (hget : (s.vat vat).peers[i]? = some e) (hvalid : e.valid = true)
    (htarget : e.target = s.podDie die)
    (hfirst : ∀ (j : Nat) (o : Peer), j < i → (s.vat vat).peers[j]? = some o → ¬(o.valid = true ∧ o.target = s.podDie die)) :
    s.peerId vat die = i := by
  have hfind : ((s.vat vat).peers.zipIdx.find? fun x => x.1.valid && x.1.target == s.podDie die) = some (e, i) :=
    find?_zipIdx_of_first (f := fun o => o.valid && o.target == s.podDie die) hget (by simp [hvalid, htarget])
      fun j o hj ho => by simpa using hfirst j o hj ho
  rw [State.peerId, hfind]
  rfl

theorem parkOpen_of_settled {q : Quad} {vat now : Nat} (hheld : tget q.parkHeld vat = 0) (hfreed : (tget q.parkFreed vat).1 ≠ now) :
    q.parkOpen vat now = tget q.parkRes vat - q.parksUsed vat := by
  simp [Quad.parkOpen, Quad.parkFree, hheld, hfreed]

theorem controlRegisterReads : ControlRegisterReads := by
  intro s core ctx hctx hcur
  have hcore : coreOf s.cur = core := by unfold coreOf; omega
  have hquad : quadOf s.cur = core / 4 := by unfold quadOf; omega
  have hdie : dieOf s.cur = core / 128 := by unfold dieOf; omega
  have hmod : dieOf s.cur / 8 = core / 1024 := by unfold dieOf; omega
  have hslot : s.cur % 4 = ctx := by omega
  have hcoreid : s.csrRead 0x011 = BitVec.ofNat 64 (core % 128) := congrArg (fun k => BitVec.ofNat 64 (coreId k)) hcore
  refine ⟨rfl, rfl, rfl, ?cycle, rfl, ?modcfg, ?peer, ?park, rfl, ?ctxid, hcoreid, ?quadid, ?dieid, rfl, rfl, rfl, rfl, rfl,
    rfl, rfl, rfl, rfl, rfl, rfl, rfl⟩
  case cycle => exact congrArg (fun m => BitVec.ofNat 64 (s.now - (s.modu m).resetAt)) hmod
  case modcfg => exact congrArg (fun m => BitVec.ofNat 64 ((s.modu m).modcfg.toNat % 512)) hmod
  case peer =>
    intro i e hget hvalid htarget hfirst
    rw [← hdie] at htarget hfirst
    exact congrArg (BitVec.ofNat 64) (peerId_of_first hget hvalid htarget hfirst)
  case park =>
    intro q hq hheld hfreed
    subst hq
    rw [← hquad] at hheld hfreed ⊢
    exact congrArg (BitVec.ofNat 64) (parkOpen_of_settled hheld hfreed)
  case ctxid => exact congrArg (BitVec.ofNat 64) hslot
  case quadid =>
    intro q j hsplit hj
    have hquadid : s.csrRead 0x012 = BitVec.ofNat 64 (q % 32) :=
      congrArg (BitVec.ofNat 64) (by rw [hcore, coreId]; omega)
    refine ⟨hquadid, ?_⟩
    rw [hcoreid, hquadid, show core % 128 = 4 * (q % 32) + j by omega, BitVec.ofNat_add, BitVec.ofNat_mul]
    rfl
  case dieid => exact congrArg (fun k => BitVec.ofNat 64 (k % 8)) hdie

/-- Settles O6, from the number of each register and the choice among the kinds of write. -/
theorem controlRegisterResults : Obligations.ControlRegisterResults := ⟨controlRegisterWrites, controlRegisterReads⟩

end Sys2Proof.Machine
end

section
/-! PROOFS. One slot alone in its bundle: its wait, its own trap, and the trap of a poisoned source (02 R41, R44, 20 Table 20.1). -/

namespace Sys2Proof.Machine

/-- A slot alone in its bundle that neither traps nor passes its wait leaves its note and nothing else (02 R44). -/
theorem exec_of_waits {i : Instr} {s : State} (henc : i.encSlot.isSome = true) (hopen : s.issue.active = false)
    (htrap : s.bundleTrap [slotOp i] = none) (hearly : (slotOp i).late = false) (hwaits : (slotOp i).waits s = true) :
    exec i s = .next ((slotOp i).note s) := by
  have hbundle : s.bundleWaits [slotOp i] = true := by simp [State.bundleWaits, hwaits]
  rw [exec_eq_runOp i s henc]
  simp [runOp, hopen, htrap, hbundle, State.noteWaits, hearly, hwaits]

theorem SlotOp.reads_of_no_srcs {o : SlotOp} {s : State} {p : PReg} (hpred : o.pred = some p) (hsrcs : ∀ c, o.srcs c = []) :
    o.reads s = [.p p] := by
  simp [SlotOp.reads, hpred, hsrcs]

/-- The trap of a bundle of one legal slot whose predicate is true and whose sources hold no poison is the slot's own. -/
theorem bundleTrap_of_unmarked {o : SlotOp} {s : State} (hrange : o.rangeBad s = false) (hpriv : o.priv s.cc.level = none)
    (hactive : o.active s = true) (hclean : ∀ r ∈ o.reads s, s.cc.marks.contains r = false) :
    s.bundleTrap [o] = (o.trap s).map fun t => (o, t) := by
  have hunread : (o.reads s).any s.cc.marks.contains = false := List.any_eq_false.mpr fun r hr => Bool.not_eq_true _ ▸ hclean r hr
  rw [bundleTrap_one, hrange, hpriv]
  simp [SlotOp.execTrap, hunread, hactive]

/-- A legal slot that reads a poisoned register traps with DATA_POISON before any trap of its own (20 Table 20.1). -/
theorem bundleTrap_of_marked {o : SlotOp} {s : State} {r : RegId} (hrange : o.rangeBad s = false) (hpriv : o.priv s.cc.level = none)
    (hread : r ∈ o.reads s) (hmark : s.cc.marks.contains r = true) : s.bundleTrap [o] = some (o, ⟨cPOISON, o.slot, 0⟩) := by
  have hpoison : (o.reads s).any s.cc.marks.contains = true := List.any_eq_true.mpr ⟨r, hread, hmark⟩
  rw [bundleTrap_one, hrange, hpriv]
  simp [SlotOp.execTrap, hpoison]

end Sys2Proof.Machine
end

section
/-! PROOFS. Waits, barriers and the end of a wheel (07 R154, R160, R162). -/

namespace Sys2Proof.Machine

open Sys2Proof.Claims

theorem waitedBarrierAndEndResults : WaitedBarrierAndEndResults := by
  intro p t0 t1 t2 t3 sc
  refine ⟨?_, ?_, ?_⟩
  all_goals exact gives_of_eff rfl rfl fun s => rfl

/-- A counter above a threshold that is no 255 leaves the thresholds unmet (07 R154). -/
theorem waitcMet_four_eq_false {c : Ctx} {a0 a1 a2 a3 : Nat} (h : (a0 ≠ 255 ∧ a0 < c.cnt 0) ∨ (a1 ≠ 255 ∧ a1 < c.cnt 1) ∨
    (a2 ≠ 255 ∧ a2 < c.cnt 2) ∨ (a3 ≠ 255 ∧ a3 < c.cnt 3)) : waitcMet c [a0, a1, a2, a3] = false := by
  simp only [waitcMet, List.zipIdx_cons, List.zipIdx_nil, List.all_cons, List.all_nil, Nat.zero_add, Bool.and_true,
    Bool.and_eq_false_iff, Bool.or_eq_false_iff, beq_eq_false_iff_ne, decide_eq_false_iff_not, Nat.not_le]
  exact h

theorem waitcWaits : WaitcWaits := by
  intro p t0 t1 t2 t3 s hopen hp hmarks habove
  have hunmet : waitcMet s.cc [t0.toNat, t1.toNat, t2.toNat, t3.toNat] = false := waitcMet_four_eq_false habove
  have hactive : (waitcOp p t0 t1 t2 t3).active s = true := hp
  have htrap : (waitcOp p t0 t1 t2 t3).trap s = none := by simp [waitcOp, waitcTrap, hunmet]
  have hwaits : (waitcOp p t0 t1 t2 t3).waits s = true := by
    rw [SlotOp.waits, hactive]
    simp [waitcOp, hunmet]
  have hbundle := bundleTrap_of_unmarked (o := waitcOp p t0 t1 t2 t3) (s := s) rfl rfl hactive fun r _ => by rw [hmarks]; rfl
  rw [htrap] at hbundle
  exact exec_of_waits rfl hopen hbundle rfl hwaits

/-- Settles O7: a waitc that is met, a released barrier and a wheel's end by their effects, a waitc that is not met by its wait. -/
theorem waitBarrierAndEndResults : Obligations.WaitBarrierAndEndResults := ⟨waitedBarrierAndEndResults, waitcWaits⟩

end Sys2Proof.Machine
end

section
/-! PROOFS. The entry into a trap handler, and BREAK (07 R161, 17 R356). -/

namespace Sys2Proof.Machine

open Sys2Proof.Claims

@[simp] theorem Ctx.unmarkCsrs_s (c : Ctx) (ns : List Nat) : (c.unmarkCsrs ns).s = c.s := by
  unfold Ctx.unmarkCsrs
  induction ns generalizing c with
  | nil => rfl
  | cons n ns ih => exact ih (c.unmark (.csr n))

/-- The context that enters its handler by TakeTrap (17 R356): a is the address EPC takes, b the bundle that raised the trap. -/
def Ctx.enterTrap (c : Ctx) (t : Trap) (a b : Word) : Ctx :=
  { c.unmarkCsrs [0x100, 0x101, 0x102, 0x105, 0x106] with
    phase := if c.phase = .ending then .running else c.phase, endAfter := c.phase == .ending,
    cause := BitVec.ofNat 64 (t.code + t.slot * 256), epc := a, tval := BitVec.ofNat 64 t.tval, tbundle := b,
    level := 1, pc := c.tvec, l1 := { c.l1 with loops := [] } }

section
variable (c : Ctx) (t : Trap) (a b : Word)

@[simp] theorem Ctx.enterTrap_cause : (c.enterTrap t a b).cause = BitVec.ofNat 64 (t.code + t.slot * 256) := rfl
@[simp] theorem Ctx.enterTrap_epc : (c.enterTrap t a b).epc = a := rfl
@[simp] theorem Ctx.enterTrap_tbundle : (c.enterTrap t a b).tbundle = b := rfl
@[simp] theorem Ctx.enterTrap_tval : (c.enterTrap t a b).tval = BitVec.ofNat 64 t.tval := rfl
@[simp] theorem Ctx.enterTrap_level : (c.enterTrap t a b).level = 1 := rfl
@[simp] theorem Ctx.enterTrap_pc : (c.enterTrap t a b).pc = c.tvec := rfl
@[simp] theorem Ctx.enterTrap_s : (c.enterTrap t a b).s = c.s := Ctx.unmarkCsrs_s c _
@[simp] theorem Ctx.enterTrap_sr (n : Nat) : (c.enterTrap t a b).sr n = c.sr n := by rw [Ctx.sr, Ctx.enterTrap_s, Ctx.sr]

end

theorem takeTrapAt_of_handler {s : State} {cx : Nat} (t : Trap) (a b : Word) (hlevel : ((s.deliverDue cx).ctx cx).level ≠ 1)
    (hvec : ((s.deliverDue cx).ctx cx).tvec ≠ 0) :
    s.takeTrapAt cx t a b = (s.deliverDue cx).setCtx cx (((s.deliverDue cx).ctx cx).enterTrap t a b) :=
  if_neg (not_or.mpr ⟨hlevel, hvec⟩)

@[simp] theorem State.leaveWaits_cur (s : State) (j : Nat) : (s.leaveWaits j).cur = s.cur := rfl
@[simp] theorem State.leaveWaits_mem (s : State) (j : Nat) : (s.leaveWaits j).mem = s.mem := rfl
@[simp] theorem State.leaveWaits_ctx (s : State) (j k : Nat) : (s.leaveWaits j).ctx k = s.ctx k := rfl
@[simp] theorem State.leaveWaits_core (s : State) (j k : Nat) : (s.leaveWaits j).core k = s.core k := rfl
@[simp] theorem State.leaveWaits_cc (s : State) (j : Nat) : (s.leaveWaits j).cc = s.cc := rfl
@[simp] theorem State.deliverDue_cur (s : State) (k : Nat) : (s.deliverDue k).cur = s.cur := rfl
@[simp] theorem State.deliverDue_mem (s : State) (k : Nat) : (s.deliverDue k).mem = s.mem := rfl

theorem State.setCtx_cc_of_cur {s : State} {k : Nat} (c : Ctx) (h : s.cur = k) : (s.setCtx k c).cc = c := by
  rw [State.cc, State.setCtx_cur, State.setCtx_ctx, if_pos h]

/-- A delivery reads and writes no queue of waiters. -/
theorem State.deliverDue_leaveWaits (s : State) (j k : Nat) : (s.leaveWaits j).deliverDue k = (s.deliverDue k).leaveWaits j := by
  unfold State.deliverDue
  rw [State.leaveWaits_ctx, State.leaveWaits_core]
  rfl

/-- An issue trap at level 0 whose wheel has a handler: the context leaves its queues of waiters and stands at the handler. -/
theorem takeTrap_leaveWaits_of_handler {s : State} (t : Trap) (hlevel : (s.deliverDue s.cur).cc.level = 0)
    (hvec : (s.deliverDue s.cur).cc.tvec ≠ 0) :
    (s.leaveWaits s.cur).takeTrap t =
      ((s.deliverDue s.cur).leaveWaits s.cur).setCtx s.cur ((s.deliverDue s.cur).cc.enterTrap t s.cc.pc s.cc.pc) := by
  have hlevel1 : (s.deliverDue s.cur).cc.level ≠ 1 := by
    rw [hlevel]
    exact Nat.zero_ne_one
  have htrap := takeTrapAt_of_handler (s := s.leaveWaits s.cur) (cx := s.cur) t s.cc.pc s.cc.pc
  rw [State.deliverDue_leaveWaits, State.leaveWaits_ctx] at htrap
  exact htrap hlevel1 hvec

theorem exec_brk_traps {p : PReg} {imm : BitVec 16} {s : State} (hopen : s.issue.active = false) (hp : s.cc.pr p.val = true)
    (hmark : s.cc.marks.contains (.p p) = false) :
    exec (.brk p imm) s = .next ((s.leaveWaits s.cur).takeTrap ⟨0x0B, 3, imm.toNat⟩) := by
  have hclean : ∀ r ∈ (brkOp p imm).reads s, s.cc.marks.contains r = false := by
    rw [SlotOp.reads_of_no_srcs rfl fun _ => rfl]
    exact List.forall_mem_singleton.mpr hmark
  exact exec_of_bundleTrap rfl hopen (bundleTrap_of_unmarked rfl rfl hp hclean) rfl

/-- Settles O25: BREAK is the slot's own trap, and its handler is entered as TakeTrap says. -/
theorem breakTraps : Obligations.BreakTraps := by
  intro p imm s hopen hp hmark
  have hexec := exec_brk_traps (imm := imm) hopen hp hmark
  refine ⟨hexec, fun hlevel hvec => ⟨_, hexec, ?_⟩⟩
  have hcur : ((s.deliverDue s.cur).leaveWaits s.cur).cur = s.cur := by
    rw [State.leaveWaits_cur, State.deliverDue_cur]
  rw [takeTrap_leaveWaits_of_handler _ hlevel hvec, State.setCtx_cc_of_cur _ hcur]
  simp

end Sys2Proof.Machine
end

section
/-! PROOFS. A csrs that reads a poisoned STATUS (20 Table 20.1, 07 R157). -/

namespace Sys2Proof.Machine

open Sys2Proof.Claims

/-- A wheel with a handler at 0x100, whose STATUS took a result that an error had struck in the landing buffer, and whose s1 holds a
bit that STATUS does not have (03 R78). -/
def statusPoisoned : State :=
  { ctxs := [(0, { wheel := some { vat := 1, idx := 0, start := 0 }, phase := .running, tvec := 0x100, s := [(1, 0x20)],
                   marks := [.csr 2] })] }

/-- csrs reads STATUS, so that its poison is the bundle's trap. -/
theorem exec_csrs_statusPoisoned :
    exec (.csrs 0 2 1 3) statusPoisoned = .next ((statusPoisoned.leaveWaits statusPoisoned.cur).takeTrap ⟨cPOISON, 3, 0⟩) := by
  have hread : RegId.csr 2 ∈ (csrsOp 0 2 1 3).reads statusPoisoned := by decide
  exact exec_of_bundleTrap rfl rfl (bundleTrap_of_marked rfl rfl hread rfl) rfl

/-- The value that this csrs would write is none that STATUS accepts. -/
theorem csrs_statusPoisoned_refused : (csrNewest 2 statusPoisoned ||| sv statusPoisoned 1) >>> 5 ≠ 0 := by decide

/-- Refutes O27: its clause on the values written to FMT and STATUS promises OPERAND_RANGE of csrs and csrc wherever their scalar
sources hold no poison, but they read the control register too, and a poisoned STATUS takes DATA_POISON first. -/
theorem not_executionTraps : ¬ Obligations.ExecutionTraps := by
  intro h
  obtain ⟨-, -, -, hvalues⟩ := h
  obtain ⟨-, -, -, hcsrs, -⟩ := hvalues 0 3 1 2 0
  have hrange := hcsrs statusPoisoned 0x04 0 rfl rfl rfl (fun r _ => rfl)
    ⟨.inr (.inl ⟨rfl, csrs_statusPoisoned_refused⟩), rfl, rfl⟩
  have hstates := hrange.symm.trans exec_csrs_statusPoisoned
  injection hstates with hstates
  have hcause : ((statusPoisoned.leaveWaits statusPoisoned.cur).takeTrap ⟨0x04, 3, 0⟩).cc.cause =
      ((statusPoisoned.leaveWaits statusPoisoned.cur).takeTrap ⟨cPOISON, 3, 0⟩).cc.cause := by rw [hstates]
  exact absurd hcause (by decide)

end Sys2Proof.Machine
end

section
/-! PROOFS. One slot without a scalar predicate run through its `slotOp` (02 R37), and the element-by-element operations of the
vector slots (08 R164, R167). -/

namespace Sys2Proof.Machine

open Sys2Proof.Claims

/-- Where an instruction without a predicate takes effect, it has the effect of its slot. -/
theorem exec_of_issuesV {i : Instr} {s : State} (henc : i.encSlot.isSome = true) (hpred : (slotOp i).pred = none)
    (h : IssuesV i s) : exec i s = .next ((slotOp i).eff s) := by
  have hactive : (slotOp i).active s = true := by rw [SlotOp.active, hpred]
  rw [exec_eq_runOp i s henc, runOp_cleared _ _ h, if_pos hactive]

theorem givesV_of_eff {i : Instr} {t : State → State} (henc : i.encSlot.isSome = true) (hpred : (slotOp i).pred = none)
    (heff : ∀ s, (slotOp i).eff s = t s) : GivesV i t :=
  fun s h => (exec_of_issuesV henc hpred h).trans (congrArg Host.Outcome.next (heff s))

/-- An operation of two sources lands the elements that its function gives, at the latency of its class. -/
theorem givesV_each2 {i : Instr} {h : VHdr} {L L' : Nat} {ty : VType} {d a b : Opnd} {f g : State → Nat → Nat → Nat × Flags}
    (henc : i.encSlot.isSome = true) (hpred : (slotOp i).pred = none) (heff : ∀ s, (slotOp i).eff s = s.vec2 h L' ty d a b (g s))
    (hlat : L' = L) (hel : ∀ s x y, g s x y = f s x y) : GivesV i (each2 h L ty d a b f) := by
  subst hlat
  obtain rfl : g = f := funext fun s => funext fun x => funext fun y => hel s x y
  exact givesV_of_eff henc hpred heff

/-- An operation of one source lands the elements that its function gives. -/
theorem givesV_each1 {i : Instr} {h : VHdr} {L : Nat} {ty : VType} {d a : Opnd} {f g : State → Nat → Nat × Flags}
    (henc : i.encSlot.isSome = true) (hpred : (slotOp i).pred = none) (heff : ∀ s, (slotOp i).eff s = s.vec1 h L ty d a (g s))
    (hel : ∀ s x, g s x = f s x) : GivesV i (each1 h L ty d a f) := by
  obtain rfl : g = f := funext fun s => funext fun x => hel s x
  exact givesV_of_eff henc hpred heff

end Sys2Proof.Machine
end

section
/-! PROOFS. Vector arithmetic (08 R169 to R171, Tables 8.2, 8.3): saturation as a clamp, minimum, maximum and magnitude by the class
of the type. -/

namespace Sys2Proof.Machine

open Sys2Proof.Claims

section
variable {ty : VType}

/-- The latency of a type by its class (02 Table 2.6). -/
theorem typeLat_of_fp (hfp : ty.isFp = true) (fp int : Nat) : ty.lat fp int = fp := if_pos hfp

theorem typeLat_of_int (hint : ty.isFp = false) (fp int : Nat) : ty.lat fp int = int := by simp [VType.lat, hint]

/-- A choice by class at an integer type. -/
theorem ite_isFp_of_int {α : Type} (hint : ty.isFp = false) (u v : α) : (if ty.isFp then u else v) = v := by simp [hint]

theorem intLo_eq_least (ty : VType) : intLo ty.bits (ty != .ui8) = least ty := by cases ty <;> rfl

theorem intHi_eq_most (ty : VType) : intHi ty.bits (ty != .ui8) = most ty := by cases ty <;> rfl

theorem least_le_most (ty : VType) : least ty ≤ most ty := by cases ty <;> decide

/-- The clamp of 08 Table 8.3 brings a value to the nearest one of the type, and raises SATI where that is another. -/
theorem intClamp_eq_saturated (ty : VType) (i : Int) : intClamp ty i = saturated ty i := by
  have hrange := least_le_most ty
  simp only [intClamp, saturated, intLo_eq_least, intHi_eq_most]
  by_cases hlow : i < least ty
  · have hclamp : max (least ty) (min (most ty) i) = least ty := by omega
    rw [if_pos hlow, hclamp, if_neg (Int.ne_of_gt hlow)]
  · by_cases hhigh : i > most ty
    · have hclamp : max (least ty) (min (most ty) i) = most ty := by omega
      rw [if_neg hlow, if_pos hhigh, hclamp, if_neg (Int.ne_of_lt hhigh)]
    · have hclamp : max (least ty) (min (most ty) i) = i := by omega
      rw [if_neg hlow, if_neg hhigh, hclamp, if_pos rfl]

/-- The smaller or the larger of two integers. -/
theorem minMax_of_int (hint : ty.isFp = false) (isMax : Bool) (x y : Nat) :
    minMax isMax ty x y = (if ty.int y < ty.int x then (if isMax then x else y) else if isMax then y else x, 0) := by
  rw [minMax, ite_isFp_of_int hint]
  split <;> rfl

theorem minMax_false_of_int (hint : ty.isFp = false) (x y : Nat) :
    minMax false ty x y = (if ty.int x ≤ ty.int y then x else y, 0) := by
  simp only [minMax_of_int hint, ← Int.not_lt, ite_not, Bool.false_eq_true, if_false]

/-- The smaller or the larger of two floating-point elements; with a NaN, the canonical one. -/
theorem minMax_of_fp (hfp : ty.isFp = true) (isMax : Bool) (x y : Nat) :
    minMax isMax ty x y =
      if ty.fp.dec x = .nan ∨ ty.fp.dec y = .nan then (ty.fp.nan.getD 0, 0)
      else if (ty.fp.dec y).totalLt (ty.fp.dec x) then (if isMax then x else y, 0) else (if isMax then y else x, 0) := by
  rw [minMax, if_pos hfp]
  simp only [Bool.or_eq_true, beq_iff_eq]

theorem elAbs_of_fp (hfp : ty.isFp = true) (x : Nat) :
    elAbs ty x = (if ty.fp.dec x = .nan then ty.fp.nan.getD 0 else x % ty.fp.signBit, 0) := by
  rw [elAbs, if_pos hfp]
  simp only [beq_iff_eq]

theorem elAbs_of_int (hint : ty.isFp = false) (x : Nat) : elAbs ty x = ((sgn ty.bits x).natAbs % 2 ^ ty.bits, 0) := by
  rw [elAbs, ite_isFp_of_int hint]

end

/-- Settles O14, class by class: each instruction's element function is the one that the rules write out. -/
theorem vectorArithmeticResults : Obligations.VectorArithmeticResults := by
  intro h ty d a b
  refine ⟨fun hfp => ⟨?fadd, ?fsub, ?fmul, ?ffma⟩, fun hint => ⟨?add, ?sub, ?mul, ?adds, ?subs, ?min, ?max, ?abs⟩,
    fun hfp => ⟨?fmin, ?fmax, ?fabs⟩⟩
  case fadd | fsub => exact givesV_each2 rfl rfl (fun _ => rfl) (typeLat_of_fp hfp 4 2) fun _ _ _ => if_pos hfp
  case fmul => exact givesV_each2 rfl rfl (fun _ => rfl) rfl fun _ _ _ => if_pos hfp
  case ffma => exact givesV_of_eff rfl rfl fun _ => rfl
  case add | sub => exact givesV_each2 rfl rfl (fun _ => rfl) (typeLat_of_int hint 4 2) fun _ _ _ => ite_isFp_of_int hint _ _
  case mul => exact givesV_each2 rfl rfl (fun _ => rfl) rfl fun _ _ _ => ite_isFp_of_int hint _ _
  case adds | subs => exact givesV_each2 rfl rfl (fun _ => rfl) rfl fun _ _ _ => intClamp_eq_saturated ty _
  case min => exact givesV_each2 rfl rfl (fun _ => rfl) (typeLat_of_int hint 4 2) fun _ x y => minMax_false_of_int hint x y
  case max => exact givesV_each2 rfl rfl (fun _ => rfl) (typeLat_of_int hint 4 2) fun _ x y => minMax_of_int hint true x y
  case abs => exact givesV_each1 rfl rfl (fun _ => rfl) fun _ x => elAbs_of_int hint x
  case fmin => exact givesV_each2 rfl rfl (fun _ => rfl) (typeLat_of_fp hfp 4 2) fun _ x y => minMax_of_fp hfp false x y
  case fmax => exact givesV_each2 rfl rfl (fun _ => rfl) (typeLat_of_fp hfp 4 2) fun _ x y => minMax_of_fp hfp true x y
  case fabs => exact givesV_each1 rfl rfl (fun _ => rfl) fun _ x => elAbs_of_fp hfp x

end Sys2Proof.Machine
end

section
/-! PROOFS. Vector compares, mask logic, shifts, logic, moves and lane exchanges (08 R172 to R177). -/

namespace Sys2Proof.Machine

open Sys2Proof.Claims

theorem vectorCompareAndMaskResults : VectorCompareAndMaskResults := by
  intro h ty v1 d x y a b
  refine ⟨?_, ?_, ?_, ?_, ?_, ?_, ?_⟩
  all_goals exact givesV_of_eff rfl rfl fun _ => rfl

/-- An arithmetic shift by a count that is not below the element's width shifts by the width less one. -/
theorem elSar_eq {e : Nat} (he : 0 < e) (x c : Nat) :
    elSar e x c = intBits e (sgn e x / ((2 ^ (if c < e then c else e - 1) : Nat) : Int)) := by
  have hcount : min c (e - 1) = if c < e then c else e - 1 := by split <;> omega
  rw [elSar, hcount]

theorem typeBits_pos (ty : VType) : 0 < ty.bits := by cases ty <;> decide

theorem vectorShiftLogicExchangeResults : VectorShiftLogicExchangeResults := by
  intro h ty d a b m
  refine ⟨?_, ?_, ?vsar, ?_, ?_, ?_, ?_, ?_, ?_, ?_, ?_⟩
  case vsar => exact givesV_each2 rfl rfl (fun _ => rfl) rfl fun _ x c => congrArg (·, 0) (elSar_eq (typeBits_pos ty) x c)
  all_goals exact givesV_of_eff rfl rfl fun _ => rfl

/-- Settles O15: the slots' effects are those of the rules, the arithmetic shift by its bounded count. -/
theorem vectorCompareLogicAndExchangeResults : Obligations.VectorCompareLogicAndExchangeResults :=
  ⟨vectorCompareAndMaskResults, vectorShiftLogicExchangeResults⟩

end Sys2Proof.Machine
end

section
/-! PROOFS. Vector reductions, conversions, MX blocks and keyed words (08 R178 to R187). -/

namespace Sys2Proof.Machine

open Sys2Proof.Claims

/-- A sum of the narrower floating-point types is made in FP32 (08 R179). -/
theorem redSum_of_narrow {ty : VType} (hnarrow : ty = .bf16 ∨ ty = .f16) (h : VHdr) (d a : Opnd) (s : State) :
    redSum h ty d a s = s.vecReduce h ty d a (fun x => (fmtF32.conv false .rne (ty.fp.dec x)).1) sumNode
      fun x => ty.fp.conv false .rne (fmtF32.dec x) := by
  rcases hnarrow with rfl | rfl <;> rfl

/-- A sum of integers is made modulo 2^e (08 R179). -/
theorem redSum_of_int {ty : VType} (hint : ty.isFp = false) (h : VHdr) (d a : Opnd) (s : State) :
    redSum h ty d a s = s.vecReduce h ty d a id (intAdd ty) fun x => (x, 0) := by
  cases ty with
  | f32 | bf16 | f16 => exact Bool.noConfusion hint
  | i32 | i16 | i8 | ui8 => rfl

/-- The model's reduction is the tree over the enabled elements, with 0 where none is enabled. -/
theorem vecReduce_eq_reduction (s : State) (h : VHdr) (ty : VType) (d a : Opnd) (leaf : Nat → Nat)
    (node : Nat → Nat → Nat × Flags) (root : Nat → Nat × Flags) :
    s.vecReduce h ty d a leaf node root = reduction h ty d a leaf node root s := by
  rcases hclaim : treeReduce node 7 (leaves (enabled h (count h ty) s) ((s.opnd ty (count h ty) a).map leaf)) with ⟨r, f⟩
  have hmodel : treeReduce node 7 (leaves (s.en h (h.n ty.bits)) ((s.opnd ty (h.n ty.bits) a).map leaf)) = (r, f) := hclaim
  simp only [State.vecReduce, reduction, hclaim, hmodel]
  cases r <;> rfl

theorem givesV_reduction {i : Instr} {h : VHdr} {ty : VType} {d a : Opnd} {leaf : Nat → Nat} {node : Nat → Nat → Nat × Flags}
    {root : Nat → Nat × Flags} (henc : i.encSlot.isSome = true) (hpred : (slotOp i).pred = none)
    (heff : ∀ s, (slotOp i).eff s = s.vecReduce h ty d a leaf node root) : GivesV i (reduction h ty d a leaf node root) :=
  givesV_of_eff henc hpred fun s => (heff s).trans (vecReduce_eq_reduction s h ty d a leaf node root)

theorem vectorReductionResults : VectorReductionResults := by
  intro h ty d a b
  refine ⟨?max, ?min, ?sum, fun hnarrow => ?narrow, fun hint => ?int, ?mask⟩
  case max | min | sum => exact givesV_reduction rfl rfl fun _ => rfl
  case narrow => exact givesV_reduction rfl rfl fun s => redSum_of_narrow hnarrow h d a s
  case int => exact givesV_reduction rfl rfl fun s => redSum_of_int hint h d a s
  case mask => exact givesV_of_eff rfl rfl fun _ => rfl

theorem vectorConversionResults : VectorConversionResults := by
  intro h d a b c od oa
  refine ⟨?_, fun _ => ?_, fun _ => ?_, ?_⟩
  all_goals exact givesV_of_eff rfl rfl fun _ => rfl

/-- Settles O16: the reductions by the type of their sum, the conversions as their slots land them. -/
theorem vectorReductionAndConversionResults : Obligations.VectorReductionAndConversionResults :=
  ⟨vectorReductionResults, vectorConversionResults⟩

end Sys2Proof.Machine
end

section
/-! PROOFS. Parking and unparking a pane (08 R189 to R191). -/

namespace Sys2Proof.Machine

open Sys2Proof.Claims

/-- A search that counts up finds the first number that its test accepts. -/
theorem firstFrom_eq_first {p : Nat → Bool} {fuel start k : Nat} (hstart : start ≤ k) (hk : k < start + fuel) (hp : p k = true)
    (hfirst : ∀ j, start ≤ j → j < k → p j = false) : firstFrom fuel start p = some k := by
  induction fuel generalizing start with
  | zero => omega
  | succ fuel ih =>
    rcases Nat.eq_or_lt_of_le hstart with rfl | hlt
    · exact if_pos hp
    · rw [firstFrom, hfirst start (Nat.le_refl start) hlt]
      exact ih hlt (by omega) fun j hj => hfirst j (by omega)

/-- What a park puts into its slot (08 R189). -/
def State.parkedPane (s : State) (ph : Nat) : Park :=
  { vat := s.cc.vatKey, ctx := s.cur, wheel := s.cc.wid,
    img := (List.range 64).map fun r => (s.core (coreOf s.cur)).row ph r }

section
variable (s : State) (ph tag : Nat)

@[simp] theorem State.park_cores : (s.park ph tag).cores = s.cores := rfl
@[simp] theorem State.park_mem : (s.park ph tag).mem = s.mem := rfl

variable {s} {k : Nat} (hk : k < 32) (hfree : (tget (s.quad (quadOf s.cur)).parks k).isNone = true)
  (hused : ∀ j < k, (tget (s.quad (quadOf s.cur)).parks j).isSome = true)
include hk hfree hused

/-- The lowest free slot is the one that a park takes (log entry 99). -/
theorem firstFrom_parks_of_lowest : firstFrom 32 0 (fun i => (tget (s.quad (quadOf s.cur)).parks i).isNone) = some k :=
  firstFrom_eq_first (Nat.zero_le k) (by omega) hfree fun j _ hj =>
    Option.isNone_eq_false_iff.mpr (hused j hj)

theorem State.park_cc_of_lowest : (s.park ph tag).cc = { s.cc with tags := tset s.cc.tags tag k } := by
  simp [State.park, firstFrom_parks_of_lowest hk hfree hused]

theorem State.park_parks_of_lowest (j : Nat) : tget ((s.park ph tag).quad (quadOf s.cur)).parks j =
    if j = k then some (s.parkedPane ph) else tget (s.quad (quadOf s.cur)).parks j := by
  simp [State.park, firstFrom_parks_of_lowest hk hfree hused, tget_tset, State.parkedPane]

end

/-- The state in which an unpark has freed its slot and its tag, before the rows arrive (08 R190). -/
def State.unparkFreed (s : State) (tag : Nat) : State :=
  (s.setQuad (quadOf s.cur) ({ s.quad (quadOf s.cur) with
    parks := tset (s.quad (quadOf s.cur)).parks (tget s.cc.tags tag) none }.noteUnpark s.cc.vatKey s.now)).updCur
      fun c => { c with tags := tdel c.tags tag }

/-- The rows of the parked pane arrive with latency 2 (08 R190). -/
theorem State.unpark_eq_land {s : State} {tag : Nat} {x : Park} (slot ph : Nat)
    (hx : tget (s.quad (quadOf s.cur)).parks (tget s.cc.tags tag) = some x) :
    s.unpark slot ph tag = (s.unparkFreed tag).land slot 2 { dest := .paneImg ph, img := x.img } := by
  rw [State.unpark, hx]
  rfl

@[simp] theorem State.unparkFreed_cores (s : State) (tag : Nat) : (s.unparkFreed tag).cores = s.cores := rfl
@[simp] theorem State.unparkFreed_mem (s : State) (tag : Nat) : (s.unparkFreed tag).mem = s.mem := rfl
@[simp] theorem State.unparkFreed_cc (s : State) (tag : Nat) :
    (s.unparkFreed tag).cc = { s.cc with tags := tdel s.cc.tags tag } := by
  simp [State.unparkFreed]
theorem State.unparkFreed_parks (s : State) (tag j : Nat) : tget ((s.unparkFreed tag).quad (quadOf s.cur)).parks j =
    if j = tget s.cc.tags tag then none else tget (s.quad (quadOf s.cur)).parks j := by
  simp [State.unparkFreed, Quad.noteUnpark, tget_tset]

/-- Settles O18: a park by the slot that its search finds, an unpark as the freeing of its slot and the landing of its rows. -/
theorem paneParkResults : Obligations.PaneParkResults := by
  intro v1 m tag s
  refine ⟨?park, ?unpark⟩
  case park =>
    intro h k hk hfree hused
    exact ⟨_, exec_of_issuesV rfl rfl h, State.park_cc_of_lowest _ _ hk hfree hused,
      State.park_parks_of_lowest _ _ hk hfree hused, State.park_cores s _ _, State.park_mem s _ _⟩
  case unpark =>
    rintro h k x rfl hx
    exact ⟨_, s.unparkFreed tag.val, exec_of_issuesV rfl rfl h, State.unpark_eq_land _ _ hx, State.unparkFreed_cc s _,
      State.unparkFreed_parks s _, State.unparkFreed_cores s _, State.unparkFreed_mem s _⟩

end Sys2Proof.Machine
end

section
/-! PROOFS. Rounding of a value that a format holds (04 R93, R94): the code comes back, without a flag. That n / d * 2^e is
m * 2^e' is said in natural numbers: n * 2^p = m * d * 2^q for some p and q of difference e - e'. -/

namespace Sys2Proof.Machine

open Sys2Proof.Claims

/- Powers of two -/

/-- An equation of multiples of powers of two depends on the difference of the exponents alone. -/
theorem mul_two_pow_eq_iff {x y a b a' b' : Nat} (h : a + b' = a' + b) : x * 2 ^ a = y * 2 ^ b ↔ x * 2 ^ a' = y * 2 ^ b' := by
  rw [← Nat.mul_left_inj (Nat.ne_of_gt (Nat.two_pow_pos b')), ← Nat.mul_left_inj (Nat.ne_of_gt (Nat.two_pow_pos b)) (b := x * 2 ^ a')]
  simp only [Nat.mul_assoc, ← Nat.pow_add, h, Nat.add_comm b b']

/-- So does an inequality. -/
theorem mul_two_pow_le_iff {x y a b a' b' : Nat} (h : a + b' = a' + b) : x * 2 ^ a ≤ y * 2 ^ b ↔ x * 2 ^ a' ≤ y * 2 ^ b' := by
  rw [← Nat.mul_le_mul_right_iff (Nat.two_pow_pos b'), ← Nat.mul_le_mul_right_iff (Nat.two_pow_pos b) (n := x * 2 ^ a')]
  simp only [Nat.mul_assoc, ← Nat.pow_add, h, Nat.add_comm b b']

theorem eq_zero_iff_of_mul_two_pow {x y a b : Nat} (h : x * 2 ^ a = y * 2 ^ b) : x = 0 ↔ y = 0 := by
  have hzero (z k : Nat) : z * 2 ^ k = 0 ↔ z = 0 := Nat.mul_eq_zero.trans (or_iff_left (Nat.ne_of_gt (Nat.two_pow_pos k)))
  rw [← hzero x a, h, hzero]

theorem two_pow_lt_iff {a b : Nat} : 2 ^ a < 2 ^ b ↔ a < b := Nat.pow_lt_pow_iff_right (by decide)

theorem two_pow_le_iff {a b : Nat} : 2 ^ a ≤ 2 ^ b ↔ a ≤ b := Nat.pow_le_pow_iff_right (by decide)

/-- A value that is a power of two has an integer that is one. -/
theorem exists_of_isPow2 {v : Val} {k : Int} (h : IsPow2 v k) :
    ∃ (j : Nat) (e : Int), v = .fin false (2 ^ j) e ∧ (j : Int) + e = k := by
  obtain ⟨m, e, rfl, he, hk, hpow⟩ := h
  have hm : 0 < m := Nat.pos_of_mul_pos_right (hpow ▸ Nat.two_pow_pos _)
  have hle : (e + 2000).toNat ≤ (k + 2000).toNat := two_pow_le_iff.mp (hpow ▸ Nat.le_mul_of_pos_left _ hm)
  obtain ⟨j, hj⟩ := Nat.exists_eq_add_of_le' hle
  rw [hj, Nat.pow_add] at hpow
  obtain rfl := Nat.eq_of_mul_eq_mul_right (Nat.two_pow_pos _) hpow
  exact ⟨j, e, rfl, by omega⟩

/- The binary exponent -/

/-- The test of `floorLog2` for an exponent k, with numerator and denominator shifted. -/
theorem floorLog2_test (n d : Nat) (k : Int) : (if 0 ≤ k then decide (d * 2 ^ k.toNat ≤ n) else decide (d ≤ n * 2 ^ (-k).toNat)) =
    decide (d * 2 ^ k.toNat ≤ n * 2 ^ (-k).toNat) := by
  split
  · next hk => rw [show (-k).toNat = 0 by omega, Nat.pow_zero, Nat.mul_one]
  · next hk => rw [show k.toNat = 0 by omega, Nat.pow_zero, Nat.mul_one]

/-- `floorLog2` is the one k with 2^k ≤ n / d < 2^(k + 1); the powers are given by p and q of difference k. -/
theorem floorLog2_eq {n d p q : Nat} (hn : n ≠ 0) (hd : d ≠ 0) (hlow : d * 2 ^ p ≤ n * 2 ^ q) (hhigh : n * 2 ^ q < d * 2 ^ (p + 1)) :
    floorLog2 n d = p - q := by
  have hge : Nat.log2 d + p < Nat.log2 n + 1 + q := by
    rw [← two_pow_lt_iff, Nat.pow_add, Nat.pow_add]
    calc 2 ^ Nat.log2 d * 2 ^ p ≤ d * 2 ^ p := Nat.mul_le_mul_right _ (Nat.log2_self_le hd)
      _ ≤ n * 2 ^ q := hlow
      _ < 2 ^ (Nat.log2 n + 1) * 2 ^ q := Nat.mul_lt_mul_of_pos_right Nat.lt_log2_self (Nat.two_pow_pos q)
  have hle : Nat.log2 n + q < Nat.log2 d + 1 + (p + 1) := by
    rw [← two_pow_lt_iff, Nat.pow_add, Nat.pow_add]
    calc 2 ^ Nat.log2 n * 2 ^ q ≤ n * 2 ^ q := Nat.mul_le_mul_right _ (Nat.log2_self_le hn)
      _ < d * 2 ^ (p + 1) := hhigh
      _ ≤ 2 ^ (Nat.log2 d + 1) * 2 ^ (p + 1) := Nat.mul_le_mul_right _ (Nat.le_of_lt Nat.lt_log2_self)
  simp only [floorLog2, floorLog2_test, decide_eq_true_eq]
  split
  · next htest =>
    have hk : (Nat.log2 n : Int) - Nat.log2 d ≠ p + 1 - q := fun hk =>
      Nat.not_le.mpr hhigh ((mul_two_pow_le_iff (by omega)).mp htest)
    omega
  · next htest =>
    have hk : (Nat.log2 n : Int) - Nat.log2 d ≠ p - q := fun hk => htest ((mul_two_pow_le_iff (by omega)).mp hlow)
    omega

/-- The binary exponent of a quotient that is m * 2^q / 2^p. -/
theorem floorLog2_of_value {n d m p q : Nat} (hm : m ≠ 0) (hd : d ≠ 0) (hval : n * 2 ^ p = m * d * 2 ^ q) :
    floorLog2 n d = Nat.log2 m + q - p := by
  have hn : n ≠ 0 := mt (eq_zero_iff_of_mul_two_pow hval).mp (Nat.mul_ne_zero hm hd)
  have hmul (i : Nat) : d * 2 ^ (i + q) = 2 ^ i * (d * 2 ^ q) := by rw [Nat.pow_add, Nat.mul_left_comm]
  have hpos : 0 < d * 2 ^ q := Nat.mul_pos (Nat.pos_of_ne_zero hd) (Nat.two_pow_pos q)
  rw [Nat.mul_assoc] at hval
  have hlow : d * 2 ^ (Nat.log2 m + q) ≤ n * 2 ^ p := by
    rw [hval, hmul]
    exact Nat.mul_le_mul_right _ (Nat.log2_self_le hm)
  have hhigh : n * 2 ^ p < d * 2 ^ (Nat.log2 m + q + 1) := by
    rw [hval, Nat.add_right_comm, hmul]
    exact Nat.mul_lt_mul_of_pos_right Nat.lt_log2_self hpos
  exact floorLog2_eq hn hd hlow hhigh

/- Rounding of an exact value -/

theorem scaleQ_eq (n d : Nat) (s : Int) : scaleQ n d s = (n * 2 ^ s.toNat, d * 2 ^ (-s).toNat) := by
  unfold scaleQ
  split
  · next hs => rw [show (-s).toNat = 0 by omega, Nat.pow_zero, Nat.mul_one]
  · next hs => rw [show s.toNat = 0 by omega, Nat.pow_zero, Nat.mul_one]

/-- A value m * 2^e on the grid of its binary exponent is its grid point: nothing is rounded away. -/
theorem roundGrid_of_gridPoint {t n d m p q : Nat} {emin e e' : Int} (hm : m ≠ 0) (hd : d ≠ 0)
    (hval : n * 2 ^ p = m * d * 2 ^ q) (hpq : (p : Int) - q = e' - e) (hgrid : max (Nat.log2 m + e) emin = e + t)
    (mode : Mode) (neg : Bool) :
    ∃ tiny, roundGrid t emin mode neg n d e' = ((e + t - emin).toNat * 2 ^ t + m, false, tiny) := by
  have hexp : floorLog2 n d + e' = Nat.log2 m + e := by
    have hfloor := floorLog2_of_value hm hd hval
    omega
  have hscale : e' - (e + t - t) = e' - e := by omega
  have hnum : n * 2 ^ (e' - e).toNat = m * (d * 2 ^ (-(e' - e)).toNat) := by
    rw [← Nat.mul_assoc]
    exact (mul_two_pow_eq_iff (by omega)).mp hval
  have hden : 0 < d * 2 ^ (-(e' - e)).toNat := Nat.mul_pos (Nat.pos_of_ne_zero hd) (Nat.two_pow_pos _)
  refine ⟨decide (Nat.log2 m + e < emin), ?_⟩
  simp only [roundGrid, hexp, hgrid, hscale, scaleQ_eq, hnum, Nat.mul_mod_left, Nat.mul_div_cancel _ hden, roundUp, if_true]
  rfl

/-- What a finite magnitude code stands for: a subnormal, or a normal with its hidden bit (04 R82). -/
theorem decMag_cases {f : FpFmt} {neg neg' : Bool} {mag m : Nat} {e : Int} (h : FpFmt.dec.decMag f neg mag = .fin neg' m e) :
    neg' = neg ∧ ((mag = m ∧ m < 2 ^ f.t ∧ e = f.emin - f.t) ∨
      ∃ x r : Nat, mag = (x + 1) * 2 ^ f.t + r ∧ r < 2 ^ f.t ∧ m = 2 ^ f.t + r ∧ e = f.emin - f.t + x) := by
  have hsplit := Nat.div_add_mod' mag (2 ^ f.t)
  have hfrac := Nat.mod_lt mag (Nat.two_pow_pos f.t)
  unfold FpFmt.dec.decMag at h
  dsimp only at h
  split at h
  · next hsub =>
    injection h with hneg hm he
    rw [hsub, Nat.zero_mul, Nat.zero_add] at hsplit
    exact ⟨hneg.symm, .inl ⟨hsplit.symm.trans hm, hm ▸ hfrac, he.symm⟩⟩
  · next hnormal =>
    injection h with hneg hm he
    refine ⟨hneg.symm, .inr ⟨mag / 2 ^ f.t - 1, mag % 2 ^ f.t, ?_, hfrac, hm.symm, he.symm⟩⟩
    rw [Nat.sub_add_cancel (Nat.pos_of_ne_zero hnormal), hsplit]

/-- A nonzero value that a magnitude code stands for rounds to that code. -/
theorem roundGrid_of_decMag {f : FpFmt} {neg neg' : Bool} {mag m n d p q : Nat} {e e' : Int}
    (hmag : FpFmt.dec.decMag f neg mag = .fin neg' m e) (hm : m ≠ 0) (hd : d ≠ 0)
    (hval : n * 2 ^ p = m * d * 2 ^ q) (hpq : (p : Int) - q = e' - e) (mode : Mode) (sign : Bool) :
    ∃ tiny, roundGrid f.t f.emin mode sign n d e' = (mag, false, tiny) := by
  obtain ⟨-, ⟨rfl, hsmall, rfl⟩ | ⟨x, r, rfl, hr, rfl, rfl⟩⟩ := decMag_cases hmag
  · have hlog := (Nat.log2_lt hm).mpr hsmall
    obtain ⟨tiny, hround⟩ := roundGrid_of_gridPoint (t := f.t) (emin := f.emin) hm hd hval hpq (by omega) mode sign
    refine ⟨tiny, hround.trans ?_⟩
    rw [show (f.emin - f.t + f.t - f.emin).toNat = 0 by omega, Nat.zero_mul, Nat.zero_add]
  · have hlog : Nat.log2 (2 ^ f.t + r) = f.t :=
      (Nat.log2_eq_iff hm).mpr ⟨Nat.le_add_right _ _, by rw [Nat.pow_succ]; omega⟩
    obtain ⟨tiny, hround⟩ := roundGrid_of_gridPoint (t := f.t) (emin := f.emin) hm hd hval hpq (by omega) mode sign
    refine ⟨tiny, hround.trans ?_⟩
    rw [show (f.emin - f.t + x + f.t - f.emin).toNat = x by omega, ← Nat.add_assoc, ← Nat.succ_mul]

/-- A signed format with signed zeros whose infinity follows its largest finite code, with exponents of some hundred at most:
those of the special functions (04 Table 4.3). -/
structure FpFmt.Interchange (f : FpFmt) : Prop where
  signed : f.signed = true
  negZero : f.negZero = true
  inf : f.inf = some (f.maxCode + 1)
  least : -200 ≤ f.emin - f.t
  most : f.emin + (f.maxCode / 2 ^ f.t : Nat) < 1000

section
variable {f : FpFmt} (hf : f.Interchange)
include hf

theorem pack_eq (neg : Bool) (mag : Nat) : f.pack neg mag = (if neg then f.signBit else 0) + mag := by
  cases neg <;> simp [FpFmt.pack, hf.negZero]

/-- An element is a sign and a magnitude code, which stands for a finite value up to the largest finite code. -/
theorem exists_mag_dec (w : Nat) : ∃ neg mag, w = f.pack neg mag ∧
    f.dec w = if f.nan = some w then .nan else if f.maxCode + 1 < mag then .nan
      else if mag = f.maxCode + 1 then .inf neg else FpFmt.dec.decMag f neg mag := by
  simp only [pack_eq hf]
  by_cases hsign : f.signBit ≤ w
  · exact ⟨true, w - f.signBit, by simp [hsign], by simp [FpFmt.dec, hf.signed, hf.inf, hsign]⟩
  · exact ⟨false, w, by simp, by simp [FpFmt.dec, hf.signed, hf.inf, hsign]⟩

theorem exists_mag_of_dec {w m : Nat} {neg : Bool} {e : Int} (h : f.dec w = .fin neg m e) :
    ∃ mag ≤ f.maxCode, w = f.pack neg mag ∧ FpFmt.dec.decMag f neg mag = .fin neg m e := by
  obtain ⟨neg', mag, hw, hdec⟩ := exists_mag_dec hf w
  rw [h] at hdec
  split at hdec
  · cases hdec
  split at hdec
  · cases hdec
  · next hnan =>
    split at hdec
    · cases hdec
    · next hinf =>
      obtain rfl := (decMag_cases hdec.symm).1
      exact ⟨mag, by omega, hw, hdec.symm⟩

/-- The exponent and the size of a finite element. -/
theorem bounds_of_dec {w m : Nat} {neg : Bool} {e : Int} (h : f.dec w = .fin neg m e) :
    -200 ≤ e ∧ m < 2 ^ (f.t + 1) ∧ f.t + e < 1000 := by
  obtain ⟨mag, hmax, -, hmag⟩ := exists_mag_of_dec hf h
  have hleast := hf.least
  have hmost := hf.most
  have hquot := Nat.div_le_div_right (c := 2 ^ f.t) hmax
  generalize f.maxCode / 2 ^ f.t = top at hmost hquot
  rw [Nat.pow_succ]
  obtain ⟨-, ⟨-, hm, rfl⟩ | ⟨x, r, rfl, hr, rfl, rfl⟩⟩ := decMag_cases hmag
  · omega
  · have hx : x + 1 ≤ top := Nat.le_trans ((Nat.le_div_iff_mul_le (Nat.two_pow_pos _)).mpr (Nat.le_add_right _ _)) hquot
    omega

/-- A value that an element holds rounds to that element, without a flag (04 R93, R94; 09 R199). -/
theorem round_of_dec {w m n d p q : Nat} {neg : Bool} {e e' : Int} (h : f.dec w = .fin neg m e) (hm : m ≠ 0) (hd : d ≠ 0)
    (hval : n * 2 ^ p = m * d * 2 ^ q) (hpq : (p : Int) - q = e' - e) (satf : Bool) (mode : Mode) :
    f.round satf mode neg n d e' = (w, 0) := by
  obtain ⟨mag, hmax, rfl, hmag⟩ := exists_mag_of_dec hf h
  have hn : n ≠ 0 := mt (eq_zero_iff_of_mul_two_pow hval).mp (Nat.mul_ne_zero hm hd)
  obtain ⟨tiny, hgrid⟩ := roundGrid_of_decMag hmag hm hd hval hpq mode neg
  simp [FpFmt.round, hn, hgrid, Nat.not_lt.mpr hmax, fIf]

end

end Sys2Proof.Machine
end

section
/-! PROOFS. The special functions at infinities, zeros, negative arguments and exact values (09 R196 to R199, Table 9.2). -/

namespace Sys2Proof.Machine

open Sys2Proof.Claims

/- Square roots -/

/-- The loop has settled the bits of the root r from bit b upwards, and settles the rest. -/
theorem isqrtLoop_square {r b c : Nat} (hlow : c ≤ r) (hhigh : r < c + 2 ^ b) : isqrtLoop (r * r) b c = r := by
  induction b generalizing c with
  | zero =>
    simp only [isqrtLoop]
    omega
  | succ b ih =>
    rw [Nat.pow_succ] at hhigh
    simp only [isqrtLoop, Nat.mul_self_le_mul_self_iff]
    split
    · next hbit => exact ih hbit (by omega)
    · next hbit => exact ih hlow (by omega)

/-- The root of a square. -/
theorem isqrt_square (r : Nat) : isqrt (r * r) = r := by
  refine isqrtLoop_square (Nat.zero_le r) ?_
  rw [Nat.zero_add, ← Nat.mul_self_lt_mul_self_iff, ← Nat.pow_add]
  exact Nat.lt_of_lt_of_le Nat.lt_log2_self (two_pow_le_iff.mpr (by omega))

/-- The root of an even power of two is rounded from its exact value. -/
theorem sfuSqrt_of_pow2 (f : FpFmt) {j : Nat} {e k : Int} (hk : (j : Int) + e = 2 * k) :
    ∃ (i : Nat) (e' : Int), sfuSqrt f (2 ^ j) e = f.round false .rne false (2 ^ i) 1 e' ∧ (i : Int) + e' = k := by
  have hsquare (i : Nat) : 2 ^ (i + i) * 2 ^ 256 = 2 ^ (i + 128) * 2 ^ (i + 128) := by
    rw [← Nat.pow_add, ← Nat.pow_add, Nat.add_add_add_comm]
  have hdouble (i : Nat) : 2 * 2 ^ (i + 128) = 2 ^ (i + 129) := Nat.pow_succ'.symm
  by_cases he : e % 2 = 0
  · obtain ⟨i, rfl⟩ : ∃ i, j = i + i := ⟨j / 2, by omega⟩
    refine ⟨i + 129, e / 2 - 129, ?_, by omega⟩
    simp only [sfuSqrt, if_pos he, hsquare, isqrt_square, if_true, Nat.add_zero, hdouble]
  · obtain ⟨i, hi⟩ : ∃ i, j + 1 = i + i := ⟨(j + 1) / 2, by omega⟩
    refine ⟨i + 129, (e - 1) / 2 - 129, ?_, by omega⟩
    have hpow : 2 * 2 ^ j = 2 ^ (i + i) := by rw [← hi, Nat.pow_succ']
    simp only [sfuSqrt, if_neg he, hpow, hsquare, isqrt_square, if_true, Nat.add_zero, hdouble]

/- Arguments and exact values -/

section
variable (f : FpFmt) (neg : Bool)

theorem sfu1_of_ne_zero (fn : SfuFn) {m : Nat} (hm : m ≠ 0) (e : Int) : sfu1 fn f (.fin neg m e) = sfuFinite fn f neg m e := if_neg hm

/-- Four times the argument is even: sin2pi is a zero of the argument's sign. -/
theorem sfuQuarter_sin_of_even (x : Int) : sfuQuarter f false neg (2 * x) = (f.pack neg 0, 0) := by
  rcases Int.emod_two_eq x with hx | hx
  · have hquarter : 2 * x % 4 = 0 := by omega
    simp [sfuQuarter, hquarter]
  · have hquarter : 2 * x % 4 = 2 := by omega
    simp [sfuQuarter, hquarter]

/-- Four times the argument is odd: cos2pi is +0. -/
theorem sfuQuarter_cos_of_odd (x : Int) : sfuQuarter f true neg (2 * x + 1) = (0, 0) := by
  rcases Int.emod_two_eq x with hx | hx
  · have hquarter : (2 * x + 1 + 1) % 4 = 2 := by omega
    simp [sfuQuarter, hquarter]
  · have hquarter : (2 * x + 1 + 1) % 4 = 0 := by omega
    simp [sfuQuarter, hquarter]

/-- An argument that is a multiple of a quarter is decided by that multiple. -/
theorem trigFinite_of_quarter (cosine : Bool) {m n : Nat} {e : Int} (he : e < 0) (hquarter : 4 * m = n * 2 ^ (-e).toNat) :
    sfuFinite.trigFinite f cosine neg m e = sfuQuarter f cosine neg (sInt neg n) := by
  rw [sfuFinite.trigFinite, if_neg (Int.not_le.mpr he), hquarter, if_pos (Nat.mul_mod_left _ _),
    Nat.mul_div_cancel _ (Nat.two_pow_pos _)]

/-- sin2pi is a zero of the argument's sign where twice the argument is an integer (09 R198). -/
theorem sfu1_sin2pi_of_half {m n : Nat} {e : Int} (h : 0 ≤ e ∨ 2 * m = n * 2 ^ (-e).toNat) :
    sfu1 .sin2pi f (.fin neg m e) = (f.pack neg 0, 0) := by
  by_cases hm : m = 0
  · simp [sfu1, sfuSpecial, hm]
  · rw [sfu1_of_ne_zero f neg _ hm, sfuFinite]
    by_cases he : 0 ≤ e
    · rw [sfuFinite.trigFinite, if_pos he]
      exact sfuQuarter_sin_of_even f neg 0
    · have hquarter : 4 * m = 2 * n * 2 ^ (-e).toNat := by
        rw [Nat.mul_assoc, ← h.resolve_left he]
        omega
      have heven : sInt neg (2 * n : Nat) = 2 * sInt neg n := by
        cases neg
        · rfl
        · exact (Int.mul_neg 2 n).symm
      rw [trigFinite_of_quarter f neg false (Int.not_le.mp he) hquarter, heven, sfuQuarter_sin_of_even]

/-- cos2pi is +0 where four times the argument is odd (09 R198). -/
theorem sfu1_cos2pi_of_odd {m n : Nat} {e : Int} (he : e < 0) (h : 4 * m = (2 * n + 1) * 2 ^ (-e).toNat) :
    sfu1 .cos2pi f (.fin neg m e) = (0, 0) := by
  have hm : m ≠ 0 := by
    rintro rfl
    exact Nat.mul_ne_zero (Nat.succ_ne_zero (2 * n)) (Nat.ne_of_gt (Nat.two_pow_pos _)) h.symm
  have hodd : ∃ x, sInt neg (2 * n + 1 : Nat) = 2 * x + 1 := by
    cases neg
    · exact ⟨n, by simp only [sInt, Bool.false_eq_true, if_false]; omega⟩
    · exact ⟨-n - 1, by simp only [sInt, if_true]; omega⟩
  obtain ⟨x, hx⟩ := hodd
  rw [sfu1_of_ne_zero f neg _ hm, sfuFinite, trigFinite_of_quarter f neg true he h, hx, sfuQuarter_cos_of_odd]

/-- exp2 of an integer is rounded from that power of two. -/
theorem sfuFinite_exp2_of_integer {m n : Nat} {e : Int} (hm : m ≠ 0) (he : -200 ≤ e)
    (hval : m * 2 ^ (e + 2000).toNat = n * 2 ^ 2000) (hn : n < 2 ^ 10) :
    sfuFinite .exp2 f neg m e = f.round false .rne false 1 1 (sInt neg n) := by
  have hne : n ≠ 0 := mt (eq_zero_iff_of_mul_two_pow hval).mpr hm
  have hlog := (Nat.log2_lt hne).mpr hn
  have hfloor : floorLog2 m 1 = Nat.log2 n + (2000 : Nat) - (e + 2000).toNat :=
    floorLog2_of_value hne Nat.one_ne_zero (by rw [Nat.mul_one, hval])
  have hsmall : ¬ floorLog2 m 1 + e ≥ 10 := by omega
  have hshift : m * 2 ^ (e + 200).toNat = n * 2 ^ 200 := (mul_two_pow_eq_iff (by omega)).mp hval
  rw [sfuFinite, if_neg hsmall, hshift, if_pos (Nat.mul_mod_left _ _), Nat.mul_div_cancel _ (Nat.two_pow_pos 200)]

/-- log2 of a power of two is rounded from its exponent. -/
theorem sfu1_log2_of_pow2 (j : Nat) (e : Int) :
    sfu1 .log2 f (.fin false (2 ^ j) e) = f.round false .rne (decide ((j : Int) + e < 0)) ((j : Int) + e).natAbs 1 0 := by
  rw [sfu1_of_ne_zero f _ _ (Nat.ne_of_gt (Nat.two_pow_pos j))]
  simp [sfuFinite, Nat.log2_two_pow]

/-- sqrt of an even power of two is rounded from its exact root. -/
theorem sfu1_sqrt_of_pow2 {j : Nat} {e k : Int} (hk : (j : Int) + e = 2 * k) :
    ∃ (i : Nat) (e' : Int), sfu1 .sqrt f (.fin false (2 ^ j) e) = f.round false .rne false (2 ^ i) 1 e' ∧ (i : Int) + e' = k := by
  rw [sfu1_of_ne_zero f _ _ (Nat.ne_of_gt (Nat.two_pow_pos j)), sfuFinite, if_neg Bool.false_ne_true]
  exact sfuSqrt_of_pow2 f hk

/-- Negative arguments outside the domain are invalid (09 Table 9.2). -/
theorem sfu1_of_neg {m : Nat} (hm : m ≠ 0) (e : Int) : sfu1 .log2 f (.fin true m e) = sfuInvalid f ∧
    sfu1 .rsqrt f (.fin true m e) = sfuInvalid f ∧ sfu1 .sqrt f (.fin true m e) = sfuInvalid f := by
  simp [sfu1_of_ne_zero f true _ hm, sfuFinite]

end

/- The three element types -/

/-- The codes of a type are those of its format (04 R80, R83). -/
structure CodesFit (c : SfuCodes) : Prop extends c.ty.fp.Interchange where
  dec_negInf : c.ty.fp.dec (c.sign + c.inf) = .inf true
  dec_inf : c.ty.fp.dec c.inf = .inf false
  dec_negZero : c.ty.fp.dec c.sign = .fin true 0 (c.ty.fp.emin - c.ty.fp.t)
  dec_zero : c.ty.fp.dec 0 = .fin false 0 (c.ty.fp.emin - c.ty.fp.t)
  nanCode : c.ty.fp.nan = some c.nan
  infCode : c.ty.fp.inf = some c.inf
  signCode : c.ty.fp.signBit = c.sign
  oneCode (neg : Bool) : fpOne c.ty.fp neg = (if neg then c.sign else 0) + c.one
  halfCode : (c.ty.fp.round false .rne false 1 1 (-1)).1 = c.half
  log2_one : sfu1 .log2 c.ty.fp (c.ty.fp.dec c.one) = (0, 0)

/-- The formats of the three types give the codes of the table. -/
theorem fit_of_mem {c : SfuCodes} (hc : c ∈ sfuCodes) : CodesFit c := by
  simp only [sfuCodes, List.mem_cons, List.not_mem_nil, or_false] at hc
  obtain rfl | rfl | rfl := hc
  all_goals exact {
    signed := rfl, negZero := rfl, inf := rfl, least := by decide, most := by decide,
    dec_negInf := by decide, dec_inf := by decide, dec_negZero := by decide, dec_zero := by decide,
    nanCode := rfl, infCode := rfl, signCode := rfl, oneCode := by decide, halfCode := by decide, log2_one := by decide }

theorem pack_code {c : SfuCodes} (hfit : CodesFit c) (neg : Bool) (mag : Nat) :
    c.ty.fp.pack neg mag = (if neg then c.sign else 0) + mag :=
  hfit.signCode ▸ pack_eq hfit.toInterchange neg mag

theorem specialFunctionElements : SpecialFunctionElements := by
  intro h ty d a result
  refine ⟨?_, ?_, ?_, ?_, ?_, ?_, ?_, ?_, ?_, fun neg m e hm => sfu1_of_ne_zero _ neg .rcp hm e⟩
  all_goals exact givesV_of_eff rfl rfl fun _ => rfl

/-- The four special codes of a type decode to the arguments of Table 9.2, and the model's answers are the codes of its entries. -/
theorem specialFunctionArguments : SpecialFunctionArguments := by
  intro c hc f
  have hfit := fit_of_mem hc
  have hinvalid : sfuInvalid c.ty.fp = (c.nan, fINV) := by rw [sfuInvalid, hfit.nanCode, Option.getD_some]
  refine ⟨fun fn x hnan => ?nan, ?_, ?_, ?_, ?_, ?_, ?_, ?_, ?_, ?_, fun x m e hneg hm => ?negative⟩
  case nan => simp [f, hnan, sfu1, hfit.nanCode]
  case negative => simpa only [f, hneg, hinvalid] using sfu1_of_neg c.ty.fp hm e
  all_goals simp [f, hfit.dec_negInf, hfit.dec_inf, hfit.dec_negZero, hfit.dec_zero, sfu1, sfuSpecial, hinvalid, pack_code hfit,
    hfit.infCode, hfit.oneCode, hfit.halfCode]

section
variable {c : SfuCodes} (hfit : CodesFit c)
include hfit

/-- A power of two that an element holds is rounded to that element. -/
theorem round_pow2_of_dec {y i j : Nat} {e k : Int} (hy : IsPow2 (c.ty.fp.dec y) k) (hk : (i : Int) - j + e = k) :
    c.ty.fp.round false .rne false (2 ^ i) (2 ^ j) e = (y, 0) := by
  obtain ⟨l, e', hdec, rfl⟩ := exists_of_isPow2 hy
  have hval : 2 ^ i * 2 ^ (l + j) = 2 ^ l * 2 ^ j * 2 ^ i := by rw [← Nat.pow_add 2 l j, Nat.mul_comm]
  exact round_of_dec hfit.toInterchange hdec (Nat.ne_of_gt (Nat.two_pow_pos l)) (Nat.ne_of_gt (Nat.two_pow_pos j)) hval (by omega) _ _

theorem exponent_lt_of_dec {y : Nat} {k : Int} (hy : IsPow2 (c.ty.fp.dec y) k) : k < 1000 := by
  obtain ⟨j, e, hdec, rfl⟩ := exists_of_isPow2 hy
  obtain ⟨-, hsize, hmost⟩ := bounds_of_dec hfit.toInterchange hdec
  have hj := two_pow_lt_iff.mp hsize
  omega

/-- exp2 of an integer whose power of two an element holds (09 R199). -/
theorem sfu1_exp2_exact {x y m n : Nat} {neg : Bool} {e : Int} (hx : c.ty.fp.dec x = .fin neg m e)
    (hn : m * 2 ^ (e + 2000).toNat = n * 2 ^ 2000) (hy : IsPow2 (c.ty.fp.dec y) (if neg then -(n : Int) else n)) :
    sfu1 .exp2 c.ty.fp (c.ty.fp.dec x) = (y, 0) := by
  have hleast := (bounds_of_dec hfit.toInterchange hx).1
  have hround : c.ty.fp.round false .rne false 1 1 (sInt neg n) = (y, 0) :=
    round_pow2_of_dec hfit (i := 0) (j := 0) hy (by rw [sInt]; omega)
  rw [hx]
  by_cases hm : m = 0
  · obtain rfl : n = 0 := (eq_zero_iff_of_mul_two_pow hn).mp hm
    have hzero : sInt neg 0 = 0 := by cases neg <;> rfl
    rw [hzero] at hround
    simp [sfu1, sfuSpecial, hm, fpOne, hround]
  · have hsmall : n < 2 ^ 10 := by
      have hhigh := exponent_lt_of_dec hfit hy
      obtain ⟨-, -, -, -, hlow, -⟩ := hy
      omega
    rw [sfu1_of_ne_zero _ _ _ hm, sfuFinite_exp2_of_integer _ _ hm hleast hn hsmall, hround]

/-- log2 of a power of two whose exponent an element holds (09 R199). -/
theorem sfu1_log2_exact {x y m : Nat} {e k : Int} (hx : IsPow2 (c.ty.fp.dec x) k) (hk : k ≠ 0)
    (hy : c.ty.fp.dec y = .fin (decide (k < 0)) m e) (hm : m * 2 ^ (e + 2000).toNat = k.natAbs * 2 ^ 2000) :
    sfu1 .log2 c.ty.fp (c.ty.fp.dec x) = (y, 0) := by
  obtain ⟨j, e', hdec, rfl⟩ := exists_of_isPow2 hx
  have hleast := (bounds_of_dec hfit.toInterchange hy).1
  have hne : m ≠ 0 := mt (eq_zero_iff_of_mul_two_pow hm).mp (by omega)
  rw [hdec, sfu1_log2_of_pow2]
  exact round_of_dec hfit.toInterchange hy hne Nat.one_ne_zero (hm.symm.trans (by rw [Nat.mul_one])) (by omega) _ _

/-- rcp of a power of two whose inverse an element holds (09 R199). -/
theorem sfu1_rcp_exact {x y : Nat} {k : Int} (hx : IsPow2 (c.ty.fp.dec x) k) (hy : IsPow2 (c.ty.fp.dec y) (-k)) :
    sfu1 .rcp c.ty.fp (c.ty.fp.dec x) = (y, 0) := by
  obtain ⟨j, e, hdec, rfl⟩ := exists_of_isPow2 hx
  rw [hdec, sfu1_of_ne_zero _ _ _ (Nat.ne_of_gt (Nat.two_pow_pos j))]
  exact round_pow2_of_dec hfit (i := 0) hy (by omega)

/-- sqrt of a power of two whose root an element holds (09 R199). -/
theorem sfu1_sqrt_exact {x y : Nat} {k : Int} (hx : IsPow2 (c.ty.fp.dec x) (2 * k)) (hy : IsPow2 (c.ty.fp.dec y) k) :
    sfu1 .sqrt c.ty.fp (c.ty.fp.dec x) = (y, 0) := by
  obtain ⟨j, e, hdec, hk⟩ := exists_of_isPow2 hx
  obtain ⟨i, e', hsqrt, hroot⟩ := sfu1_sqrt_of_pow2 c.ty.fp hk
  rw [hdec, hsqrt]
  exact round_pow2_of_dec hfit (j := 0) hy (by omega)

end

theorem specialFunctionExactValues : SpecialFunctionExactValues := by
  refine ⟨?exact, ?quarters, ?rounded⟩
  case quarters => decide +kernel
  case rounded => decide +kernel
  case exact =>
    intro c hc f
    have hfit := fit_of_mem hc
    refine ⟨hfit.log2_one, fun x neg m e n hx hhalf => ?sin, fun x neg m e n hx he hodd => ?cos,
      fun x y neg m e n hx hn _ hy => sfu1_exp2_exact hfit hx hn hy,
      fun x y k m e hx hk _ hy hm => sfu1_log2_exact hfit hx hk hy hm,
      fun x y k hx _ _ hy => sfu1_rcp_exact hfit hx hy,
      fun x y k hx _ _ hy => sfu1_sqrt_exact hfit hx hy⟩
    case sin => rw [← Nat.add_zero (ite _ _ _), ← pack_code hfit, ← sfu1_sin2pi_of_half _ _ hhalf, ← hx]
    case cos => rw [← sfu1_cos2pi_of_odd c.ty.fp neg he hodd, ← hx]

/-- Settles O17, from the exact rounding of values that an element holds, the codes of the three types, and Example 9.1 run. -/
theorem specialFunctionResults : Obligations.SpecialFunctionResults :=
  ⟨specialFunctionElements, specialFunctionArguments, specialFunctionExactValues⟩

end Sys2Proof.Machine
end

section
/-! PROOFS. What reset leaves (11 R225, 12 R255, 13 R291, R298, 16 R339, 20 Table 20.4, 21 R433, Table 21.2): a table without
entries reads as the default of its entries everywhere. -/

namespace Sys2Proof.Machine

open Sys2Proof.Claims

@[simp] theorem reset_ctx (cx : Nat) : State.reset.ctx cx = {} := rfl
@[simp] theorem reset_quad (quad : Nat) : State.reset.quad quad = {} := rfl

theorem resetMemoryIsCanonical : ResetMemoryIsCanonical := rfl

theorem reset_registers (cx n : Nat) : (State.reset.ctx cx).sr n = 0 ∧ (n ≠ 0 → (State.reset.ctx cx).pr n = false ∧
    (State.reset.ctx cx).kr n = 0) := by
  refine ⟨ite_self _, fun hn => ⟨?_, if_neg hn⟩⟩
  simp [Ctx.pr, hn]

theorem reset_lastctx (quad : Nat) : ∀ c < 4, tget (State.reset.quad quad).lastctx c = 3 := by
  rw [reset_quad]
  decide

theorem reset_bank_holder (quad : Nat) (b : Bool) : ((State.reset.quad quad).bank b).holder = none := by
  cases b <;> rfl

theorem resetValues : ResetValues := by
  refine ⟨?embers, ?quads, ?semaphores, ?dies, ?contexts⟩
  case embers => exact fun core slot => ⟨rfl, rfl⟩
  case quads => exact fun quad => ⟨rfl, reset_lastctx quad, rfl, reset_bank_holder quad, rfl, fun i => ⟨rfl, rfl⟩⟩
  case semaphores => exact fun die i => rfl
  case dies => exact fun die => ⟨rfl, rfl, rfl, rfl, rfl, rfl, rfl, rfl, rfl, rfl, rfl⟩
  case contexts => exact fun cx => ⟨rfl, fun n => (reset_registers cx n).1, fun n => (reset_registers cx n).2⟩

/-- Settles O45, table by table. -/
theorem resetStateValues : Obligations.ResetStateValues := ⟨resetMemoryIsCanonical, resetValues⟩

end Sys2Proof.Machine
end

section
/-! PROOFS. What an operation of the E slot may change (11 R231, R241): two relations between a state and the state that it leaves,
and the changes of one context, core or quad that keep them. -/

namespace Sys2Proof.Machine

open Sys2Proof.Claims

/- Registers that stay -/

theorem sameRegisters_refl (c : Ctx) : SameRegisters c c :=
  ⟨rfl, rfl, rfl, rfl, rfl, rfl, rfl, rfl, rfl, rfl, rfl, rfl, rfl, rfl, rfl, rfl, rfl⟩

theorem sameRegisters_trans {c d e : Ctx} (h : SameRegisters c d) (g : SameRegisters d e) : SameRegisters c e := by
  simp only [SameRegisters] at *
  simp [h, g]

theorem sameRegisters_push (c : Ctx) (e : Landing) : SameRegisters c (c.push e) := by
  unfold Ctx.push Ctx.setLv
  split <;> exact sameRegisters_refl c

theorem sameRegisters_enqOrder (c : Ctx) (acq : Option Scope) (pod : Bool) (act : OrdAct) (entry : Bool) :
    SameRegisters c (c.enqOrder acq pod act entry) := sameRegisters_refl c

/-- Learning final states changes at most the dependence that a context holds (11 R241). -/
theorem learn_eq (c : Ctx) (l : List (Nat × Nat × Bool)) : ∃ d, c.learn l = { c with dep := d } := by
  unfold Ctx.learn
  induction l generalizing c with
  | nil => exact ⟨c.dep, rfl⟩
  | cons x l ih =>
    simp only [List.foldl_cons]
    split
    · exact ih { c with dep := _ }
    · exact ih c

/- The relations -/

theorem coreOf_div_four (cx : Nat) : coreOf cx / 4 = quadOf cx := Nat.div_div_eq_div_mul cx 4 4

/-- Beside what `Undisturbed` names: poison marks, far requests, the running context's registers, the panes of its core, every other
quad, and every other context but for the dependence of those of the same core. -/
structure EngineShared (s t : State) : Prop extends Undisturbed s t where
  cur : t.cur = s.cur
  poison : t.poison = s.poison
  fars : t.fars = s.fars
  registers : SameRegisters s.cc t.cc
  panes : (t.core (coreOf s.cur)).panes = (s.core (coreOf s.cur)).panes
  quad : ∀ q, q ≠ quadOf s.cur → t.quad q = s.quad q
  ctx : ∀ cx, coreOf cx ≠ coreOf s.cur → t.ctx cx = s.ctx cx
  dep : ∀ cx, cx ≠ s.cur → coreOf cx = coreOf s.cur → ∃ d, t.ctx cx = { s.ctx cx with dep := d }

/-- What the instructions of the E slot keep that end no beginning: also every other core, every vat and every collective. -/
structure EngineLocal (s t : State) : Prop extends EngineShared s t where
  vats : t.vats = s.vats
  colls : t.colls = s.colls
  core : ∀ k, k ≠ coreOf s.cur → t.core k = s.core k

/-- What every instruction of the E slot keeps: of the other cores and of the vats' saves at most the embers change, and no collective
begins. -/
structure EngineFrame (s t : State) : Prop extends EngineShared s t where
  vat : ∀ k, ∃ f : CoreSave → Tbl (Option Ember),
    t.vat k = { s.vat k with saves := (s.vat k).saves.map fun x => { x with embers := f x } }
  colls : ∀ r ∈ t.colls, r ∈ s.colls
  core : ∀ k, k ≠ coreOf s.cur → ∃ l, t.core k = { s.core k with embers := l }

theorem EngineShared.trans {s t u : State} (h : EngineShared s t) (g : EngineShared t u) : EngineShared s u where
  toUndisturbed := h.toUndisturbed.trans g.toUndisturbed
  cur := g.cur.trans h.cur
  poison := g.poison.trans h.poison
  fars := g.fars.trans h.fars
  registers := sameRegisters_trans h.registers g.registers
  panes := (h.cur ▸ g.panes).trans h.panes
  quad q hq := (g.quad q (h.cur ▸ hq)).trans (h.quad q hq)
  ctx cx hcx := (g.ctx cx (h.cur ▸ hcx)).trans (h.ctx cx hcx)
  dep cx hne hcx := by
    obtain ⟨d, hd⟩ := h.dep cx hne hcx
    obtain ⟨d', hd'⟩ := g.dep cx (h.cur ▸ hne) (h.cur ▸ hcx)
    exact ⟨d', by rw [hd', hd]⟩

theorem EngineLocal.trans {s t u : State} (h : EngineLocal s t) (g : EngineLocal t u) : EngineLocal s u where
  toEngineShared := h.toEngineShared.trans g.toEngineShared
  vats := g.vats.trans h.vats
  colls := g.colls.trans h.colls
  core k hk := (g.core k (h.cur ▸ hk)).trans (h.core k hk)

theorem EngineLocal.frame {s t : State} (h : EngineLocal s t) : EngineFrame s t where
  toEngineShared := h.toEngineShared
  vat k := ⟨CoreSave.embers, by simp [State.vat, h.vats]⟩
  colls r hr := h.colls ▸ hr
  core k hk := ⟨(s.core k).embers, h.core k hk⟩

theorem EngineFrame.trans_local {s t u : State} (h : EngineFrame s t) (g : EngineLocal t u) : EngineFrame s u where
  toEngineShared := h.toEngineShared.trans g.toEngineShared
  vat k := by
    obtain ⟨f, hf⟩ := h.vat k
    exact ⟨f, by rw [State.vat, g.vats]; exact hf⟩
  colls r hr := h.colls r (g.colls ▸ hr)
  core k hk := by
    obtain ⟨l, hl⟩ := h.core k hk
    exact ⟨l, by rw [g.core k (h.cur ▸ hk), hl]⟩

theorem EngineLocal.refl (s : State) : EngineLocal s s :=
  { Undisturbed.refl s with
    cur := rfl, poison := rfl, fars := rfl, registers := sameRegisters_refl _, panes := rfl, quad := fun _ _ => rfl, ctx := fun _ _ => rfl,
    dep := fun cx _ _ => ⟨(s.ctx cx).dep, rfl⟩, vats := rfl, colls := rfl, core := fun _ _ => rfl }

theorem EngineLocal.foldl {α : Type} {f : State → α → State} (l : List α) (s : State)
    (hf : ∀ u : State, u.cur = s.cur → ∀ x ∈ l, EngineLocal u (f u x)) : EngineLocal s (l.foldl f s) := by
  induction l generalizing s with
  | nil => exact .refl s
  | cons x l ih =>
    have hx := hf s rfl x List.mem_cons_self
    exact hx.trans (ih _ fun u hu y hy => hf u (hu.trans hx.cur) y (List.mem_cons_of_mem _ hy))

/- Changes that keep them -/

/-- A change of contexts of the running core that, beside the registers of the running one, keeps all but dependences. -/
theorem engineLocal_updCtx {s : State} {k : Nat} {f : Ctx → Ctx} (hk : coreOf k = coreOf s.cur)
    (hcur : k = s.cur → SameRegisters s.cc (f s.cc)) (hdep : k ≠ s.cur → ∃ d, f (s.ctx k) = { s.ctx k with dep := d }) :
    EngineLocal s (s.updCtx k f) :=
  { undisturbed_updCtx s k f with
    cur := rfl, poison := rfl, fars := rfl, panes := rfl, quad := fun _ _ => rfl, vats := rfl, colls := rfl, core := fun _ _ => rfl
    registers := by
      by_cases h : k = s.cur
      · simpa [State.cc, h] using hcur h
      · simpa [State.cc, Ne.symm h] using sameRegisters_refl s.cc
    ctx := fun cx hcx => by
      have hne : cx ≠ k := fun e => hcx (e ▸ hk)
      simp [hne]
    dep := fun cx hne hcx => by
      by_cases h : cx = k
      · simpa [h] using hdep (h ▸ hne)
      · exact ⟨(s.ctx cx).dep, by simp [h]⟩ }

theorem engineLocal_updCur {s : State} {f : Ctx → Ctx} (h : SameRegisters s.cc (f s.cc)) : EngineLocal s (s.updCur f) :=
  engineLocal_updCtx rfl (fun _ => h) fun hne => absurd rfl hne

theorem engineLocal_updCore {s : State} {k : Nat} {f : Core → Core} (hk : k = coreOf s.cur) (htlb : (f (s.core k)).tlb = (s.core k).tlb)
    (hpanes : (f (s.core k)).panes = (s.core k).panes) : EngineLocal s (s.updCore k f) :=
  { undisturbed_updCore s k htlb with
    cur := rfl, poison := rfl, fars := rfl, registers := sameRegisters_refl _, quad := fun _ _ => rfl, ctx := fun _ _ => rfl
    dep := fun cx _ _ => ⟨(s.ctx cx).dep, rfl⟩
    vats := rfl, colls := rfl, core := fun j hj => by simp [hk, hj], panes := by simpa [hk] using hpanes }

theorem engineLocal_updQuad {s : State} {k : Nat} {f : Quad → Quad} (hk : k = quadOf s.cur)
    (hepoch : (f (s.quad k)).epoch = (s.quad k).epoch) (hdefd : (f (s.quad k)).defd = (s.quad k).defd) :
    EngineLocal s (s.updQuad k f) :=
  { undisturbed_updQuad s k hepoch hdefd with
    cur := rfl, poison := rfl, fars := rfl, registers := sameRegisters_refl _, panes := rfl, ctx := fun _ _ => rfl
    dep := fun cx _ _ => ⟨(s.ctx cx).dep, rfl⟩
    vats := rfl, colls := rfl, core := fun _ _ => rfl, quad := fun q hq => by simp [hk, hq] }

theorem engineLocal_uid (s : State) (n : Nat) : EngineLocal s { s with uid := n } :=
  { EngineLocal.refl s with }

theorem engineLocal_landS (s : State) (slot L : Nat) (d : SReg) (v : Word) : EngineLocal s (s.landS slot L d v) := by
  unfold State.landS State.land
  exact engineLocal_updCur (sameRegisters_push _ _)

/-- An ordering place of the running context (14 R316). -/
theorem engineLocal_enqOrder (s : State) (acq : Option Scope) (pod : Bool) (act : OrdAct) (entry : Bool) :
    EngineLocal s (s.updCur fun c => c.enqOrder acq pod act entry) :=
  engineLocal_updCur (sameRegisters_enqOrder _ _ _ _ _)

end Sys2Proof.Machine
end

section
/-! PROOFS. What each operation of the E slot leaves alone: the end of an ember, leases and banks, tokens, hoops, byte barriers and
molds (11 R231 to R243, 12 R254, R257, 13 R294 to R304). -/

namespace Sys2Proof.Machine

open Sys2Proof.Claims

/- Leases, banks and the end of an ember -/

theorem engineLocal_settleLeases {s : State} {quad : Nat} (hquad : quad = quadOf s.cur) : EngineLocal s (s.settleLeases quad) := by
  simp only [State.settleLeases]
  split
  · exact engineLocal_updQuad (f := fun _ => _) hquad rfl rfl
  · exact .refl s

theorem setBank_epoch (q : Quad) (b : Bool) (k : Bank) : (q.setBank b k).epoch = q.epoch := by cases b <;> rfl
theorem setBank_defd (q : Quad) (b : Bool) (k : Bank) : (q.setBank b k).defd = q.defd := by cases b <;> rfl

theorem engineLocal_settleBank {s : State} {quad : Nat} (b : Bool) (hquad : quad = quadOf s.cur) :
    EngineLocal s (s.settleBank quad b) := by
  simp only [State.settleBank]
  split
  · exact engineLocal_updQuad hquad (setBank_epoch _ _ _) (setBank_defd _ _ _)
  · exact .refl s

theorem sameRegisters_learn (c : Ctx) (l : List (Nat × Nat × Bool)) : SameRegisters c (c.learn l) := by
  obtain ⟨d, hd⟩ := learn_eq c l
  rw [hd]
  exact sameRegisters_refl c

theorem engineLocal_learn {s : State} {core : Nat} (l : List (Nat × Nat × Bool)) (hcore : core = coreOf s.cur) :
    EngineLocal s ((List.range 4).foldl (fun s j => s.updCtx (4 * core + j) (·.learn l)) s) := by
  refine EngineLocal.foldl _ s fun u hu j hj => engineLocal_updCtx ?_ (fun _ => sameRegisters_learn _ l) fun _ => learn_eq _ l
  have := List.mem_range.mp hj
  unfold coreOf at *
  omega

/-- What waits for final states learns them: dependences, then leases, then the deferred releases of both banks (11 R241, 12 R257). -/
def State.tellFinal (s : State) (core : Nat) (l : List (Nat × Nat × Bool)) : State :=
  let told := (List.range 4).foldl (fun s j => s.updCtx (4 * core + j) (·.learn l)) s
  ((told.settleLeases (core / 4)).settleBank (core / 4) false).settleBank (core / 4) true

/-- An ember that is not final ends in its table, and then what waits for it learns the final states. -/
theorem finishEmber_eq_tellFinal {s : State} {core slot : Nat} {e : Ember} (hember : (s.core core).ember slot = some e)
    (hlive : e.st.cur.final = false) (st : EState) (cause faddr prog : Nat) :
    let k := (s.core core).setEmber slot (e.finish s.now st cause faddr prog)
    let r := cascade s.now 160 [(e.vat, e.token slot, st == .done && !e.struck)] k.embers
    s.finishEmber core slot st cause faddr prog = (s.setCore core { k with embers := r.1 }).tellFinal core r.2 := by
  simp only [State.finishEmber, hember, hlive]
  rfl

theorem engineLocal_tellFinal {s : State} {core : Nat} (l : List (Nat × Nat × Bool)) (hcore : core = coreOf s.cur) :
    EngineLocal s (s.tellFinal core l) := by
  have hquad : core / 4 = quadOf s.cur := by rw [hcore, coreOf_div_four]
  have hlearn := engineLocal_learn l hcore
  have hleases := hlearn.trans (engineLocal_settleLeases (quad := core / 4) (by rw [hlearn.cur, hquad]))
  have hbank := hleases.trans (engineLocal_settleBank (quad := core / 4) false (by rw [hleases.cur, hquad]))
  exact hbank.trans (engineLocal_settleBank true (by rw [hbank.cur, hquad]))

theorem engineLocal_finishEmber {s : State} {core : Nat} (slot : Nat) (st : EState) (cause faddr prog : Nat)
    (hcore : core = coreOf s.cur) : EngineLocal s (s.finishEmber core slot st cause faddr prog) := by
  cases hember : (s.core core).ember slot with
  | none => simpa only [State.finishEmber, hember] using EngineLocal.refl s
  | some e =>
    cases hfinal : e.st.cur.final with
    | true => simpa only [State.finishEmber, hember, hfinal, if_true] using EngineLocal.refl s
    | false =>
      rw [finishEmber_eq_tellFinal hember hfinal]
      refine EngineLocal.trans ?_ (engineLocal_tellFinal _ hcore)
      exact engineLocal_updCore (f := fun _ => _) hcore rfl rfl

end Sys2Proof.Machine
end

section
/-! PROOFS. The creation of an ember (11 R231), as its record and the place it takes. -/

namespace Sys2Proof.Machine

open Sys2Proof.Claims

/-- The quad and the lease number that a command is counted under: press commands count on the newest lease (12 R254). -/
def State.counted (s : State) (op : EcOp) : Quad × Nat :=
  if op.kind = 0 then (s.quad (quadOf s.cur)).leaseCount s.cur s.cc.wid else (s.quad (quadOf s.cur), 0)

/-- The record of a created ember: its slot's next generation, the running context as owner and issuer, and the predecessor that
emb.after left (11 R225, R231, R241). -/
def State.newRecord (s : State) (h : EcHdr) (op : EcOp) (seed0 seed1 : Word) : Ember :=
  let slot := (myCore s).freeSlot.getD 0
  let st : EState := match s.cc.dep with | .cancelled _ => .cancelled | _ => .pending
  { vat := s.cc.vatKey, name := h.name, gen := (myCore s).gen slot, prio := h.prio.val, owner := s.cur % 4, wheel := s.cc.wid,
    pred := match s.cc.dep with | .token t => t | .cancelled t => t | .ready t => t | .none => 0,
    predOk := match s.cc.dep with | .token _ => false | _ => true,
    cause := if st = .cancelled then cCANCEL else 0,
    faddr := match s.cc.dep with | .cancelled t => t | _ => 0,
    op := op, uid := s.uid, seed0 := seed0, seed1 := seed1, ba := (sv s h.a).toNat, ctx := s.cur, order := (myCore s).order,
    issued := s.now, lease := (s.counted op).2, issuer := s.cc.wid, st := ⟨st, st, s.now⟩ }

/-- A record enters the core's table, and a place that carries its fork both queues of the running context; one that is cancelled at
once may end its lease. -/
def State.enlist (s : State) (q : Quad) (slot : Nat) (e : Ember) : State :=
  let core := coreOf s.cur
  let t := (({ s with uid := s.uid + 1 }.setQuad (quadOf s.cur) q).setCore core
      { (s.core core).setEmber slot e with order := (s.core core).order + 1 }).updCur
    fun c => { c with dep := .none }.enqOrder none (e.op.kind == 2) (.fork core slot e.uid) false
  if e.st.cur = .cancelled then t.settleLeases (quadOf s.cur) else t

theorem newEmber_eq_landS (s : State) (h : EcHdr) (op : EcOp) (seed0 seed1 : Word) :
    let slot := (myCore s).freeSlot.getD 0
    let e := s.newRecord h op seed0 seed1
    s.newEmber h op seed0 seed1 = (s.enlist (s.counted op).1 slot e).landS 2 1 h.d (BitVec.ofNat 64 (e.token slot)) := rfl

@[simp] theorem State.settleLeases_mem (s : State) (quad : Nat) : (s.settleLeases quad).mem = s.mem :=
  (undisturbed_settleLeases s quad).mem
@[simp] theorem State.settleLeases_cur (s : State) (quad : Nat) : (s.settleLeases quad).cur = s.cur := by
  simp only [State.settleLeases]; split <;> rfl
@[simp] theorem State.settleLeases_ctx (s : State) (quad k : Nat) : (s.settleLeases quad).ctx k = s.ctx k := by
  simp only [State.settleLeases]; split <;> rfl
@[simp] theorem State.settleLeases_cc (s : State) (quad : Nat) : (s.settleLeases quad).cc = s.cc := by
  simp [State.cc]
@[simp] theorem State.settleLeases_core (s : State) (quad k : Nat) : (s.settleLeases quad).core k = s.core k := by
  simp only [State.settleLeases]; split <;> rfl

section
variable (s : State) (q : Quad) (slot : Nat) (e : Ember)

@[simp] theorem State.enlist_mem : (s.enlist q slot e).mem = s.mem := by
  simp only [State.enlist]; split <;> simp
theorem State.enlist_ember (j : Nat) : ((s.enlist q slot e).core (coreOf s.cur)).ember j =
    if j = slot then some e else (myCore s).ember j := by
  simp only [State.enlist]; split <;> simp [Core.ember, Core.setEmber, tget_tset, myCore]
theorem State.enlist_cc : (s.enlist q slot e).cc =
    { s.cc with dep := .none }.enqOrder none (e.op.kind == 2) (.fork (coreOf s.cur) slot e.uid) false := by
  simp only [State.enlist]; split <;> simp <;> rfl

end

@[simp] theorem State.landS_mem (s : State) (slot L : Nat) (d : SReg) (v : Word) : (s.landS slot L d v).mem = s.mem := rfl
@[simp] theorem State.landS_core (s : State) (slot L : Nat) (d : SReg) (v : Word) (k : Nat) : (s.landS slot L d v).core k = s.core k := rfl

/-- An instruction whose effect is to create an ember creates it. -/
theorem createsEmber_of_eff {p : PReg} {i : Instr} {h : EcHdr} {op : EcOp} {seed0 seed1 : State → Word}
    (henc : i.encSlot.isSome = true) (hpred : (slotOp i).pred = some p)
    (heff : ∀ s, (slotOp i).eff s = s.newEmber h op (seed0 s) (seed1 s)) : CreatesEmber p i h op seed0 seed1 := by
  intro s slot hissue hslot
  have hgetD : (myCore s).freeSlot.getD 0 = slot := by rw [hslot, Option.getD_some]
  refine ⟨_, s.enlist (s.counted op).1 slot (s.newRecord h op (seed0 s) (seed1 s)), s.newRecord h op (seed0 s) (seed1 s),
    gives_of_eff henc hpred heff s hissue, ?token, ?entry, ?others, rfl, rfl, ?gen, rfl, rfl, rfl, rfl, rfl, rfl, rfl, rfl, rfl,
    ?none, ?ready, ?pending, ?cancelled, ?place, ?mem⟩
  case token => simp [newEmber_eq_landS, hgetD, Ember.token, tokenOf, State.newRecord]
  case entry => simp [newEmber_eq_landS, hgetD, State.enlist_ember]
  case others => intro j hj; simp [newEmber_eq_landS, hgetD, State.enlist_ember, hj]
  case gen => simp [State.newRecord, hgetD]
  case none => intro hdep; simp [State.newRecord, hdep]
  case ready => intro k hdep; simp [State.newRecord, hdep]
  case pending => intro k hdep; simp [State.newRecord, hdep]
  case cancelled => intro k hdep; simp [State.newRecord, hdep, cCANCEL]
  case place => exact State.enlist_cc ..
  case mem => simp [newEmber_eq_landS]

/-- Settles O20: each command is the creation of an ember with its own operation and seeds. -/
theorem emberCommandResults : Obligations.EmberCommandResults := by
  intro p c b bank sparse snap acc hoop bb
  exact ⟨fun _ => ⟨createsEmber_of_eff rfl rfl fun _ => rfl, createsEmber_of_eff rfl rfl fun _ => rfl,
      createsEmber_of_eff rfl rfl fun _ => rfl, createsEmber_of_eff rfl rfl fun _ => rfl⟩,
    createsEmber_of_eff rfl rfl fun _ => rfl, createsEmber_of_eff rfl rfl fun _ => rfl,
    fun _ => createsEmber_of_eff rfl rfl fun _ => rfl, createsEmber_of_eff rfl rfl fun _ => rfl,
    createsEmber_of_eff rfl rfl fun _ => rfl, createsEmber_of_eff rfl rfl fun _ => rfl⟩

end Sys2Proof.Machine
end

section
/-! PROOFS. The token instructions (11 R233 to R243): the words they answer, the ember that a token names, and one equation for each
outcome of each instruction. -/

namespace Sys2Proof.Machine

open Sys2Proof.Claims

/- Status words (11 Tables 11.3, 11.4) -/

theorem status_eq_wordOf (e : Ember) (slot : Nat) (st : EState) : e.status slot st = wordOf e slot st := by cases st <;> rfl
theorem seen_eq_state (s : State) (e : Ember) : e.st.seen s.now = state s e := rfl
theorem asSeen_eq_shown (s : State) (e : Ember) : e.asSeen s.now = shown s e := rfl

theorem shown_st (s : State) (e : Ember) : (shown s e).st = e.st := by unfold shown; split <;> rfl
theorem shown_infoWord (s : State) (e : Ember) : (shown s e).infoWord = e.infoWord := by unfold shown; split <;> rfl

/- The ember that a token names (11 R225) -/

variable {s : State} {a : SReg} {slot : Nat} {e : Ember}

theorem tok_eq_named (s : State) (a : SReg) : s.tok ((s.cc.sr a.val).toNat % 2 ^ 16) = named s a := rfl

theorem ember_of_named (h : named s a = some (slot, e)) : (s.core (coreOf s.cur)).ember slot = some e := by
  simp only [named, Core.lookup] at h
  split at h
  · next hember =>
    split at h
    · cases h
      exact hember
    · cases h
  · cases h

theorem owns_eq_true (h : e.owner = s.cur % 4) : s.owns e = true := beq_iff_eq.mpr h
theorem owns_eq_false (h : e.owner ≠ s.cur % 4) : s.owns e = false := beq_eq_false_iff_ne.mpr h

/- Tokens that name no live ember -/

section
variable (d : SReg) (n : Fin 4) (h : named s a = none)
include h

theorem embWait_of_stale : s.embWait d a = s.landS 2 1 d (word (tokenIn s a) 0 0 0x10) := by
  simp only [State.embWait, tok_eq_named, h]; rfl
theorem embTest_of_stale : s.embTest d a = s.landS 2 1 d (word (tokenIn s a) 0 0 0x10) := by
  simp only [State.embTest, tok_eq_named, h]; rfl
theorem embCancel_of_stale : s.embCancel d a = s.landS 2 1 d (word (tokenIn s a) 0 0 0x10) := by
  simp only [State.embCancel, tok_eq_named, h]; rfl
theorem embDetach_of_stale : s.embDetach d a = s.landS 2 1 d (word (tokenIn s a) 0 0 0x10) := by
  simp only [State.embDetach, tok_eq_named, h]; rfl
theorem embPrio_of_stale : s.embPrio d a n = s.landS 2 1 d (word (tokenIn s a) 0 0 0x10) := by
  simp only [State.embPrio, tok_eq_named, h]; rfl
theorem embAfter_of_stale : s.embAfter d a =
    (s.updCur fun c => { c with dep := .none }).landS 2 1 d (word (tokenIn s a) 0 0 0x10) := by
  simp only [State.embAfter, tok_eq_named, h]; rfl

/-- A stale token that the reap record is of. -/
theorem embInfo_of_reaped (hreap : s.cc.reap = some (tokenIn s a, e)) : s.embInfo d a =
    s.landQuad d (wordOf (shown s e) (tokenIn s a % 128) (state s e)) (BitVec.ofNat 64 (shown s e).faddr)
      (BitVec.ofNat 64 (shown s e).prog) e.infoWord := by
  simp only [State.embInfo, tok_eq_named, h, hreap, asSeen_eq_shown, status_eq_wordOf, shown_st, shown_infoWord]
  exact if_pos rfl

theorem embInfo_of_stale (hreap : ∀ e, s.cc.reap ≠ some (tokenIn s a, e)) :
    s.embInfo d a = s.landQuad d (word (tokenIn s a) 0 0 0x10) 0 0 0 := by
  simp only [State.embInfo, tok_eq_named, h]
  split
  · next t e hrecord =>
    refine if_neg fun ht => hreap e ?_
    rw [hrecord, ht]
    rfl
  · rfl

end

/- Embers of another context -/

section
variable (d : SReg) (n : Fin 4) (h : named s a = some (slot, e)) (howner : e.owner ≠ s.cur % 4)
include h howner

theorem embWait_of_notOwner : s.embWait d a = s.landS 2 1 d (word (e.gen * 128 + slot) e.name.toNat 0 0x11) := by
  simp only [State.embWait, tok_eq_named, h, owns_eq_false howner]; rfl
theorem embCancel_of_notOwner : s.embCancel d a = s.landS 2 1 d (word (e.gen * 128 + slot) e.name.toNat 0 0x11) := by
  simp only [State.embCancel, tok_eq_named, h, owns_eq_false howner]; rfl
theorem embDetach_of_notOwner : s.embDetach d a = s.landS 2 1 d (word (e.gen * 128 + slot) e.name.toNat 0 0x11) := by
  simp only [State.embDetach, tok_eq_named, h, owns_eq_false howner]; rfl
theorem embPrio_of_notOwner : s.embPrio d a n = s.landS 2 1 d (word (e.gen * 128 + slot) e.name.toNat 0 0x11) := by
  simp only [State.embPrio, tok_eq_named, h, owns_eq_false howner]; rfl

end

/- Embers of the running context -/

theorem reap_eq_reaped (h : named s a = some (slot, e)) : s.reap slot e = reaped slot e s := by
  have hember := ember_of_named h
  simp [State.reap, reaped, State.updCore, Core.reapSlot, hember, Ember.token, tokenOf]

section
variable (d : SReg) (n : Fin 4) (h : named s a = some (slot, e)) (howner : e.owner = s.cur % 4)
include h howner

theorem embWait_of_owner : s.embWait d a = (joined e (reaped slot e s)).landS 2 1 d (wordOf e slot (state s e)) := by
  simp only [State.embWait, tok_eq_named, h, owns_eq_true howner, status_eq_wordOf, reap_eq_reaped h]; rfl

theorem embDetach_of_owner : s.embDetach d a = (withEmber slot { e with owner := 4 } s).landS 2 1 d (wordOf e slot (state s e)) := by
  simp only [State.embDetach, tok_eq_named, h, owns_eq_true howner, status_eq_wordOf]; rfl

theorem embPrio_of_final (hfinal : (state s e).final = true) : s.embPrio d a n = s.landS 2 1 d (wordOf e slot (state s e)) := by
  simp only [State.embPrio, tok_eq_named, h, owns_eq_true howner, status_eq_wordOf, seen_eq_state, hfinal]; rfl

theorem embPrio_of_live (hlive : (state s e).final = false) : s.embPrio d a n =
    (withEmber slot { e with prio := n.val } s).landS 2 1 d (wordOf e slot (state s e)) := by
  simp only [State.embPrio, tok_eq_named, h, owns_eq_true howner, status_eq_wordOf, seen_eq_state, hlive]; rfl

end

section
variable (d : SReg) (h : named s a = some (slot, e))
include h

theorem embTest_of_named : s.embTest d a =
    (if (state s e).final = true then joined e s else s).landS 2 1 d (wordOf e slot (state s e)) := by
  simp only [State.embTest, tok_eq_named, h, status_eq_wordOf]; rfl

theorem embInfo_of_named : s.embInfo d a = s.landQuad d (wordOf (shown s e) slot (state s e)) (BitVec.ofNat 64 (shown s e).faddr)
    (BitVec.ofNat 64 (shown s e).prog) e.infoWord := by
  simp only [State.embInfo, tok_eq_named, h, asSeen_eq_shown, status_eq_wordOf, shown_st, shown_infoWord]; rfl

/-- The dependence that emb.after leaves (11 R241). -/
def depOn (s : State) (a : SReg) (e : Ember) : Dep :=
  match e.st.cur with
  | .done => if state s e = .done then .none else .ready (tokenIn s a)
  | .faulted => .cancelled (tokenIn s a)
  | .cancelled => .cancelled (tokenIn s a)
  | _ => .token (tokenIn s a)

theorem embAfter_of_named : s.embAfter d a =
    (let t := s.updCur fun c => { c with dep := depOn s a e }
     if (state s e).final = true then joined e t else t).landS 2 1 d (wordOf e slot (state s e)) := by
  simp only [State.embAfter, tok_eq_named, h, status_eq_wordOf, seen_eq_state]; rfl

end

/- emb.adopt (11 R239) -/

section
variable (d : SReg) {name : BitVec 16}

theorem embAdopt_of_not_found (h : (myCore s).findName s.cc.vatKey name = none ∨
    ((myCore s).findName s.cc.vatKey name = some (slot, e) ∧ e.fenced = true)) :
    s.embAdopt d name = s.landS 2 1 d (word 0 name.toNat 0 0x12) := by
  rw [myCore] at h
  rcases h with h | ⟨h, hfenced⟩
  · simp only [State.embAdopt, h]; rfl
  · simp only [State.embAdopt, h, Option.filter, hfenced]; rfl

variable (h : (myCore s).findName s.cc.vatKey name = some (slot, e)) (hfenced : e.fenced = false)
include h hfenced

theorem findName_filter_unfenced :
    ((s.core (coreOf s.cur)).findName s.cc.vatKey name).filter (fun x => !x.2.fenced) = some (slot, e) :=
  Option.filter_eq_some_iff.mpr ⟨h, congrArg not hfenced⟩

theorem embAdopt_of_owned (howner : e.owner ≠ 4) :
    s.embAdopt d name = s.landS 2 1 d (word (e.gen * 128 + slot) e.name.toNat 0 0x11) := by
  simp only [State.embAdopt, findName_filter_unfenced h hfenced, if_neg howner]; rfl

/-- The record of an adopted ember. -/
def adopted (s : State) (e : Ember) : Ember :=
  { e with
    owner := s.cur % 4, wheel := s.cc.wid,
    st := if e.st.cur = .orphaned then e.st.put s.now (if e.began then .running else .pending) else e.st }

theorem embAdopt_of_ownerless (howner : e.owner = 4) : s.embAdopt d name = (withEmber slot (adopted s e) s).landS 2 1 d
    (wordOf e slot (if state s e = .orphaned then (if e.began = true then .running else .pending) else state s e)) := by
  simp only [State.embAdopt, findName_filter_unfenced h hfenced, if_pos howner, status_eq_wordOf, seen_eq_state]; rfl

end

end Sys2Proof.Machine
end

section
/-! PROOFS. emb.cancel (11 R237, Table 11.6): the final record of an ember stands through what its end sets off, and an ember that began
in this cycle is taken back from its engine. -/

namespace Sys2Proof.Machine

open Sys2Proof.Claims

/- The end of an ember in its table -/

theorem finish_final (e : Ember) (now cause faddr prog : Nat) {st : EState} (hst : st.final = true) :
    (e.finish now st cause faddr prog).st.cur.final = true := by
  simp only [Ember.finish]
  split
  · rfl
  · exact hst

theorem finish_of_not_struck {e : Ember} (h : e.struck = false) (now : Nat) (st : EState) (cause faddr prog : Nat) :
    (e.finish now st cause faddr prog).st.cur = st ∧ (e.finish now st cause faddr prog).cause = cause := by
  simp only [Ember.finish, h]
  exact ⟨rfl, rfl⟩

/-- The final state that is reached on the way leaves a record that is final as it is. -/
theorem cascade_keeps_final {slot : Nat} {e : Ember} (hfinal : e.st.cur.final = true) (now fuel : Nat)
    (work : List (Nat × Nat × Bool)) (t : Tbl (Option Ember)) (h : tget t slot = some e) :
    tget (cascade now fuel work t).1 slot = some e := by
  induction fuel generalizing work t with
  | zero => cases work <;> exact h
  | succ fuel ih =>
    obtain _ | ⟨⟨vat, tok, ok⟩, work⟩ := work
    · exact h
    · refine ih _ _ ?_
      rw [tget_map t slot (Option.map _) rfl, h]
      simp [hfinal]

@[simp] theorem State.settleBank_core (s : State) (quad : Nat) (b : Bool) (k : Nat) : (s.settleBank quad b).core k = s.core k := by
  simp only [State.settleBank]; split <;> rfl

theorem foldl_updCtx_core (l : List Nat) (g : Nat → Nat) (f : Ctx → Ctx) (s : State) (k : Nat) :
    (l.foldl (fun s j => s.updCtx (g j) f) s).core k = s.core k := by
  induction l generalizing s with
  | nil => rfl
  | cons x l ih => simp [ih]

theorem State.tellFinal_core (s : State) (core : Nat) (l : List (Nat × Nat × Bool)) (k : Nat) :
    (s.tellFinal core l).core k = s.core k := by
  simp [State.tellFinal, foldl_updCtx_core]

section
variable {s : State} {core slot : Nat} {e : Ember} (hember : (s.core core).ember slot = some e) (hlive : e.st.cur.final = false)
include hember hlive

theorem finishEmber_ember {st : EState} (hst : st.final = true) (cause faddr prog : Nat) :
    ((s.finishEmber core slot st cause faddr prog).core core).ember slot = some (e.finish s.now st cause faddr prog) := by
  rw [finishEmber_eq_tellFinal hember hlive, State.tellFinal_core, State.setCore_core, if_pos rfl]
  exact cascade_keeps_final (finish_final e _ _ _ _ hst) _ _ _ _ (tget_tset_same _ _ _)

end

theorem wordOf_cancelled (e : Ember) (slot : Nat) : wordOf e slot .cancelled = word (e.gen * 128 + slot) e.name.toNat 0x1F 2 := rfl

/-- The status word of a cancelled ember: one that an error struck before shows its fault (11 R250). -/
theorem wordOf_finish_cancelled (e : Ember) (now slot : Nat) :
    wordOf (e.finish now .cancelled cCANCEL 0 0) slot (e.finish now .cancelled cCANCEL 0 0).st.cur =
      if e.struck = true then wordOf { e with cause := 0x18 } slot .faulted else wordOf e slot .cancelled := by
  simp only [Ember.finish]
  split <;> rfl

/- A beginning that is taken back (11 R229, R237) -/

/-- In a table of embers, those with the numbers given have not begun. -/
def tableBack (gone : List Nat) (now : Nat) (l : Tbl (Option Ember)) : Tbl (Option Ember) :=
  l.map fun x => (x.1, x.2.map fun y => if gone.contains y.uid then y.unbegun now else y)

/-- A core's table with those embers back, and no offer of a collective by an ember that another one holds back (11 R232). -/
def Core.takeBack (gone : List Nat) (now : Nat) (k : Core) : Core :=
  let c := { k with embers := tableBack gone now k.embers }
  { c with embers := c.embers.map fun x => (x.1, x.2.map fun y => { y with offered := y.offered && !c.heldBack y }) }

/-- A vat's saves with those embers back. -/
def Vat.takeBack (gone : List Nat) (now : Nat) (v : Vat) : Vat :=
  { v with saves := v.saves.map fun k => { k with embers := tableBack gone now k.embers } }

/-- The machine with those embers back, live and saved, and without their collectives. -/
def State.takeBack (gone : List Nat) (s : State) : State :=
  { s with
    colls := s.colls.filter fun r => !gone.contains r.uid,
    cores := s.cores.map fun k => (k.1, k.2.takeBack gone s.now),
    vats := s.vats.map fun v => (v.1, v.2.takeBack gone s.now) }

/-- An ember leaves the array, the copy engine, or its collective. -/
theorem unbegin_cases (s : State) (core slot : Nat) (e : Ember) :
    (∃ f : Quad → Quad, s.unbegin core slot e = s.updQuad (core / 4) f ∧ ∀ q, (f q).epoch = q.epoch ∧ (f q).defd = q.defd) ∨
    ∃ gone, s.unbegin core slot e = s.takeBack gone := by
  simp only [State.unbegin]
  split
  · exact .inl ⟨_, rfl, fun _ => ⟨rfl, rfl⟩⟩
  · split
    · exact .inl ⟨_, rfl, fun _ => ⟨rfl, rfl⟩⟩
    · exact .inr ⟨_, rfl⟩

theorem State.takeBack_core (gone : List Nat) (s : State) (k : Nat) : (s.takeBack gone).core k = (s.core k).takeBack gone s.now :=
  tget_map s.cores k (Core.takeBack gone s.now) rfl

theorem State.takeBack_vat (gone : List Nat) (s : State) (k : Nat) : (s.takeBack gone).vat k = (s.vat k).takeBack gone s.now :=
  tget_map s.vats k (Vat.takeBack gone s.now) rfl

theorem unbegun_live {e : Ember} (hlive : e.st.cur.final = false) (now : Nat) : (e.unbegun now).st.cur.final = false := by
  simp only [Ember.unbegun]
  split
  · exact hlive
  · rfl

/-- An ember in a core's table, taken back or not, keeps its name, generation and mark of an error, and is final only if it was. -/
theorem Core.takeBack_ember {k : Core} {slot : Nat} {e : Ember} (h : k.ember slot = some e) (hlive : e.st.cur.final = false)
    (gone : List Nat) (now : Nat) : ∃ y, (k.takeBack gone now).ember slot = some y ∧ y.st.cur.final = false ∧ y.gen = e.gen ∧
      y.name = e.name ∧ y.struck = e.struck := by
  have hback : tget (tableBack gone now k.embers) slot = some (if gone.contains e.uid then e.unbegun now else e) := by
    rw [tableBack, tget_map k.embers slot (Option.map _) rfl, ← Core.ember, h]
    rfl
  refine ⟨_, by rw [Core.ember, Core.takeBack, tget_map _ slot (Option.map _) rfl, hback]; rfl, ?_⟩
  split
  · exact ⟨unbegun_live hlive now, rfl, rfl, rfl⟩
  · exact ⟨hlive, rfl, rfl, rfl⟩

theorem unbegin_ember {s : State} {core slot : Nat} {e : Ember} (h : (s.core core).ember slot = some e) (hlive : e.st.cur.final = false) :
    ∃ y, ((s.unbegin core slot e).core core).ember slot = some y ∧ y.st.cur.final = false ∧ y.gen = e.gen ∧ y.name = e.name ∧
      y.struck = e.struck := by
  obtain ⟨f, hf, -⟩ | ⟨gone, hgone⟩ := unbegin_cases s core slot e
  · exact ⟨e, by rw [hf, State.updQuad_core, h], hlive, rfl, rfl, rfl⟩
  · rw [hgone, State.takeBack_core]
    exact Core.takeBack_ember h hlive gone s.now

theorem unbegin_mem (s : State) (core slot : Nat) (e : Ember) : (s.unbegin core slot e).mem = s.mem := by
  obtain ⟨f, hf, -⟩ | ⟨gone, hgone⟩ := unbegin_cases s core slot e
  · rw [hf, State.updQuad_mem]
  · rw [hgone]; rfl

theorem unbegin_cur (s : State) (core slot : Nat) (e : Ember) : (s.unbegin core slot e).cur = s.cur := by
  obtain ⟨f, hf, -⟩ | ⟨gone, hgone⟩ := unbegin_cases s core slot e
  · rw [hf, State.updQuad_cur]
  · rw [hgone]; rfl

/- The outcomes of emb.cancel -/

theorem not_withdrawn {s : State} {e : Ember} (hbegan : e.began = true) (hst : state s e ≠ .pending) :
    (!e.began || e.fresh s.now) = false := by
  simp [Ember.fresh, hbegan, seen_eq_state, hst]

/-- The state in which an ember that is not begun, or whose beginning is taken back, has ended CANCELLED. -/
def State.withdraw (s : State) (slot : Nat) (e : Ember) : State :=
  (if e.began then s.unbegin (coreOf s.cur) slot e else s).finishEmber (coreOf s.cur) slot .cancelled cCANCEL 0 0

theorem withdraw_cur (s : State) (slot : Nat) (e : Ember) : (s.withdraw slot e).cur = s.cur := by
  unfold State.withdraw
  split
  · have hcur := unbegin_cur s (coreOf s.cur) slot e
    rw [(engineLocal_finishEmber slot _ _ _ _ (by rw [hcur])).cur, hcur]
  · exact (engineLocal_finishEmber slot _ _ _ _ rfl).cur

theorem withdraw_mem (s : State) (slot : Nat) (e : Ember) : (s.withdraw slot e).mem = s.mem := by
  rw [State.withdraw, (undisturbed_finishEmber _ _ _ _ _ _ _).mem]
  split
  · exact unbegin_mem ..
  · rfl

section
variable {s : State} {a : SReg} {slot : Nat} {e : Ember} (d : SReg) (h : named s a = some (slot, e)) (howner : e.owner = s.cur % 4)
include h howner

theorem embCancel_of_final (hfinal : (state s e).final = true) : s.embCancel d a = s.landS 2 1 d (wordOf e slot (state s e)) := by
  simp only [State.embCancel, tok_eq_named, h, owns_eq_true howner, status_eq_wordOf, seen_eq_state, hfinal]; rfl

variable (hlive : (state s e).final = false)
include hlive

/-- A final state that the ember took earlier in the cycle stands and is shown (11 R229; log entry 98). -/
theorem embCancel_of_ended (hended : e.st.cur.final = true) : s.embCancel d a = s.landS 2 1 d (wordOf e slot e.st.cur) := by
  simp only [State.embCancel, tok_eq_named, h, owns_eq_true howner, status_eq_wordOf, seen_eq_state, hlive, hended]; rfl

variable (hcur : e.st.cur.final = false)
include hcur

theorem embCancel_of_withdrawn (hopen : e.began = false ∨ state s e = .pending) : s.embCancel d a =
    (s.withdraw slot e).landS 2 1 d (let x := (((s.withdraw slot e).core (coreOf s.cur)).ember slot).getD e
      wordOf x slot x.st.cur) := by
  have hfresh : (!e.began || e.fresh s.now) = true := by
    rcases hopen with hbegan | hst
    · simp [hbegan]
    · simp [Ember.fresh, seen_eq_state, hst]
  have hcore := withdraw_cur s slot e
  unfold State.withdraw at hcore ⊢
  simp only [State.embCancel, tok_eq_named, h, owns_eq_true howner, seen_eq_state, hlive, hcur, hfresh, status_eq_wordOf, hcore]
  rfl

theorem embCancel_of_not_begun (hbegan : e.began = false) : s.embCancel d a =
    (s.finishEmber (coreOf s.cur) slot .cancelled cCANCEL 0 0).landS 2 1 d
      (if e.struck = true then wordOf { e with cause := 0x18 } slot .faulted else wordOf e slot .cancelled) := by
  have hend := finishEmber_ember (ember_of_named h) hcur (st := .cancelled) rfl cCANCEL 0 0
  have hwithdraw : s.withdraw slot e = s.finishEmber (coreOf s.cur) slot .cancelled cCANCEL 0 0 := by simp [State.withdraw, hbegan]
  rw [embCancel_of_withdrawn d h howner hlive hcur (.inl hbegan), hwithdraw, hend, Option.getD_some, wordOf_finish_cancelled]

/-- An ember that began in this cycle is taken back and ends CANCELLED, unless an error struck it. -/
theorem embCancel_of_fresh (hbegan : e.began = true) (hst : state s e = .pending) (hstruck : e.struck = false) : ∃ x,
    s.embCancel d a = (s.withdraw slot e).landS 2 1 d (wordOf e slot .cancelled) ∧
    ((s.withdraw slot e).core (coreOf s.cur)).ember slot = some x ∧ x.st.cur = .cancelled ∧ x.cause = 0x1F := by
  obtain ⟨y, hy, hylive, hgen, hname, hystruck⟩ := unbegin_ember (ember_of_named h) hcur
  have hwithdraw : s.withdraw slot e = (s.unbegin (coreOf s.cur) slot e).finishEmber (coreOf s.cur) slot .cancelled cCANCEL 0 0 := by
    simp [State.withdraw, hbegan]
  have hend := hwithdraw ▸ finishEmber_ember hy hylive (st := .cancelled) rfl cCANCEL 0 0
  have hunstruck := hystruck.trans hstruck
  refine ⟨_, ?_, hend, finish_of_not_struck hunstruck _ _ _ _ _⟩
  rw [embCancel_of_withdrawn d h howner hlive hcur (.inr hst), hend, Option.getD_some, wordOf_finish_cancelled, hunstruck,
    if_neg Bool.false_ne_true, wordOf_cancelled, wordOf_cancelled, hgen, hname]

variable (hbegan : e.began = true) (hst : state s e ≠ .pending)
include hbegan hst

theorem embCancel_of_busy (hkind : 2 ≤ e.op.kind) :
    s.embCancel d a = s.landS 2 1 d (word (e.gen * 128 + slot) e.name.toNat 0 0x13) := by
  have hrunning := not_withdrawn (s := s) hbegan hst
  simp only [State.embCancel, tok_eq_named, h, owns_eq_true howner, seen_eq_state, hlive, hcur, hrunning, if_pos hkind]; rfl

theorem embCancel_of_running (hkind : e.op.kind < 2) : s.embCancel d a =
    (withEmber slot { e with cancel := true, cancelAt := s.now } s).landS 2 1 d (wordOf e slot .running) := by
  have hrunning := not_withdrawn (s := s) hbegan hst
  simp only [State.embCancel, tok_eq_named, h, owns_eq_true howner, seen_eq_state, hlive, hcur, hrunning, if_neg (Nat.not_le.mpr hkind),
    status_eq_wordOf]
  rfl

end

end Sys2Proof.Machine
end

section
/-! PROOFS. The token instructions together (11 Tables 11.4, 11.5, R233 to R243). -/

namespace Sys2Proof.Machine

open Sys2Proof.Claims

/-- Where an instruction takes effect and its slot's effect is known, executing it answers that. -/
theorem exec_of_eff {p : PReg} {i : Instr} {s t : State} (henc : i.encSlot.isSome = true) (hpred : (slotOp i).pred = some p)
    (h : Issues p i s) (heff : (slotOp i).eff s = t) : exec i s = .next t :=
  (exec_of_issues henc hpred h).trans (congrArg Host.Outcome.next heff)

theorem tokenRefusals : TokenRefusals := by
  intro p d a n
  refine ⟨fun s h hstale => exec_of_eff rfl rfl h (embWait_of_stale d hstale),
    fun s h hstale => exec_of_eff rfl rfl h (embWait_of_stale d hstale),
    fun s h hstale => exec_of_eff rfl rfl h (embTest_of_stale d hstale),
    fun s h hstale => exec_of_eff rfl rfl h (embCancel_of_stale d hstale),
    fun s h hstale => exec_of_eff rfl rfl h (embDetach_of_stale d hstale),
    fun s h hstale => exec_of_eff rfl rfl h (embPrio_of_stale d n hstale),
    fun s h hstale => exec_of_eff rfl rfl h (embAfter_of_stale d hstale),
    fun s slot e h hnamed howner => exec_of_eff rfl rfl h (embWait_of_notOwner d hnamed howner),
    fun s slot e h hnamed howner => exec_of_eff rfl rfl h (embWait_of_notOwner d hnamed howner),
    fun s slot e h hnamed howner => exec_of_eff rfl rfl h (embCancel_of_notOwner d hnamed howner),
    fun s slot e h hnamed howner => exec_of_eff rfl rfl h (embDetach_of_notOwner d hnamed howner),
    fun s slot e h hnamed howner => exec_of_eff rfl rfl h (embPrio_of_notOwner d n hnamed howner), ?info⟩
  case info =>
    intro hd s h hstale
    exact ⟨fun e hreap => exec_of_eff rfl rfl h (embInfo_of_reaped d hstale hreap),
      fun hreap => exec_of_eff rfl rfl h (embInfo_of_stale d hstale hreap)⟩

theorem live_of_pending {s : State} {e : Ember} (h : state s e = .pending) : (state s e).final = false := by rw [h]; rfl

/-- What emb.after leaves in the running context, and that it leaves the cores and memory. -/
theorem embAfter_leaves (s : State) (a : SReg) (e : Ember) :
    let t := s.updCur fun c => { c with dep := depOn s a e }
    let u := if (state s e).final = true then joined e t else t
    u.cc.dep = depOn s a e ∧ u.cores = s.cores ∧ u.mem = s.mem := by
  dsimp only
  split
  · exact ⟨by rw [joined, State.updCur_cc, State.updCur_cc]; rfl, rfl, rfl⟩
  · exact ⟨by rw [State.updCur_cc], rfl, rfl⟩

theorem tokenUses : TokenUses := by
  intro p d a n name s slot e
  refine ⟨fun hnamed howner => ⟨?wait, ?waitTrap, ?cancel, ?detach, ?prio⟩, fun hnamed => ⟨?test, ?info, ?after⟩, fun h => ?adopt⟩
  case wait => exact fun h => exec_of_eff rfl rfl h (embWait_of_owner d hnamed howner)
  case waitTrap => exact fun h => exec_of_eff rfl rfl h (embWait_of_owner d hnamed howner)
  case cancel =>
    intro h
    refine ⟨fun hfinal => exec_of_eff rfl rfl h (embCancel_of_final d hnamed howner hfinal),
      fun hlive hended => exec_of_eff rfl rfl h (embCancel_of_ended d hnamed howner hlive hended),
      fun hlive hcur hbegan => exec_of_eff rfl rfl h (embCancel_of_not_begun d hnamed howner hlive hcur hbegan), ?fresh,
      fun hlive hcur hbegan hst hkind => exec_of_eff rfl rfl h (embCancel_of_busy d hnamed howner hlive hcur hbegan hst hkind),
      fun hlive hcur hbegan hst hkind => exec_of_eff rfl rfl h (embCancel_of_running d hnamed howner hlive hcur hbegan hst hkind)⟩
    case fresh =>
      intro hcur hbegan hst hstruck
      obtain ⟨x, heff, hember, hcancelled, hcause⟩ := embCancel_of_fresh d hnamed howner (live_of_pending hst) hcur hbegan hst hstruck
      exact ⟨_, x, exec_of_eff rfl rfl h heff, hember, hcancelled, hcause, withdraw_mem s slot e⟩
  case detach => exact fun h => exec_of_eff rfl rfl h (embDetach_of_owner d hnamed howner)
  case prio =>
    exact fun h => ⟨fun hfinal => exec_of_eff rfl rfl h (embPrio_of_final d n hnamed howner hfinal),
      fun hlive => exec_of_eff rfl rfl h (embPrio_of_live d n hnamed howner hlive)⟩
  case test => exact fun h => exec_of_eff rfl rfl h (embTest_of_named d hnamed)
  case info => exact fun _ h => exec_of_eff rfl rfl h (embInfo_of_named d hnamed)
  case after =>
    intro h
    obtain ⟨hdep, hcores, hmem⟩ := embAfter_leaves s a e
    exact ⟨_, exec_of_eff rfl rfl h (embAfter_of_named d hnamed), hdep, hcores, hmem⟩
  case adopt =>
    refine ⟨fun hnone => exec_of_eff rfl rfl h (embAdopt_of_not_found d hnone),
      fun hfound hfenced howner => exec_of_eff rfl rfl h (embAdopt_of_owned d hfound hfenced howner),
      fun hfound hfenced howner =>
        ⟨adopted s e, exec_of_eff rfl rfl h (embAdopt_of_ownerless d hfound hfenced howner), rfl, rfl, ?_, ?_⟩⟩
    · intro horphaned
      rw [adopted, if_pos horphaned]
      rfl
    · exact fun hkept => if_neg hkept

/-- Settles O21: each token instruction by the equation for its outcome. -/
theorem tokenResults : Obligations.TokenResults := ⟨tokenRefusals, tokenUses⟩

end Sys2Proof.Machine
end

section
/-! PROOFS. What each instruction of the E slot leaves alone: ember commands and tokens (11 R231 to R243), leases and banks (12 R254,
R257), hoops, byte barriers and molds (13 R294 to R304). -/

namespace Sys2Proof.Machine

open Sys2Proof.Claims

/- Ember commands (11 R231) -/

theorem leaseCount_keeps (q : Quad) (cx : Nat) (w : WheelId) :
    (q.leaseCount cx w).1.epoch = q.epoch ∧ (q.leaseCount cx w).1.defd = q.defd := by
  unfold Quad.leaseCount
  split <;> exact ⟨rfl, rfl⟩

theorem counted_keeps (s : State) (op : EcOp) : (s.counted op).1.epoch = (s.quad (quadOf s.cur)).epoch ∧
    (s.counted op).1.defd = (s.quad (quadOf s.cur)).defd := by
  unfold State.counted
  split
  · exact leaseCount_keeps _ _ _
  · exact ⟨rfl, rfl⟩

theorem engineLocal_enlist {s : State} {q : Quad} (slot : Nat) (e : Ember) (hepoch : q.epoch = (s.quad (quadOf s.cur)).epoch)
    (hdefd : q.defd = (s.quad (quadOf s.cur)).defd) : EngineLocal s (s.enlist q slot e) := by
  have hquad : EngineLocal s ({ s with uid := s.uid + 1 }.setQuad (quadOf s.cur) q) :=
    (engineLocal_uid s _).trans (engineLocal_updQuad (f := fun _ => q) rfl hepoch hdefd)
  have hcore := hquad.trans (engineLocal_updCore (k := coreOf s.cur)
    (f := fun _ => { (s.core (coreOf s.cur)).setEmber slot e with order := (s.core (coreOf s.cur)).order + 1 }) rfl rfl rfl)
  have hplace := hcore.trans (engineLocal_updCur (f := fun c =>
    { c with dep := .none }.enqOrder none (e.op.kind == 2) (.fork (coreOf s.cur) slot e.uid) false) (sameRegisters_refl _))
  simp only [State.enlist]
  split
  · exact hplace.trans (engineLocal_settleLeases rfl)
  · exact hplace

theorem engineLocal_newEmber (s : State) (h : EcHdr) (op : EcOp) (seed0 seed1 : Word) :
    EngineLocal s (s.newEmber h op seed0 seed1) := by
  obtain ⟨hepoch, hdefd⟩ := counted_keeps s op
  rw [newEmber_eq_landS]
  exact (engineLocal_enlist _ _ hepoch hdefd).trans (engineLocal_landS _ _ _ _ _)

/- Tokens (11 R233 to R243) -/

section
variable (s : State) (d a : SReg) (n : Fin 4) (slot : Nat) (e : Ember)

theorem engineLocal_withEmber : EngineLocal s (withEmber slot e s) := engineLocal_updCore rfl rfl rfl

theorem engineLocal_joined : EngineLocal s (joined e s) := engineLocal_enqOrder s _ _ _ _

theorem engineLocal_reaped : EngineLocal s (reaped slot e s) :=
  (engineLocal_updCore rfl rfl rfl).trans (engineLocal_updCur (sameRegisters_refl _))

theorem engineLocal_landQuad (w0 w1 w2 w3 : Word) : EngineLocal s (s.landQuad d w0 w1 w2 w3) :=
  (((engineLocal_landS s ..).trans (engineLocal_landS ..)).trans (engineLocal_landS ..)).trans (engineLocal_landS ..)

/-- What a token instruction does before its status word lands. -/
theorem EngineLocal.landS {s t : State} (h : EngineLocal s t) (d : SReg) (w : Word) : EngineLocal s (t.landS 2 1 d w) :=
  h.trans (engineLocal_landS t 2 1 d w)

theorem engineLocal_embWait : EngineLocal s (s.embWait d a) := by
  cases hnamed : named s a with
  | none => rw [embWait_of_stale d hnamed]; exact engineLocal_landS ..
  | some x =>
    obtain ⟨slot, e⟩ := x
    by_cases howner : e.owner = s.cur % 4
    · rw [embWait_of_owner d hnamed howner]
      exact ((engineLocal_reaped s slot e).trans (engineLocal_joined _ e)).landS d _
    · rw [embWait_of_notOwner d hnamed howner]; exact engineLocal_landS ..

theorem engineLocal_embTest : EngineLocal s (s.embTest d a) := by
  cases hnamed : named s a with
  | none => rw [embTest_of_stale d hnamed]; exact engineLocal_landS ..
  | some x =>
    rw [embTest_of_named d hnamed]
    split
    · exact (engineLocal_joined s x.2).landS d _
    · exact engineLocal_landS ..

theorem engineLocal_embDetach : EngineLocal s (s.embDetach d a) := by
  cases hnamed : named s a with
  | none => rw [embDetach_of_stale d hnamed]; exact engineLocal_landS ..
  | some x =>
    obtain ⟨slot, e⟩ := x
    by_cases howner : e.owner = s.cur % 4
    · rw [embDetach_of_owner d hnamed howner]; exact (engineLocal_withEmber s slot _).landS d _
    · rw [embDetach_of_notOwner d hnamed howner]; exact engineLocal_landS ..

theorem engineLocal_embPrio : EngineLocal s (s.embPrio d a n) := by
  cases hnamed : named s a with
  | none => rw [embPrio_of_stale d n hnamed]; exact engineLocal_landS ..
  | some x =>
    obtain ⟨slot, e⟩ := x
    by_cases howner : e.owner = s.cur % 4
    · cases hfinal : (state s e).final with
      | true => rw [embPrio_of_final d n hnamed howner hfinal]; exact engineLocal_landS ..
      | false => rw [embPrio_of_live d n hnamed howner hfinal]; exact (engineLocal_withEmber s slot _).landS d _
    · rw [embPrio_of_notOwner d n hnamed howner]; exact engineLocal_landS ..

theorem engineLocal_embInfo : EngineLocal s (s.embInfo d a) := by
  cases hnamed : named s a with
  | some x => rw [embInfo_of_named d hnamed]; exact engineLocal_landQuad ..
  | none =>
    by_cases hreap : ∃ e, s.cc.reap = some (tokenIn s a, e)
    · obtain ⟨e, hreap⟩ := hreap
      rw [embInfo_of_reaped d hnamed hreap]
      exact engineLocal_landQuad ..
    · rw [embInfo_of_stale d hnamed (not_exists.mp hreap)]
      exact engineLocal_landQuad ..

theorem engineLocal_embAfter : EngineLocal s (s.embAfter d a) := by
  have hdep (x : Dep) : EngineLocal s (s.updCur fun c => { c with dep := x }) := engineLocal_updCur (sameRegisters_refl _)
  cases hnamed : named s a with
  | none => rw [embAfter_of_stale d hnamed]; exact (hdep _).landS d _
  | some x =>
    rw [embAfter_of_named d hnamed]
    dsimp only
    split
    · exact ((hdep _).trans (engineLocal_joined _ _)).landS d _
    · exact (hdep _).landS d _

theorem engineLocal_embAdopt (name : BitVec 16) : EngineLocal s (s.embAdopt d name) := by
  simp only [State.embAdopt]
  split
  · exact engineLocal_landS ..
  · split
    · exact (engineLocal_withEmber s _ _).landS d _
    · exact engineLocal_landS ..

end

/- Leases and banks (12 R254, R257) -/

theorem pressLease_keeps (q : Quad) (cx : Nat) (w : WheelId) :
    (q.pressLease cx w).epoch = q.epoch ∧ (q.pressLease cx w).defd = q.defd := by
  simp only [Quad.pressLease]
  split
  · exact ⟨rfl, rfl⟩
  · split <;> exact ⟨rfl, rfl⟩

theorem pressFree_keeps (q : Quad) (cx : Nat) (w : WheelId) :
    (q.pressFree cx w).epoch = q.epoch ∧ (q.pressFree cx w).defd = q.defd := by
  unfold Quad.pressFree
  split
  · exact ⟨rfl, rfl⟩
  · split
    · split
      · exact ⟨rfl, rfl⟩
      · split <;> exact ⟨rfl, rfl⟩
    · split
      · split <;> exact ⟨rfl, rfl⟩
      · exact ⟨rfl, rfl⟩
      · exact ⟨rfl, rfl⟩

section
variable (s : State) (b : Bool)

theorem engineLocal_pressLease : EngineLocal s (s.updQuad (quadOf s.cur) (·.pressLease s.cur s.cc.wid)) :=
  engineLocal_updQuad rfl (pressLease_keeps _ _ _).1 (pressLease_keeps _ _ _).2

theorem engineLocal_pressFree :
    EngineLocal s ((s.updQuad (quadOf s.cur) (·.pressFree s.cur s.cc.wid)).settleLeases (quadOf s.cur)) :=
  (engineLocal_updQuad rfl (pressFree_keeps _ _ _).1 (pressFree_keeps _ _ _).2).trans (engineLocal_settleLeases rfl)

theorem engineLocal_setBank (f : Quad → Bank) : EngineLocal s (s.updQuad (quadOf s.cur) fun q => q.setBank b (f q)) :=
  engineLocal_updQuad rfl (setBank_epoch _ _ _) (setBank_defd _ _ _)

theorem engineLocal_claim : EngineLocal s (s.claim b) := by
  unfold State.claim
  exact engineLocal_setBank s b _

theorem engineLocal_releaseBank : EngineLocal s (s.releaseBank s.cur b) := by
  unfold State.releaseBank
  exact (engineLocal_setBank s b _).trans (engineLocal_settleBank b rfl)

end

/- Hoops and byte barriers (13 R294 to R301) -/

section
variable (s : State) (d : SReg) (i n : Nat)

theorem engineLocal_putHoop (h : Hoop) : EngineLocal s (s.putHoop (quadOf s.cur) i h) := engineLocal_updQuad rfl rfl rfl

theorem engineLocal_putBb (b : Bb) : EngineLocal s (s.putBb (quadOf s.cur) i b) := engineLocal_updQuad rfl rfl rfl

theorem engineLocal_hoopRel : EngineLocal s (s.hoopRel i) :=
  (engineLocal_putHoop s i _).trans (engineLocal_enqOrder _ _ _ _ _)

theorem engineLocal_bbExpect : EngineLocal s (s.bbExpect d i n) := (engineLocal_putBb s i _).landS d _

theorem engineLocal_bbArrive : EngineLocal s (s.bbArrive i n) :=
  (((engineLocal_putBb s i _).trans (engineLocal_uid _ _)).trans (engineLocal_updQuad rfl rfl rfl)).trans
    (engineLocal_enqOrder _ _ _ _ _)

theorem engineLocal_bbTake : EngineLocal s (s.bbTake i) := by
  simp only [State.bbTake]
  split
  · exact engineLocal_putBb s i _
  · exact .refl s

theorem engineLocal_bbQuery : EngineLocal s (s.bbQuery d i) := by
  simp only [State.bbQuery]
  split <;> exact (engineLocal_landS s 2 1 d _).landS _ _

end

/- Molds (13 R303) -/

section
variable (s : State) (d : SReg) (h : Nat)

theorem engineLocal_setCore {k : Core} (htlb : k.tlb = (s.core (coreOf s.cur)).tlb) (hpanes : k.panes = (s.core (coreOf s.cur)).panes) :
    EngineLocal s (s.setCore (coreOf s.cur) k) :=
  engineLocal_updCore (f := fun _ => k) rfl htlb hpanes

theorem engineLocal_moldGet : EngineLocal s (s.moldGet d h) := by
  simp only [State.moldGet]
  split
  · split
    · exact EngineLocal.landS (engineLocal_setCore s (by rfl) (by rfl)) d _
    · exact engineLocal_landS ..
  · split
    · exact EngineLocal.landS (engineLocal_setCore s (by rfl) (by rfl)) d _
    · exact engineLocal_landS ..

theorem engineLocal_moldPass : EngineLocal s (s.moldPass h) := by
  unfold State.moldPass
  split
  · exact engineLocal_updCore rfl rfl rfl
  · exact .refl s

theorem engineLocal_moldFree : EngineLocal s (s.moldFree h) := by
  unfold State.moldFree
  split
  · exact engineLocal_updCore rfl rfl rfl
  · exact .refl s

end

end Sys2Proof.Machine
end

section
/-! PROOFS. The frame of the E slot (11 R231, R241): emb.cancel with the beginnings that it ends (11 R229, R232, R237), and every
instruction of the slot. -/

namespace Sys2Proof.Machine

open Sys2Proof.Claims

/- emb.cancel -/

theorem State.takeBack_undisturbed (gone : List Nat) (s : State) : Undisturbed s (s.takeBack gone) where
  mem := rfl
  mods := rfl
  dies := rfl
  tlb k := by rw [State.takeBack_core]; rfl
  epoch _ := rfl
  defd _ := rfl
  cancelled v := by rw [State.takeBack_vat]; rfl
  spawns v := by rw [State.takeBack_vat]; rfl

theorem engineFrame_takeBack (gone : List Nat) (s : State) : EngineFrame s (s.takeBack gone) :=
  { State.takeBack_undisturbed gone s with
    cur := rfl, poison := rfl, fars := rfl, registers := sameRegisters_refl _, quad := fun _ _ => rfl, ctx := fun _ _ => rfl
    panes := by rw [State.takeBack_core]; rfl
    dep := fun cx _ _ => ⟨(s.ctx cx).dep, rfl⟩
    vat := fun k => ⟨fun x => tableBack gone s.now x.embers, State.takeBack_vat gone s k⟩
    colls := fun r hr => (List.mem_filter.mp hr).1
    core := fun k _ => ⟨_, State.takeBack_core gone s k⟩ }

theorem engineFrame_unbegin (s : State) (slot : Nat) (e : Ember) : EngineFrame s (s.unbegin (coreOf s.cur) slot e) := by
  obtain ⟨f, hf, hkeeps⟩ | ⟨gone, hgone⟩ := unbegin_cases s (coreOf s.cur) slot e
  · rw [hf]
    exact (engineLocal_updQuad (coreOf_div_four _) (hkeeps _).1 (hkeeps _).2).frame
  · rw [hgone]
    exact engineFrame_takeBack gone s

theorem engineFrame_withdraw (s : State) (slot : Nat) (e : Ember) : EngineFrame s (s.withdraw slot e) := by
  unfold State.withdraw
  split
  · exact (engineFrame_unbegin s slot e).trans_local (engineLocal_finishEmber _ _ _ _ _ (by rw [unbegin_cur]))
  · exact (engineLocal_finishEmber _ _ _ _ _ rfl).frame

theorem engineFrame_embCancel (s : State) (d a : SReg) : EngineFrame s (s.embCancel d a) := by
  have hland (w : Word) : EngineFrame s (s.landS 2 1 d w) := (engineLocal_landS s 2 1 d w).frame
  cases hnamed : named s a with
  | none => rw [embCancel_of_stale d hnamed]; exact hland _
  | some x =>
    obtain ⟨slot, e⟩ := x
    by_cases howner : e.owner = s.cur % 4
    case neg => rw [embCancel_of_notOwner d hnamed howner]; exact hland _
    cases hlive : (state s e).final with
    | true => rw [embCancel_of_final d hnamed howner hlive]; exact hland _
    | false =>
    cases hcur : e.st.cur.final with
    | true => rw [embCancel_of_ended d hnamed howner hlive hcur]; exact hland _
    | false =>
    by_cases hopen : e.began = false ∨ state s e = .pending
    · rw [embCancel_of_withdrawn d hnamed howner hlive hcur hopen]
      exact (engineFrame_withdraw s slot e).trans_local (engineLocal_landS ..)
    · obtain ⟨hbegan, hst⟩ := not_or.mp hopen
      rcases Nat.lt_or_ge e.op.kind 2 with hkind | hkind
      · rw [embCancel_of_running d hnamed howner hlive hcur (Bool.of_not_eq_false hbegan) hst hkind]
        exact ((engineLocal_withEmber s slot _).landS d _).frame
      · rw [embCancel_of_busy d hnamed howner hlive hcur (Bool.of_not_eq_false hbegan) hst hkind]
        exact hland _

/- Every instruction of the slot -/

/-- The vector slots are 0 and 1. -/
theorem vectorSlot_ne_two {b : Bool} {w v : Nat} : some (b.toNat, w) ≠ some (2, v) := by cases b <;> simp

theorem engineLocal_eff {i : Instr} {v : Nat} (hslot : i.encSlot = some (2, v)) (hcancel : ∀ p d a, i ≠ .embCancel p d a) (s : State) :
    EngineLocal s ((slotOp i).eff s) := by
  cases i
  case pressLease p => exact engineLocal_pressLease s
  case pressFree p => exact engineLocal_pressFree s
  case pressClaim p bank => exact engineLocal_claim s bank
  case pressRelease p bank => exact engineLocal_releaseBank s bank
  case pressStatNorth p c b snap => exact engineLocal_newEmber ..
  case pressStatWest p c b snap => exact engineLocal_newEmber ..
  case pressRun p c b bank sparse snap => exact engineLocal_newEmber ..
  case pressDrain p c b bank acc => exact engineLocal_newEmber ..
  case pressZero p c bank => exact engineLocal_newEmber ..
  case copy p c snap => exact engineLocal_newEmber ..
  case copyHoop p c hoop snap => exact engineLocal_newEmber ..
  case copyBb p c bb snap => exact engineLocal_newEmber ..
  case coll p c => exact engineLocal_newEmber ..
  case caveUpd p c b => exact engineLocal_newEmber ..
  case embWait p d a => exact engineLocal_embWait s d a
  case embWaitTrap p d a => exact engineLocal_embWait s d a
  case embTest p d a => exact engineLocal_embTest s d a
  case embCancel p d a => exact absurd rfl (hcancel p d a)
  case embDetach p d a => exact engineLocal_embDetach s d a
  case embAdopt p d name => exact engineLocal_embAdopt s d name
  case embPrio p d a n => exact engineLocal_embPrio s d a n
  case embInfo p d a => exact engineLocal_embInfo s d a
  case embAfter p d a => exact engineLocal_embAfter s d a
  case hoopInit p hoop a b => exact engineLocal_putHoop s _ _
  case hoopAwait p d hoop => exact (engineLocal_enqOrder s _ _ _ _).landS d _
  case hoopRel p hoop => exact engineLocal_hoopRel s _
  case hoopQuery p d hoop => exact engineLocal_landS ..
  case bbExpect p d bb a => exact engineLocal_bbExpect s d _ _
  case bbArrive p bb a => exact engineLocal_bbArrive s _ _
  case bbWait p bb a => exact (engineLocal_bbTake s _).trans (engineLocal_enqOrder _ _ _ _ _)
  case bbQuery p d bb => exact engineLocal_bbQuery s d _
  case moldGet p d a => exact engineLocal_moldGet s d _
  case moldPass p a => exact engineLocal_moldPass s _
  case moldFree p a => exact engineLocal_moldFree s _
  -- No other instruction stands in slot 2: the vector slots have their number from the header, the others their own.
  all_goals first | exact absurd hslot vectorSlot_ne_two | cases hslot

theorem engineFrame_eff {i : Instr} {v : Nat} (hslot : i.encSlot = some (2, v)) (s : State) : EngineFrame s ((slotOp i).eff s) := by
  by_cases hcancel : ∃ p d a, i = .embCancel p d a
  · obtain ⟨p, d, a, rfl⟩ := hcancel
    exact engineFrame_embCancel s d a
  · exact (engineLocal_eff hslot (fun p d a h => hcancel ⟨p, d, a, h⟩) s).frame

/-- A slot that neither traps nor waits leaves the state, where its predicate is false, or has its effect. -/
theorem exec_eq_or_eff {i : Instr} {s t : State} (henc : i.encSlot.isSome = true) (h : IssuesV i s) (hexec : exec i s = .next t) :
    t = s ∨ t = (slotOp i).eff s := by
  rw [exec_eq_runOp i s henc, runOp_cleared _ _ h] at hexec
  injection hexec with hexec
  rw [← hexec]
  split
  · exact .inr rfl
  · exact .inl rfl

/-- Settles O40: a run of the slot leaves the state or has the slot's effect, and both keep the frame. -/
theorem engineInstructionFrame : Obligations.EngineInstructionFrame := by
  intro i s t v hslot hissue hexec
  have hrun := exec_eq_or_eff (by rw [hslot]; rfl) hissue hexec
  have hframe : EngineFrame s t := by
    rcases hrun with rfl | rfl
    · exact (EngineLocal.refl _).frame
    · exact engineFrame_eff hslot s
  have hlocal (hcancel : ∀ p d a, i ≠ .embCancel p d a) : EngineLocal s t := by
    rcases hrun with rfl | rfl
    · exact .refl _
    · exact engineLocal_eff hslot hcancel s
  exact ⟨⟨hframe.byte, hframe.poison⟩, hframe.dies, hframe.mods, hframe.fars, hframe.registers, hframe.quad,
    fun hcancel => ⟨(hlocal hcancel).core, (hlocal hcancel).vats, (hlocal hcancel).colls⟩, hframe.vat, hframe.colls, hframe.core,
    hframe.panes, hframe.ctx, hframe.dep⟩

end Sys2Proof.Machine
end
